-- ==== Sys2Proof/Word.lean ====
section
/-! DEFINITION. The word types of the block and the sparse table that holds every array of it. -/

namespace Sys2Proof

/-- A 32-bit register or parameter word (R68). -/
abbrev Word := BitVec 32

/-- One byte of memory or of a packet. -/
abbrev Byte := BitVec 8

/-- An engine's scalar register number (R302). -/
abbrev Reg5 := BitVec 5

/-- An engine's vector register number (R297). -/
abbrev VReg := BitVec 4

/-- A sparse array: index and value, indices rising, nothing listed that equals the default. -/
abbrev Tbl (α : Type) := List (Nat × α)

end Sys2Proof
end

