-- ==== Sys2Proof/Syntax.lean ====
section
/-! DEFINITION. The commands of the block: one constructor of `Instr` for each row of the operation table, with the
operands the row needs. A host command carries its packet header and its parameter words (R67, R69). -/

namespace Sys2Proof

/-- The path by which a command arrived; its replies return on it (R75). `vc1` is the path from a lattice head (R33). -/
inductive Path where
  | vc0 | jtag | vc1
deriving DecidableEq, Repr

/-- Who performs a register access: a command path, an engine, a DMA channel or a bulk request (R2, R46). -/
inductive Port where
  | cmd (path : Path)
  | engine (e : Fin 16)
  | dma (ch : Fin 48)
  | bulk
deriving DecidableEq, Repr

/-- A command header without its opcode and LEN (Tables 3.1 and 3.2): the opcode is the row's, LEN follows from the
parameter words. `cg` is CG_VALID, `rr` REPLY_REQ, `bnd` BOUNDARY. -/
structure Hdr where
  tag : BitVec 8
  target : BitVec 16
  group : BitVec 4
  btable : BitVec 4
  bnd : BitVec 3
  cg : Bool
  rr : Bool
  bts : BitVec 48
  path : Path
deriving DecidableEq, Repr

/-- The record of a fault or an event (R34, R333). -/
structure Rec where
  cause : BitVec 16
  loc : BitVec 16
  detail : BitVec 16
  ts : BitVec 48
deriving DecidableEq, Repr

/-- A SAMPLE packet (Table 11.5) with its fields taken apart; `mants` holds I and Q of every sample in order. -/
structure SamplePkt where
  ctx : Fin 128
  ts : BitVec 48
  nblk : Nat
  comp : Fin 4
  codes : List Nat
  exps : List Nat
  mants : List (Int × Int)
deriving DecidableEq, Repr

/-- A CHORD packet (R287) with its fields taken apart; `tx` is the DIR bit, `desc` the code and exponent bytes. -/
structure ChordPkt where
  sender : Fin 8
  tx : Bool
  rate : Fin 8
  ts : BitVec 48
  nblk : Nat
  k : Nat
  desc : List (Nat × Nat)
  mants : List (Int × Int)
deriving DecidableEq, Repr

/-- Bulk word 1 of a request (Table 11.9) and the group it arrived on. -/
structure BulkReq where
  grp : Fin 3
  addr : Word
  xid : Byte
  ack : Bool
deriving DecidableEq, Repr

/-- A unit of calibration: a cell by its TARGET index, or the ORX of a block (Table 9.1). -/
inductive CalUnit where
  | cell (i : Fin 128)
  | orx (b : Fin 16)
deriving DecidableEq, Repr

/-- How a calibration step ended: with measured value words, with an over-range conversion, or with a value outside the
range of its correction stage (Table 9.3). -/
inductive StepResult where
  | passed (vals : List Word)
  | overRange
  | outOfRange
deriving DecidableEq, Repr

/-- What an ORX job measured: for a mismatch measurement its two result words (R126). -/
structure OrxResult where
  w0 : Word
  w1 : Word
deriving DecidableEq, Repr

/-- What a diversity correlator measured on its two branches (R124): normalised peaks in 1/256 and peak powers in
0.25 dB. -/
structure DivMeas where
  peak0 : Nat
  peak1 : Nat
  pow0 : Int
  pow1 : Int
deriving DecidableEq, Repr

/-- The REF frequency found (R43). -/
inductive RefSel where
  | f122 | f245 | f491
deriving DecidableEq, Repr

/-- Why a DMA beat failed (Table 13.2). -/
inductive BeatErr where
  | address | memory
deriving DecidableEq, Repr

/-- The length class of a PORn low pulse: below 0.8 µs, from 0.8 to 1 µs, 1 µs or more (R346). -/
inductive PornPulse where
  | short | between | full
deriving DecidableEq, Repr

/-- The commands and events of the block, one constructor a row of the operation table: the events and the accesses to
registers first, then the commands of the host by opcode. -/
inductive Instr where
  /-- At its boundary tick, an accepted group's staged values become live, the group becomes EMPTY and the final OK is sent. (R88) -/
  | application (g : Fin 272)
  /-- At the end of its active interval, or at START when its FE_PA rise was not granted, a burst sends its final reply. (R114) -/
  | burstEnd (cell : Fin 128)
  /-- When no suitable window has occurred 20 ms after a mismatch measurement was requested, the measurement ends with LATE. (R126) -/
  | mismatchTimeout (tag : BitVec 8)
  /-- At its start tick − 2,048, the swap in the SLOT moves to BOUND and its first entry is fetched. (R178) -/
  | swapBind (x : Fin 128)
  /-- At its start tick, the swap's schedule becomes LIVE and its fade begins. (R178) -/
  | swapStart (x : Fin 128)
  /-- At s_0 + FADE_LEN × P, BOUND empties and the swap sends its final OK. (R178) -/
  | fadeEnd (x : Fin 128)
  /-- At the boundary tick of a schedule point, that point's entry takes effect for the context. (R176) -/
  | schedulePointChange (x : Fin 128)
  /-- A class-1 weight-entry fetch, issued 2,048 ticks before its change tick, completes. (R174) -/
  | weightFetchDone (x : Fin 128)
  /-- A write of DPD_SWAP with REQ = 1 requests, or replaces, a pending bank swap. (R204) -/
  | dpdSwapRequest (p : Fin 64) (bank : Fin 2)
  /-- A write of DPD_SWAP with REQ = 0 cancels a pending swap. (R204) -/
  | dpdSwapCancel (p : Fin 64)
  /-- At the binding tick, a pending bank swap becomes bound and its bank is fetched as a class-2 request. (R205) -/
  | dpdBind (p : Fin 64)
  /-- At the slot boundary, PREV takes LIVE and LIVE takes the fetched bank, or the swap is dropped as late. (R205) -/
  | dpdBankSwap (p : Fin 64)
  /-- At the end of each 4,096-tick interval, the guard judges an eligible interval for EXPAND or CLIP. What it measures follows from
  the state: the second operand carries nothing. (R207) -/
  | guardJudgement (p : Fin 64) (_m : Unit)
  /-- 256 ticks after a tripped interval, the path falls back one store, enters the guard lock and drops swaps. (R208) -/
  | guardFallback (p : Fin 64)
  /-- A write of 1 to CCTL.GO checks the capture request in CREQ0 to CREQ2 and takes regions, or refuses the request. (R211) -/
  | cctlGo (b : Fin 16) (s : Fin 5)
  /-- At T0, set by its trigger, a capture starts sampling. (R212) -/
  | captureStart (b : Fin 16) (s : Fin 5)
  /-- A capture whose ORX job is not granted by T − 394, or that finds no window within 20 ms, ends with LATE and frees its regions. (R212) -/
  | captureLate (b : Fin 16) (s : Fin 5)
  /-- A capture completes within 128 ticks of its last tick; its regions read DONE and the block's event source fires. (R214) -/
  | captureDone (b : Fin 16) (s : Fin 5)
  /-- A write of 1 to a bit of CAP_REL frees a DONE region. (R214) -/
  | capRel (b : Fin 16) (mask : Byte)
  /-- The calibration engine places a due step at the earliest start tick that meets the gap conditions. (R223) -/
  | stepPlacement (q : Fin 4)
  /-- At S − 2,048, a step that uses the ORX requests its class-1 job. (R224) -/
  | calOrxRequest (u : CalUnit)
  /-- At S, a step whose ORX job was granted takes the cell; otherwise the step is not run and is placed again. (R13) -/
  | stepStart (u : CalUnit)
  /-- At the end of its declared duration, a step returns the cell to the data path. (R221) -/
  | stepEnd (u : CalUnit) (r : StepResult)
  /-- At the first path-block boundary at least 2,048 ticks after the last step, the run's values are stored. (R227) -/
  | calStore (q : Fin 4)
  /-- A run that has not stored its values TIMEOUT ms after acceptance ends with LATE. (R228) -/
  | calTimeout (q : Fin 4)
  /-- PERIOD ms after a unit's previous update of a kind ended, its next background update falls due. (R229) -/
  | backgroundUpdateDue (u : CalUnit) (kind : Fin 7)
  /-- An arriving command packet is checked in order and then dispatched or refused. (R70) -/
  | commandPacket (path : Path) (bytes : List Byte)
  /-- A write by command, engine or DMA to a register with no row of its own acts under each field's access code. (R2) -/
  | registerWrite (port : Port) (addr val : Word)
  /-- A write of 1 to TB_CTRL.ARM arms the timebase, is refused, or stops a running timebase. (R44) -/
  | arm (port : Port)
  /-- A read of TS_LO returns TIMESTAMP bits 31:0 and latches bits 47:32 for the reading port. (R46) -/
  | tsLoRead (port : Port)
  /-- A write of 1 to CTL.GO of an RFFE mailbox queues its job in the class named by TXN. (R121) -/
  | go (b : Fin 16) (s : Fin 5)
  /-- A write of START = 1 to an idle channel checks its configuration and enters PACED, RUN or HALTED. (R319) -/
  | dmaStart (ch : Fin 48)
  /-- A write of ABORT = 1 lets the beat in progress complete and returns the channel to IDLE. (R327) -/
  | dmaAbortBit (ch : Fin 48)
  /-- A write of RESUME = 1 to a halted channel clears its error and re-enters PACED or RUN. (R327) -/
  | resume (ch : Fin 48)
  /-- A write of PQ_ADD adds to LEVEL and may assert a pacing request. (R323) -/
  | pqAddWrite (u : Fin 5) (k : Fin 16) (v : BitVec 16)
  /-- A write of CU_INIT.INIT loads the algorithm's initial value into a check unit. (R294) -/
  | cuInit (k : Fin 4)
  /-- A write of CU_FEED feeds 4 bytes to a check unit. (R294) -/
  | cuFeed (k : Fin 4) (v : Word)
  /-- A write of CU_FEED8 feeds 1 byte to a check unit. (R294) -/
  | cuFeed8 (k : Fin 4) (v : Byte)
  /-- A write of CU_VAL restores a check unit's running value. (R294) -/
  | cuValRestore (k : Fin 4) (v : Word)
  /-- A write of EN_SET enables one event source. (R344) -/
  | enSet (s : BitVec 9)
  /-- A write of EN_CLR disables one event source. (R344) -/
  | enClr (s : BitVec 9)
  /-- A write of PEND_SET fires one source if it is not pending. (R344) -/
  | pendSet (s : BitVec 9)
  /-- A write of PEND_CLR empties the record queue of one source. (R344) -/
  | pendClr (s : BitVec 9)
  /-- A write of an EN word enables or disables 32 sources bit by bit. (R343) -/
  | enArrayWrite (w : Fin 16) (v : Word)
  /-- A write of a PEND word fires or empties 32 sources bit by bit. (R343) -/
  | pendArrayWrite (w : Fin 16) (v : Word)
  /-- A write of 0 to bits of an ACT word ends those sources' activity. (R343) -/
  | actArrayWrite (w : Fin 16) (v : Word)
  /-- A read of TGT_CLAIM by an engine target claims the best deliverable source or returns 0, 1022 or 1023. (R335) -/
  | tgtClaim (t : Fin 20)
  /-- A write of a source number to TGT_DONE completes that source's claim. (R336) -/
  | tgtDone (t : Fin 20) (s : BitVec 9)
  /-- A write of PS_REQ with OP 1 requests the sleep of a domain. (R350) -/
  | psReqSleep (d : BitVec 9)
  /-- A write of PS_REQ with OP 0 requests the wake of a domain. (R353) -/
  | psReqWake (d : BitVec 9)
  /-- A write of PL_MIN deeper than the present step moves the ladder there at once. (R360) -/
  | plMinWrite (v : BitVec 3)
  /-- Engine instruction: rd = rs1 + rs2, wrapping. (R303) -/
  | veAdd (e : Fin 16) (rd rs1 rs2 : Reg5)
  /-- Engine instruction: rd = rs1 − rs2, wrapping. (R303) -/
  | veSub (e : Fin 16) (rd rs1 rs2 : Reg5)
  /-- Engine instruction: bitwise AND. (R303) -/
  | veAnd (e : Fin 16) (rd rs1 rs2 : Reg5)
  /-- Engine instruction: bitwise OR. (R303) -/
  | veOr (e : Fin 16) (rd rs1 rs2 : Reg5)
  /-- Engine instruction: bitwise XOR. (R303) -/
  | veXor (e : Fin 16) (rd rs1 rs2 : Reg5)
  /-- Engine instruction: logical shift left by rs2. (R303) -/
  | veSll (e : Fin 16) (rd rs1 rs2 : Reg5)
  /-- Engine instruction: logical shift right by rs2. (R303) -/
  | veSrl (e : Fin 16) (rd rs1 rs2 : Reg5)
  /-- Engine instruction: arithmetic shift right by rs2. (R303) -/
  | veSra (e : Fin 16) (rd rs1 rs2 : Reg5)
  /-- Engine instruction: signed set-less-than. (R303) -/
  | veSlt (e : Fin 16) (rd rs1 rs2 : Reg5)
  /-- Engine instruction: unsigned set-less-than. (R303) -/
  | veSltu (e : Fin 16) (rd rs1 rs2 : Reg5)
  /-- Engine instruction: low 32 bits of the product. (R303) -/
  | veMul (e : Fin 16) (rd rs1 rs2 : Reg5)
  /-- Engine instruction: signed high 32 bits of the product. (R303) -/
  | veMulh (e : Fin 16) (rd rs1 rs2 : Reg5)
  /-- Engine instruction: rd = rs1 + imm. (R303) -/
  | veAddi (e : Fin 16) (rd rs1 : Reg5) (imm : BitVec 16)
  /-- Engine instruction: AND with a zero-extended immediate. (R303) -/
  | veAndi (e : Fin 16) (rd rs1 : Reg5) (imm : BitVec 16)
  /-- Engine instruction: OR with a zero-extended immediate. (R303) -/
  | veOri (e : Fin 16) (rd rs1 : Reg5) (imm : BitVec 16)
  /-- Engine instruction: XOR with a zero-extended immediate. (R303) -/
  | veXori (e : Fin 16) (rd rs1 : Reg5) (imm : BitVec 16)
  /-- Engine instruction: rd = imm << 16. (R303) -/
  | veLui (e : Fin 16) (rd : Reg5) (imm : BitVec 16)
  /-- Engine instruction: logical shift left by an immediate. (R303) -/
  | veSlli (e : Fin 16) (rd rs1 : Reg5) (sh : BitVec 5)
  /-- Engine instruction: logical shift right by an immediate. (R303) -/
  | veSrli (e : Fin 16) (rd rs1 : Reg5) (sh : BitVec 5)
  /-- Engine instruction: arithmetic shift right by an immediate. (R303) -/
  | veSrai (e : Fin 16) (rd rs1 : Reg5) (sh : BitVec 5)
  /-- Engine instruction: load a word through the cache or from a register. (R303) -/
  | veLw (e : Fin 16) (rd rs1 : Reg5) (imm : BitVec 16)
  /-- Engine instruction: load a sign-extended half-word. (R303) -/
  | veLh (e : Fin 16) (rd rs1 : Reg5) (imm : BitVec 16)
  /-- Engine instruction: load a zero-extended half-word. (R303) -/
  | veLhu (e : Fin 16) (rd rs1 : Reg5) (imm : BitVec 16)
  /-- Engine instruction: load a sign-extended byte. (R303) -/
  | veLb (e : Fin 16) (rd rs1 : Reg5) (imm : BitVec 16)
  /-- Engine instruction: load a zero-extended byte. (R303) -/
  | veLbu (e : Fin 16) (rd rs1 : Reg5) (imm : BitVec 16)
  /-- Engine instruction: store a word, to the write buffer or to a register. (R311) -/
  | veSw (e : Fin 16) (rs2 rs1 : Reg5) (imm : BitVec 16)
  /-- Engine instruction: store a half-word. (R304) -/
  | veSh (e : Fin 16) (rs2 rs1 : Reg5) (imm : BitVec 16)
  /-- Engine instruction: store a byte. (R304) -/
  | veSb (e : Fin 16) (rs2 rs1 : Reg5) (imm : BitVec 16)
  /-- Engine instruction: branch if equal. (R303) -/
  | veBeq (e : Fin 16) (rs2 rs1 : Reg5) (imm : BitVec 16)
  /-- Engine instruction: branch if not equal. (R303) -/
  | veBne (e : Fin 16) (rs2 rs1 : Reg5) (imm : BitVec 16)
  /-- Engine instruction: branch if less, signed. (R303) -/
  | veBlt (e : Fin 16) (rs2 rs1 : Reg5) (imm : BitVec 16)
  /-- Engine instruction: branch if greater or equal, signed. (R303) -/
  | veBge (e : Fin 16) (rs2 rs1 : Reg5) (imm : BitVec 16)
  /-- Engine instruction: branch if less, unsigned. (R303) -/
  | veBltu (e : Fin 16) (rs2 rs1 : Reg5) (imm : BitVec 16)
  /-- Engine instruction: branch if greater or equal, unsigned. (R303) -/
  | veBgeu (e : Fin 16) (rs2 rs1 : Reg5) (imm : BitVec 16)
  /-- Engine instruction: jump and link into s31. (R303) -/
  | veJal (e : Fin 16) (imm : BitVec 26)
  /-- Engine instruction: jump to rs1 + imm and link into rd. (R303) -/
  | veJalr (e : Fin 16) (rd rs1 : Reg5) (imm : BitVec 16)
  /-- Engine instruction: load a 64-byte vector. (R303) -/
  | veVld (e : Fin 16) (vd : VReg) (rs1 : Reg5) (imm : BitVec 16)
  /-- Engine instruction: store a 64-byte vector. (R303) -/
  | veVst (e : Fin 16) (vs : VReg) (rs1 : Reg5) (imm : BitVec 16)
  /-- Engine instruction: per-lane saturating complex add. (R303) -/
  | veVadd (e : Fin 16) (vd vs1 vs2 : VReg)
  /-- Engine instruction: per-lane saturating complex subtract. (R303) -/
  | veVsub (e : Fin 16) (vd vs1 vs2 : VReg)
  /-- Engine instruction: per-lane complex multiply, shifted and saturated. (R303) -/
  | veVmul (e : Fin 16) (vd vs1 vs2 : VReg) (sh : BitVec 5)
  /-- Engine instruction: per-lane multiply by the conjugate. (R303) -/
  | veVmulc (e : Fin 16) (vd vs1 vs2 : VReg) (sh : BitVec 5)
  /-- Engine instruction: per-lane squared magnitude. (R303) -/
  | veVmag2 (e : Fin 16) (vd vs1 : VReg) (sh : BitVec 5)
  /-- Engine instruction: per-lane rounding right shift. (R303) -/
  | veVshr (e : Fin 16) (vd vs1 : VReg) (sh : BitVec 5)
  /-- Engine instruction: per-lane saturating left shift. (R303) -/
  | veVshl (e : Fin 16) (vd vs1 : VReg) (sh : BitVec 5)
  /-- Engine instruction: per-lane conjugate. (R303) -/
  | veVconj (e : Fin 16) (vd vs1 : VReg)
  /-- Engine instruction: copy a scalar into every lane. (R303) -/
  | veVsplat (e : Fin 16) (v : VReg) (rs : Reg5)
  /-- Engine instruction: read one lane into a scalar. (R303) -/
  | veVget (e : Fin 16) (rd : Reg5) (v : VReg) (lane : BitVec 4)
  /-- Engine instruction: write one lane from a scalar. (R303) -/
  | veVput (e : Fin 16) (rs : Reg5) (v : VReg) (lane : BitVec 4)
  /-- Engine instruction: read the I part of an accumulator, shifted. (R303) -/
  | veAgeti (e : Fin 16) (rd : Reg5) (a : Fin 2) (sh : BitVec 5)
  /-- Engine instruction: read the Q part of an accumulator, shifted. (R303) -/
  | veAgetq (e : Fin 16) (rd : Reg5) (a : Fin 2) (sh : BitVec 5)
  /-- Engine instruction: accumulate the dot product of two vectors. (R303) -/
  | veVdot (e : Fin 16) (a : Fin 2) (vs1 vs2 : VReg)
  /-- Engine instruction: accumulate the conjugate dot product. (R303) -/
  | veVdotc (e : Fin 16) (a : Fin 2) (vs1 vs2 : VReg)
  /-- Engine instruction: clear an accumulator. (R303) -/
  | veAclr (e : Fin 16) (a : Fin 2)
  /-- Engine instruction NOP does nothing. (R303) -/
  | veNop (e : Fin 16)
  /-- Engine instruction: waits until earlier write-buffer entries and register stores have acted. (R306) -/
  | veFenceW (e : Fin 16)
  /-- Engine instruction: invalidates one data-cache line or the whole cache. (R307) -/
  | veCinv (e : Fin 16) (rs1 : Reg5)
  /-- Engine instruction: clears EVL and completes, or waits for an event. (R308) -/
  | veWfe (e : Fin 16)
  /-- Engine instruction: drains the write buffer and requests the sleep of the engine's power domain. (R309) -/
  | veSleep (e : Fin 16)
  /-- Engine instruction: drains the write buffer and enters HALTED. (R303) -/
  | veHalt (e : Fin 16)
  /-- The oldest write-buffer entry is written into shared memory as one request. (R311) -/
  | writeBufferDrain (e : Fin 16)
  /-- A WAITING engine continues when EVL is set or its request line rises. (R308) -/
  | engineWake (e : Fin 16)
  /-- 20 µs after REF and the chip's IDLE state are both present, REF_SEL is set and the timebase moves from NO_REF to IDLE. (R43) -/
  | refDetected (sel : RefSel)
  /-- In ARMED, the first FRAME edge sampled by REF reads FRAME_NEXT and schedules tick 0. (R44) -/
  | armingEdge
  /-- 64 ticks after the arming edge, tick 0 of frame FRAME_NEXT begins and the timebase enters RUN. (R44) -/
  | timebaseRun
  /-- A FRAME edge sampled in RUN sets FRAME_OK when it falls at tick 0 and is otherwise ignored. (R45) -/
  | frameEdge
  /-- At each frame start the timebase updates FRAME_OK and raises SYNC_OUT, and the head sends a frame marker. (R45) -/
  | frameStart
  /-- 64 ticks after tick 0, SYNC_OUT goes low. (R66) -/
  | syncOutLow
  /-- Every 1 µs the slack of each fabric is measured and reported. (R59) -/
  | slackMeasurement (f : Fin 5) (v : Byte)
  /-- Every 1 µs the power manager raises or lowers each awake fabric's voltage by 5 mV. (R354) -/
  | fabricVoltageStep
  /-- A waiting synthesiser operation is granted the shared band-calibration engine or phase port when it becomes free. (R24) -/
  | synthOpGrant (q : Fin 4)
  /-- 20 µs after BANDCAL began, the synthesiser enters SETTLE. (R101) -/
  | bandcalEnd (n : Fin 8)
  /-- In SETTLE, the lock detector asserts and the synthesiser enters PHASE and queues its phase measurement. (R101) -/
  | lock (n : Fin 8)
  /-- 60 µs after BANDCAL began without lock, the relock fails: LOCK_LOST is reported, or the synthesiser enters UNLOCKED. (R102) -/
  | relockFail (n : Fin 8)
  /-- Loss of lock in PHASE or READY marks blocks, darkens TX and queues a class-1 recovery relock. (R103) -/
  | lockLost (n : Fin 8)
  /-- A 2.0 µs LO phase measurement ends with a correction to apply. (R105) -/
  | phaseMeasurementEnd (n : Fin 8)
  /-- At the next path-block boundary after a phase measurement, the correction is applied, the synthesiser enters READY and LO_READY fires. (R105) -/
  | loReady (n : Fin 8)
  /-- Every 1 ms while READY, a class-3 phase measurement is queued for tracking. (R107) -/
  | trackingMeasurement (n : Fin 8)
  /-- At each path-block boundary, the correction moves toward the measured value by at most 0.5°. (R107) -/
  | trackingStep (n : Fin 8)
  /-- At START − PA_LEAD − TR_LEAD, a TX cell enters PREP and drives FE_TR to TX level. (R111) -/
  | prep (p : Fin 64)
  /-- At START − PA_LEAD, the TX cell enters QUEUED and its FE_PA rise joins the chip-wide queue if its LO is READY. (R116) -/
  | queued (p : Fin 64)
  /-- A queued rise is granted within the step budget; FE_PA rises and the cell enters ON. (R116) -/
  | fePaRise
  /-- A TX window not granted, or with its LO not READY, by START enters DARK. (R115) -/
  | dark (p : Fin 64)
  /-- At START + LEN + PA_LAG, FE_PA falls and the TX cell enters TAIL. (R111) -/
  | tail (p : Fin 64)
  /-- TR_LAG after FE_PA falls, the TX cell returns FE_TR to RX level and enters GAP. (R111) -/
  | gap (p : Fin 64)
  /-- At the start of an RX active interval, the ADC pair leaves OFF and enters STARTING. (R130) -/
  | rxActiveStart (p : Fin 64)
  /-- 3,933 ticks after entering STARTING, the ADC pair enters RUN. (R129) -/
  | adcRun (p : Fin 64)
  /-- At START, the RX cell enters ON and delivery of carrier samples begins. (R130) -/
  | rxWindowStart (p : Fin 64)
  /-- At the end of an RX window, the cell enters GAP and the ADC pair powers down unless another interval follows within 1 µs. (R130) -/
  | rxWindowEnd (p : Fin 64)
  /-- At the first of the TX active interval start and START − 1,024, the DAC pair enters STARTING. (R140) -/
  | dacPowerUp (p : Fin 64)
  /-- 787 ticks after power-up, the DAC pair's start-up ends. (R140) -/
  | dacStarted (p : Fin 64)
  /-- At the end of the TX active interval, the DAC pair returns to OFF or stays in MIDSCALE. (R140) -/
  | dacPowerDown (p : Fin 64)
  /-- An over-range conversion saturates, marks blocks and is reported once per window. (R137) -/
  | adcOvr (p : Fin 64)
  /-- 24 conversions after the last over-range conversion, the cell is clean again and OVR clears. (R134) -/
  | ovrRecoveryEnd (p : Fin 64)
  /-- 8 ticks after the input returns, the neighbours are clean again and NBR clears. (R135) -/
  | nbrRecoveryEnd (p : Fin 64)
  /-- 19,661 ticks after EN = 1, the ORX enters IDLE. (R144) -/
  | orxStarted (b : Fin 16)
  /-- A class-2 or class-3 block request that has waited 2 ms is raised one class. (R18) -/
  | blockRequestRaised (b : Fin 16)
  /-- The block arbiter grants a whole ORX job, which begins with its input switch. (R16) -/
  | orxJobGrant (b : Fin 16)
  /-- An ORX job completes and is returned to its requester, flagged if over-range. (R145) -/
  | orxJobEnd (b : Fin 16) (r : OrxResult)
  /-- The block arbiter grants one RFFE transaction. (R16) -/
  | rffeJobGrant (b : Fin 16)
  /-- An RFFE transaction ends and its mailbox RESULT is set. (R120) -/
  | rffeJobEnd (b : Fin 16) (parityOk : Bool) (data : List Byte)
  /-- At its trigger tick, an enabled timed entry issues its write as a class-2 job. (R122) -/
  | timedEntryTrigger (b : Fin 16) (n : Fin 16)
  /-- After the search, the pair's correlator keeps or changes the chosen branch. (R124) -/
  | diversityDecision (k : Fin 32) (m : DivMeas)
  /-- A transmit SAMPLE packet is checked against its arrival window and stored, or discarded. (R52) -/
  | txSamplePacket (pkt : SamplePkt)
  /-- At T − TX_LEAD, a stored transmit sample leaves the ingress store for the beam engine, or the head forwards it down the chord. (R51) -/
  | ingressRelease (x : Fin 128)
  /-- 48 ticks before T, the gate passes the path sample, or 0 + j0 when none is held, into the TXCLK domain. (R49) -/
  | releaseGate (p : Fin 64)
  /-- When the last block of its interval is complete, a receive context's packet enters egress. (R282) -/
  | rxSamplePacketEgress (x : Fin 128)
  /-- A CHORD packet arrives and its partial sums or samples are used, or it is discarded on a K mismatch. (R288) -/
  | chordPacket (down : Bool) (pkt : ChordPkt)
  /-- A partial sum not arrived by its deadline is replaced by 0 and marked 0b11. (R185) -/
  | partialSumMissing (x : Fin 128)
  /-- The head polls each member in turn over VC1, with a full round every 50 µs. (R33) -/
  | poll
  /-- The head receives a member's STATUS and checks its frame number and offset. (R65) -/
  | memberStatus (k : Fin 8) (word : BitVec 64)
  /-- A member receives a frame marker, adds its HOP_LAT, passes it on and computes its offset. (R65) -/
  | frameMark (frame : BitVec 23) (latSum : BitVec 16)
  /-- After 200 ns below or above the threshold, a lane's LOS sets or clears. (R250) -/
  | los (n : Fin 16) (on : Bool)
  /-- A lane gains block lock after 64 valid headers, or loses it after 16 invalid headers in 64. (R250) -/
  | blockLock (n : Fin 16) (on : Bool)
  /-- A lane gains comma lock after 4 good commas, or loses it after 3 missing ones. (R250) -/
  | commaLock (n : Fin 16) (on : Bool)
  /-- A good comma is received and its RXOK, TXMASK, CTRL and SEQ are taken. (R248) -/
  | comma (n : Fin 16) (payload : BitVec 64)
  /-- A lane that has stayed ready for 1 ms in RUN enters RXOK. (R252) -/
  | rxokAdd (n : Fin 16)
  /-- At the second superblock boundary after a comma with a differing RXOK, TXMASK changes and capacity is tested. (R259) -/
  | txmaskChange (g : Fin 3)
  /-- A partner RXOK with no lane of LANES sends the group back to TRAIN at the second boundary. (R260) -/
  | emptyRxok (g : Fin 3)
  /-- A ready lane in RUN loses readiness; RXOK drops it and the loss is reported. (R258) -/
  | laneLost (n : Fin 16)
  /-- The loss of the last ready lane sends a group to LISTEN with one report. (R266) -/
  | groupLost (g : Fin 3)
  /-- In LISTEN, an attempt starts after 100 ms, or 4 ms after an LOS clears. (R255) -/
  | trainingAttempt (g : Fin 3)
  /-- At a SEQ 0 boundary with both ends ready, the group enters RUN. (R254) -/
  | linkUp (g : Fin 3)
  /-- 2 ms after entering TRAIN, the group enters RUN on the lanes ready at both ends, or LISTEN. (R254) -/
  | trainingTimeout (g : Fin 3)
  /-- At the first boundary after a RATE commit's reply has left, the group enters RATE and sends announcements. (R256) -/
  | rateAnnouncement (g : Fin 3)
  /-- After 16 announcement superblocks and 2 µs idle, the group enters TRAIN at the new rate. (R256) -/
  | rateIdleEnd (g : Fin 3)
  /-- An added lane trains alone while the others carry on. (R256) -/
  | laneAddTraining (n : Fin 16)
  /-- On receiving SLEEP, a lane's receiver powers down except CTLE, DFE and LOS. (R265) -/
  | partnerSleep (n : Fin 16)
  /-- A lane not ready within 100 µs of LOS clearing after a partner sleep falls under R252. (R265) -/
  | partnerRelockTimeout (n : Fin 16)
  /-- A received packet is framed, checked and accepted, or discarded. (R274) -/
  | packetReceived (g : Fin 3) (words : List (BitVec 64))
  /-- A receiver loses framing and discards up to the next good pointer word. (R271) -/
  | framingLoss (g : Fin 3)
  /-- A bulk write request is checked, stored and written to memory. (R291) -/
  | bulkWr (r : BulkReq) (data : List Word)
  /-- A bulk read request is checked and answered with BULK_DATA. (R291) -/
  | bulkRd (r : BulkReq) (n : BitVec 13)
  /-- An Update-DR of SVC with 0b00 does nothing. (R97) -/
  | svcNone
  /-- An Update-DR of SVC with 0b01 appends a word to the inbound packet, or discards it. (R98) -/
  | put (w : Word)
  /-- An Update-DR of SVC with 0b10 removes the captured head word of the outbound queue. (R97) -/
  | svcGet
  /-- An Update-DR of SVC with 0b11 discards any partial inbound packet. (R97) -/
  | flush
  /-- Within 1 µs of completion, the sequencer takes the inbound JTAG packet and IN_READY returns to 1. (R98) -/
  | svcPacketTaken
  /-- JTAG instruction 0x00 selects the boundary register and drives the pins from it. (R383) -/
  | extest
  /-- JTAG instruction 0x01 selects the boundary register for sampling and preloading. (R383) -/
  | samplePreload
  /-- JTAG instruction 0x02 selects the identification register. (R383) -/
  | idcode
  /-- JTAG instruction 0x03 floats the pins and selects bypass. (R383) -/
  | highz
  /-- JTAG instruction 0x04 drives the pins from the boundary register and selects bypass. (R383) -/
  | clamp
  /-- JTAG instruction 0x05, IEEE 1149.6 test on the lanes. (R383) -/
  | extestPulse
  /-- JTAG instruction 0x06, IEEE 1149.6 test on the lanes. (R383) -/
  | extestTrain
  /-- JTAG instruction 0x21 selects the 34-bit service data register. (R97) -/
  | svc
  /-- JTAG instruction 0xFF, or any unlisted code, selects bypass. (R383) -/
  | bypass (code : Byte)
  /-- An assertion of TRSTn resets the TAP asynchronously, selecting IDCODE. (R383) -/
  | trstn
  /-- An event source fires and appends its record, or is discarded and sets LOST. (R333) -/
  | sourceFiring (s : BitVec 9) (r : Rec)
  /-- At a rising edge of its line, a host channel claims a source and sends an EVENT packet, or defers until room exists. (R338) -/
  | hostChannelClaim (c : Fin 4)
  /-- A running channel whose request is asserted issues a burst of beats. (R323) -/
  | dmaBurst (ch : Fin 48)
  /-- A beat completes, advancing the addresses and COUNT, decreasing LEVEL and feeding a bound check unit. (R322) -/
  | dmaBeatComplete (ch : Fin 48)
  /-- A failed beat is retried or halts the channel. (R326) -/
  | dmaBeatFail (ch : Fin 48) (write : Bool) (err : BeatErr)
  /-- A link-destination channel stalled for VC7 egress room resumes when room appears. (R328) -/
  | dmaStallResume (ch : Fin 48)
  /-- The power manager grants the next waiting sleep or wake transition the mutex. (R29) -/
  | powerTransitionGrant
  /-- A sleep or wake transition ends after its transition time and frees the mutex. (R350) -/
  | powerTransitionEnd
  /-- WAKE_GAP µs after a wake, the next wake may be granted. (R352) -/
  | wakeGapEnd
  /-- Every 200 µs the round converts its next channel and replaces its reading. (R355) -/
  | housekeepingConversion (reading : Int)
  /-- At the end of each 8 ms round, sensors, governing temperature and ladder are evaluated and source 177 fires. (R355) -/
  | hkRound
  /-- A ladder step change takes the mutex, applies all its caps at once, sheds or restores streams and fires source 176. (R361) -/
  | throttle
  /-- A comparator at 135 °C for 10 µs starts the shutdown and drives FE_PA inactive. (R363) -/
  | thermalTrip
  /-- 200 ns after the trip, every FE_TR goes to its RX level. (R363) -/
  | shutdownTr
  /-- 1 µs after the trip, the regulators switch off and the CX6464 is in SHUTDOWN. (R363) -/
  | shutdownDown
  /-- After all comparators read below 100 °C for 1 s, the CX6464 enters the boot state. (R364) -/
  | thermalRestart
  /-- A PORn low pulse of 1 µs or more puts the CX6464 into the boot state. (R346) -/
  | pornAssert (pulse : PornPulse)
  /-- When PORn rises, the boot state machine reads the comparators and starts the boot sequence or enters SHUTDOWN. (R347) -/
  | pornRelease (hot : Bool)
  /-- 1 ms after PORn rises, the fabrics stand at 0.72 V and memory clearing begins. (R347) -/
  | fabricsUp
  /-- When boot completes, CHIP reads IDLE, commands are accepted and source 1 fires. (R347) -/
  | restart
  /-- At T − 2,048 ticks, the ORX job of a triggered capture enters its block queue. (R212) -/
  | captureJobQueued (b : Fin 16) (s : Fin 5)
  /-- 2,048 ticks before a schedule point's change tick, the slice issues the class-1 fetch of the new entry. (R174) -/
  | weightFetchIssue (x : Fin 128)
  /-- The class-2 fetch of a bound coefficient bank completes and the bank is validated, becoming LIVE at once outside RUN. (R205) -/
  | bankFetchDone (p : Fin 64)
  /-- A packet finishes leaving the lanes and the egress arbiter chooses the next packet by virtual-channel priority. (R26) -/
  | packetTransmitted (g : Fin 3)
  /-- At the next superblock boundary after a commit removes a lane from LANES, that lane leaves TXMASK and powers down. (R256) -/
  | removedLane (n : Fin 16)
  /-- Every 10 µs in RUN, each receive lane's CTLE and DFE adapt by at most one code per tap. (R251) -/
  | equaliserAdapt (n : Fin 16)
  /-- An engine executes a word whose op, func or must-be-zero field is not as Table 12.4 gives, and enters FAULTED with cause 0x1. (R302) -/
  | illegalInstruction (e : Fin 16) (w : Word)
  /-- An engine fetches at or beyond 0xF001_0000 and enters FAULTED with cause 0x7. (R305) -/
  | fetchFault (e : Fin 16)
  /-- The second pass of ENG.LOAD ends, PC takes ENTRY and the final OK is sent. (R315) -/
  | engLoadDone (e : Fin 16)
  /-- MEM.FILL finishes writing its range and sends its final OK. (R317) -/
  | memFillDone (tag : BitVec 8)
  /-- At the first path-block boundary after acceptance, the store is snapshot; the image is written with CHECK last and OK is sent. (R236) -/
  | calExportDone (q : Fin 4)
  /-- At the first path-block boundary after the checks, the accepted image replaces the quadrant's calibration store. (R238) -/
  | calImportApply (q : Fin 4)
  /-- At the next path-block boundary, CAL.CLEAR drops every point of the named kinds. (R241) -/
  | calClearApply (q : Fin 4)
  /-- An RX carrier block of 16 samples is complete with its validity code; CARR_STAT and the stream blocks of the contexts that use it are updated. (R162) -/
  | carrierBlockComplete (cell : Fin 128) (c : Fin 8)
  /-- Command 0x0000 does nothing and replies OK. (R81) -/
  | nop (h : Hdr) (ps : List Word)
  /-- Command 0x0001 returns words 0x0000 to 0x000C of the identity window. (R85) -/
  | idGet (h : Hdr) (ps : List Word)
  /-- Command 0x0002 returns whole capability entries from a given offset together with the offset of the next entry. (R95) -/
  | capWalk (h : Hdr) (ps : List Word)
  /-- Command 0x0003 ends a queued, HELD or far-accepted command with ABORTED, or returns PRECONDITION. (R83) -/
  | tagAbort (h : Hdr) (ps : List Word)
  /-- Command 0x0100 checks an address range and returns N words from it. (R83) -/
  | regRead (h : Hdr) (ps : List Word)
  /-- Command 0x0101 checks an address range and writes N words under each field's access code, staging ST fields. (R83) -/
  | regWrite (h : Hdr) (ps : List Word)
  /-- Command 0x0102 reads a word, writes (old AND NOT mask) OR (value AND mask) and returns the old word. (R82) -/
  | regModify (h : Hdr) (ps : List Word)
  /-- Command 0x0200 returns N words in which each ST field shows its staged copy. (R3) -/
  | stageRead (h : Hdr) (ps : List Word)
  /-- Command 0x0201 fixes a group's boundary, evaluates its agreement rules on the projected state and accepts the group or refuses it. (R88) -/
  | commit (h : Hdr) (ps : List Word)
  /-- Command 0x0202 restores the staged copies of an OPEN group to their live values and empties the group. (R87) -/
  | discard (h : Hdr) (ps : List Word)
  /-- Command 0x0300 stages the FREQ and EN of a synthesiser; at the boundary this starts a relock or mutes the output. (R102) -/
  | synSet (h : Hdr) (ps : List Word)
  /-- Command 0x0301 returns SYN_STAT and SYN_PHASE. (R127) -/
  | synGet (h : Hdr) (ps : List Word)
  /-- Command 0x0302 stages LO_SEL of a cell; at the boundary the LO and its correction switch. (R108) -/
  | cellLo (h : Hdr) (ps : List Word)
  /-- Command 0x0303 stages a cell's window table, PERIOD and COUNT. (R109) -/
  | winSet (h : Hdr) (ps : List Word)
  /-- Command 0x0304 checks a one-shot window and accepts it as a pending burst or refuses it. (R114) -/
  | winBurst (h : Hdr) (ps : List Word)
  /-- Command 0x0310 queues an RFFE transaction in mailbox slot 0 and replies when the transaction ends. (R121) -/
  | rffeXfer (h : Hdr) (ps : List Word)
  /-- Command 0x0311 stages RFFE timed entries. (R122) -/
  | rffeTimed (h : Hdr) (ps : List Word)
  /-- Command 0x0320 stages DIV_CTRL and DIV_DET of a diversity pair. (R123) -/
  | divSet (h : Hdr) (ps : List Word)
  /-- Command 0x0321 stages the correlation sequence bytes of a diversity pair. (R124) -/
  | divSeq (h : Hdr) (ps : List Word)
  /-- Command 0x0330 queues a class-2 forward and reverse ORX job on a TX window and returns the powers and GAMMA. (R126) -/
  | mismatchMeas (h : Hdr) (ps : List Word)
  /-- Command 0x0400 stages KEEP of an RX cell. (R131) -/
  | adcSet (h : Hdr) (ps : List Word)
  /-- Command 0x0401 stages the DAC full-scale setting FS. (R139) -/
  | dacSet (h : Hdr) (ps : List Word)
  /-- Command 0x0402 returns the converter status and the live converter configuration. (R146) -/
  | convGet (h : Hdr) (ps : List Word)
  /-- Command 0x0410 stages EN and ORX_ATT of an ORX. (R144) -/
  | orxSet (h : Hdr) (ps : List Word)
  /-- Command 0x0411 returns ORX_STAT and the live ORX_CTRL and ORX_ATT. (R146) -/
  | orxGet (h : Hdr) (ps : List Word)
  /-- Command 0x0500 stages CHAIN_CFG of a cell. (R168) -/
  | chainSet (h : Hdr) (ps : List Word)
  /-- Command 0x0501 stages the configuration, bridge, NCO, phase and gain of a carrier. (R168) -/
  | carrSet (h : Hdr) (ps : List Word)
  /-- Command 0x0502 stages GAIN for the carriers of a mask. (R168) -/
  | carrGain (h : Hdr) (ps : List Word)
  /-- Command 0x0503 stages a synchronising-reset mask. (R165) -/
  | chainSync (h : Hdr) (ps : List Word)
  /-- Command 0x0504 returns the live chain and carrier fields and CARR_STAT. (R168) -/
  | chainGet (h : Hdr) (ps : List Word)
  /-- Command 0x0600 stages a stream context's configuration and masks. (R169) -/
  | ctxSet (h : Hdr) (ps : List Word)
  /-- Command 0x0601 returns a context's live configuration and status. (R190) -/
  | ctxGet (h : Hdr) (ps : List Word)
  /-- Command 0x0602 fixes a swap's boundary and places the swap in the context's SLOT, replacing or being held as R179 and R180 state. (R177) -/
  | beamSwap (h : Hdr) (ps : List Word)
  /-- Command 0x0610 writes weight-table entries into quadrant memory. (R173) -/
  | wtWrite (h : Hdr) (ps : List Word)
  /-- Command 0x0611 returns weight-table entries. (R190) -/
  | wtRead (h : Hdr) (ps : List Word)
  /-- Command 0x0700 stages PATH_CFG, CFR_CFG, DPD_CFG and DPD_GRD. (R218) -/
  | ppSet (h : Hdr) (ps : List Word)
  /-- Command 0x0701 stages a CFR pulse table. (R195) -/
  | cfrPulse (h : Hdr) (ps : List Word)
  /-- Command 0x0710 requests a coefficient-bank swap at the next usable slot boundary. (R204) -/
  | dpdSwap (h : Hdr) (ps : List Word)
  /-- Command 0x0711 ends the guard lock and clears GKIND and BANKERR. (R209) -/
  | dpdClear (h : Hdr) (ps : List Word)
  /-- Command 0x0712 returns the path-processing fields and status. (R218) -/
  | ppGet (h : Hdr) (ps : List Word)
  /-- Command 0x0720 takes capture slot 0 of the block and replies with the slot's outcome. (R211) -/
  | orxCapture (h : Hdr) (ps : List Word)
  /-- Command 0x0721 frees the DONE capture regions of a mask. (R214) -/
  | capRelease (h : Hdr) (ps : List Word)
  /-- Command 0x0800 stages CAL_CTRL and CAL_BGPER. (R241) -/
  | calCfg (h : Hdr) (ps : List Word)
  /-- Command 0x0801 stages the calibration class bits of a cell's carriers. (R222) -/
  | calClass (h : Hdr) (ps : List Word)
  /-- Command 0x0802 checks and starts a calibration run on request. (R225) -/
  | calRun (h : Hdr) (ps : List Word)
  /-- Command 0x0803 ends the quadrant's run with ABORTED. (R228) -/
  | calStop (h : Hdr) (ps : List Word)
  /-- Command 0x0804 drops every point of the named kinds at the next path-block boundary. (R241) -/
  | calClear (h : Hdr) (ps : List Word)
  /-- Command 0x0805 returns the calibration status, the update in progress, the match bits and the point counts. (R241) -/
  | calGet (h : Hdr) (ps : List Word)
  /-- Command 0x0810 writes a snapshot of the quadrant's calibration store as an image. (R236) -/
  | calExport (h : Hdr) (ps : List Word)
  /-- Command 0x0811 checks an image and replaces the quadrant's calibration store with it. (R238) -/
  | calImport (h : Hdr) (ps : List Word)
  /-- Command 0x0900 stages LG_CFG of a lane group. (R268) -/
  | linkCfg (h : Hdr) (ps : List Word)
  /-- Command 0x0901 returns a group's configuration and status. (R268) -/
  | linkGet (h : Hdr) (ps : List Word)
  /-- Command 0x0902 retrains a group and replies at its next entry into RUN, or with LINK. (R268) -/
  | linkRetrain (h : Hdr) (ps : List Word)
  /-- Command 0x0910 stages the polarity and de-emphasis of a lane. (R268) -/
  | laneCfg (h : Hdr) (ps : List Word)
  /-- Command 0x0911 returns a lane's control, status and DFE taps. (R268) -/
  | laneGet (h : Hdr) (ps : List Word)
  /-- Command 0x0A00 checks an engine image and copies its segments into a halted engine. (R315) -/
  | engLoad (h : Hdr) (ps : List Word)
  /-- Command 0x0A01 clears the fault and event latch, invalidates the cache and starts the engine. (R317) -/
  | engStart (h : Hdr) (ps : List Word)
  /-- Command 0x0A02 stops the engine after draining its write buffer. (R317) -/
  | engHalt (h : Hdr) (ps : List Word)
  /-- Command 0x0A03 sets the engine's event latch EVL. (R317) -/
  | engKick (h : Hdr) (ps : List Word)
  /-- Command 0x0A04 returns the engine's status, PC and fault registers. (R317) -/
  | engGet (h : Hdr) (ps : List Word)
  /-- Command 0x0A10 writes one word value across a shared-memory range. (R317) -/
  | memFill (h : Hdr) (ps : List Word)
  /-- Command 0x0B00 writes the registers of an idle DMA channel. (R330) -/
  | dmaSet (h : Hdr) (ps : List Word)
  /-- Command 0x0B01 starts a channel as START does, and with WAIT 1 replies at its end. (R330) -/
  | dmaRun (h : Hdr) (ps : List Word)
  /-- Command 0x0B02 resumes a halted channel. (R330) -/
  | dmaResume (h : Hdr) (ps : List Word)
  /-- Command 0x0B03 aborts a channel. (R330) -/
  | dmaAbort (h : Hdr) (ps : List Word)
  /-- Command 0x0B04 returns a channel's registers. (R330) -/
  | dmaGet (h : Hdr) (ps : List Word)
  /-- Command 0x0B10 adds a value to a pacing queue and returns the new LEVEL. (R330) -/
  | pqAdd (h : Hdr) (ps : List Word)
  /-- Command 0x0C00 stages SRC_CFG of an event source. (R345) -/
  | evtSrc (h : Hdr) (ps : List Word)
  /-- Command 0x0C01 stages THRESH of an event target. (R345) -/
  | evtThresh (h : Hdr) (ps : List Word)
  /-- Command 0x0C02 performs EN_SET, EN_CLR, PEND_SET or PEND_CLR on one source. (R345) -/
  | evtArray (h : Hdr) (ps : List Word)
  /-- Command 0x0C03 completes a source claimed by a target. (R336) -/
  | evtComplete (h : Hdr) (ps : List Word)
  /-- Command 0x0C04 returns a source's configuration, array bits and queue state. (R345) -/
  | evtGet (h : Hdr) (ps : List Word)
  /-- Command 0x0D00 checks the precondition of a domain and queues its sleep transition. (R350) -/
  | pwrSleep (h : Hdr) (ps : List Word)
  /-- Command 0x0D01 queues a wake transition or withdraws a waiting sleep. (R353) -/
  | pwrWake (h : Hdr) (ps : List Word)
  /-- Command 0x0D02 stages SETPOINT and WAKE_GAP. (R365) -/
  | pmCfg (h : Hdr) (ps : List Word)
  /-- Command 0x0D03 stages one step of the power-limit ladder. (R365) -/
  | plSet (h : Hdr) (ps : List Word)
  /-- Command 0x0D04 sets the shallowest allowed ladder step at once. (R360) -/
  | plMin (h : Hdr) (ps : List Word)
  /-- Command 0x0D05 stages the limits of an AUXMON channel. (R365) -/
  | auxLim (h : Hdr) (ps : List Word)
  /-- Command 0x0D06 returns PWR_STAT and the state of the target's domain. (R365) -/
  | pwrGet (h : Hdr) (ps : List Word)
  /-- Command 0x0D07 returns the housekeeping readings and governor state. (R365) -/
  | hkGet (h : Hdr) (ps : List Word)
  /-- Command 0x0E00 stages LAT_CFG; its commit moves the lane-group registers. (R368) -/
  | latSet (h : Hdr) (ps : List Word)
  /-- Command 0x0E01 returns LAT_CFG, CHORD_STAT and TB_ALIGN. (R372) -/
  | latGet (h : Hdr) (ps : List Word)
  /-- Command 0x0E02 returns the latest STATUS word of each member and its SILENT bit. (R372) -/
  | latMembers (h : Hdr) (ps : List Word)
  /-- Command 0x0E03 checks every chip, writes FRAME_NEXT and arms the members, then the head. (R372) -/
  | latArm (h : Hdr) (ps : List Word)
deriving DecidableEq, Repr

end Sys2Proof
end

