-- ==== Sys2Proof/Decode.lean ====
section
/-! DEFINITION. The words that the operation table spells. -/

namespace Sys2Proof

/-- The command that a word spells by the table's bits. No row of the operation table gives bits: commands reach the block
as packets, accesses and events, whose layouts the packet layer and the engines read themselves. -/
def decodeTableWord (_nbits _w : Nat) : Option Instr := none

end Sys2Proof
end

