-- ==== Sys2Proof/Machine/Bits.lean ====
section
/-! DEFINITION. Bit fields, byte order, check values and rounding, as the spec uses them. -/

namespace Sys2Proof.Machine

/-- Bits `hi:lo` of a word as a number. -/
def fld (w : Word) (hi lo : Nat) : Nat := (w.toNat >>> lo) % 2 ^ (hi - lo + 1)

/-- Bit `i` of a word. -/
def bitOf (w : Word) (i : Nat) : Bool := w.getLsbD i

/-- Bit `i` of a number. -/
def nbit (n i : Nat) : Bool := n.testBit i

/-- A number of one bit. -/
def b2n (b : Bool) : Nat := if b then 1 else 0

/-- The two's-complement value of a `bits`-wide field (Q, offsets, gains). -/
def sx (bits v : Nat) : Int :=
  if v % 2 ^ bits < 2 ^ (bits - 1) then ((v % 2 ^ bits : Nat) : Int)
  else ((v % 2 ^ bits : Nat) : Int) - ((2 ^ bits : Nat) : Int)

/-- The `bits`-wide two's-complement field of a value. -/
def unsx (bits : Nat) (v : Int) : Nat := (v % ((2 ^ bits : Nat) : Int)).toNat

/-- A word from a number. -/
def mkw (n : Nat) : Word := BitVec.ofNat 32 n

/-- The bytes of a word, least significant first (R68). -/
def wordBytes (w : Word) : List Byte :=
  [w.extractLsb' 0 8, w.extractLsb' 8 8, w.extractLsb' 16 8, w.extractLsb' 24 8]

/-- The bytes of a number, least significant first. -/
def natBytes : Nat → Nat → List Byte
  | 0, _ => []
  | k + 1, n => BitVec.ofNat 8 n :: natBytes k (n / 256)

/-- The number that a list of bytes spells, least significant first. -/
def bytesNat : List Byte → Nat
  | [] => 0
  | b :: bs => b.toNat + 256 * bytesNat bs

/-- Bytes as words; a last group of fewer than four bytes is padded with zeros. -/
def bytesWords : List Byte → List Word
  | a :: b :: c :: d :: rest => mkw (bytesNat [a, b, c, d]) :: bytesWords rest
  | [] => []
  | l => [mkw (bytesNat l)]

/-- Words as bytes. -/
def wordsBytes (ws : List Word) : List Byte := ws.flatMap wordBytes

/-! ## Check values (Table 11.2, R68, R237, R248) -/

/-- Shift eight bits through a reflected CRC register. -/
def crcReflStep (poly : Nat) : Nat → Nat → Nat
  | 0, r => r
  | k + 1, r => crcReflStep poly k (if r % 2 = 1 then (r / 2) ^^^ poly else r / 2)

/-- Shift eight bits through a register of `w` bits, most significant first. -/
def crcFwdStep (poly w : Nat) : Nat → Nat → Nat
  | 0, r => r
  | k + 1, r => crcFwdStep poly w k
      (if r.testBit (w - 1) then ((2 * r) % 2 ^ w) ^^^ poly else (2 * r) % 2 ^ w)

/-- One byte into the running value of an algorithm of Table 11.2 (before the final XOR). -/
def crcByte (alg : Nat) (r : Nat) (b : Byte) : Nat :=
  match alg with
  | 0 => crcReflStep 0x82F63B78 8 (r ^^^ b.toNat)
  | 1 => crcReflStep 0xEDB88320 8 (r ^^^ b.toNat)
  | 2 => crcFwdStep 0x864CFB 24 8 (r ^^^ (b.toNat <<< 16))
  | _ => crcFwdStep 0x1021 16 8 (r ^^^ (b.toNat <<< 8))

/-- The initial value of an algorithm of Table 11.2. -/
def crcInit (alg : Nat) : Nat :=
  match alg with
  | 0 => 0xFFFFFFFF
  | 1 => 0xFFFFFFFF
  | 2 => 0xB704CE
  | _ => 0xFFFF

/-- The final XOR of an algorithm of Table 11.2. -/
def crcXor (alg : Nat) : Nat :=
  match alg with
  | 0 => 0xFFFFFFFF
  | 1 => 0xFFFFFFFF
  | _ => 0

/-- The width of an algorithm of Table 11.2. -/
def crcWidth (alg : Nat) : Nat :=
  match alg with
  | 0 => 32
  | 1 => 32
  | 2 => 24
  | _ => 16

/-- The check value of a byte string under an algorithm of Table 11.2. -/
def crcOf (alg : Nat) (bs : List Byte) : Nat :=
  (bs.foldl (crcByte alg) (crcInit alg)) ^^^ crcXor alg

/-! ## Rounding and saturation (R171) -/

/-- `n / d` to nearest, ties away from zero. -/
def rndDiv (n : Int) (d : Nat) : Int :=
  if n < 0 then -(((2 * n.natAbs + d) / (2 * d) : Nat) : Int)
  else (((2 * n.natAbs + d) / (2 * d) : Nat) : Int)

/-- Saturation to `bits` signed bits. -/
def satTo (bits : Nat) (v : Int) : Int :=
  if v < -((2 ^ (bits - 1) : Nat) : Int) then -((2 ^ (bits - 1) : Nat) : Int)
  else if ((2 ^ (bits - 1) : Nat) : Int) ≤ v then ((2 ^ (bits - 1) : Nat) : Int) - 1
  else v

/-- sat16 of R171. -/
def sat16 (v : Int) : Int := satTo 16 v

/-- A complex word: I in bits 15:0, Q in bits 31:16, both signed. -/
def cxI (w : Word) : Int := sx 16 (fld w 15 0)
def cxQ (w : Word) : Int := sx 16 (fld w 31 16)

/-- The complex word of two 16-bit values. -/
def mkCx (i q : Int) : Word := mkw (unsx 16 i + 65536 * unsx 16 q)

/-- Least multiple of `m` at or above `n`, above `o` when both count from the origin `o` (ticks within a frame). -/
def ceilTo (m n : Nat) : Nat := (n + (m - 1)) / m * m

/-- The number of ones among the low `k` bits. -/
def popcount : Nat → Nat → Nat
  | 0, _ => 0
  | k + 1, n => (n % 2) + popcount k (n / 2)

/-- The lowest set bit among the low `k` bits of `n`, counted from `i`. -/
def lowBit : Nat → Nat → Nat → Nat
  | 0, _, i => i
  | k + 1, n, i => if n % 2 = 1 then i else lowBit k (n / 2) (i + 1)

/-- The indices of the ones among the low `k` bits. -/
def bitList (k n : Nat) : List Nat := (List.range k).filter fun i => nbit n i

end Sys2Proof.Machine
end

