-- ==== Sys2Proof/Config.lean ====
section
/-! DEFINITION. What the spec fixes once for the part, and the values it leaves open (opaque constants: nothing can
evaluate them). -/

namespace Sys2Proof.Config

/-- Ticks in a frame of 10 ms (R41). -/
abbrev frameTicks : Nat := 19660800

/-- Ticks in a millisecond. -/
abbrev msTicks : Nat := 1966080

/-- Number of frames after which FRAME wraps (R41). -/
abbrev frameWrap : Nat := 8388608

/-- The modulus S of TIMESTAMP arithmetic (R42). -/
abbrev tsMod : Nat := frameWrap * frameTicks

/-- Least lead of a COMMIT before its boundary (R56). -/
abbrev commitLead : Nat := 7947

/-- TX_LEAD of a single chip (R50). -/
abbrev txLead0 : Nat := 5899

/-- Ticks that each chord hop adds (R50, R64). -/
abbrev hopTicks : Nat := 1573

/-- TX_HORIZON less TX_LEAD (R50). -/
abbrev horizonSpan : Nat := 10485

/-- Ticks from the gate's release to the DAC update (R49). -/
abbrev gateLead : Nat := 48

/-- Binding and fetch lead (R174, R178, R205). -/
abbrev bindLead : Nat := 2048

/-- RX_LEAD of a cell with KEEP = 0 (R131). -/
abbrev rxLead : Nat := 4916

/-- ADC start-up (Table 5.1). -/
abbrev adcStart : Nat := 3933

/-- DAC start-up and the power-up point before START (R140). -/
abbrev dacStart : Nat := 787
abbrev dacEarly : Nat := 1024

/-- 1.0 µs as the converters' stay-on bound (R130, R140). -/
abbrev stayOn : Nat := 1966

/-- ORX start-up (R144). -/
abbrev orxStart : Nat := 19661

/-- The cell guard of 2.5 µs (R13, R223). -/
abbrev cellGuard : Nat := 4916

/-- Ticks of the 200 ns ORX input switch (R212). -/
abbrev orxSwitch : Nat := 394

/-- 20 ms, the wait of a mismatch measurement or capture for a window (R126, R212). -/
abbrev windowWait : Nat := 39321600

/-- Free values, one for each number the step has counted to: whatever the spec leaves undefined, unstated or analogue. -/
opaque freeWord : Nat → BitVec 64

/-- The 12-bit I and Q codes of a conversion of an RX cell (path, tick): analogue (R128). -/
opaque adcSample : Nat → Nat → BitVec 12 × BitVec 12

/-- An RX path sample after the DC and I/Q correction (path, tick, the values of its kinds): what the words of a stored value
do is not published (R128, R219, R237). -/
opaque rxCorrected : Nat → Nat → List (List Word) → Int × Int

/-- An ORX sample after its correction (block, half-tick, the value of ORXC): not published (R219, R237). -/
opaque orxCorrected : Nat → Nat → List Word → BitVec 16 × BitVec 16

/-- A TX path sample after the corrections that follow the release gate, before the limit of the DAC: a function of the values
of its kinds and of the gate's samples, newest first (R219, R220); what the words of a value do is not published (R237). -/
opaque txCorrected : List (List Word) → List (Int × Int) → Int × Int

/-- The taps of the half-band filters, in units of 2^−40, by form (true is the final one) and distance from the centre, for the
odd distances: Table 6.1 gives their number and their symmetry, not their values (R150). -/
opaque hbTap : Bool → Nat → Int

/-- The taps of the fractional-delay interpolator, in units of 2^−40, by rate code and distance in 1/64 tick (R156). -/
opaque delayTap : Nat → Int → Int

/-- The taps of the DAC interpolator, in units of 2^−40: of a tick or of a half-tick, and how far back (R139). -/
opaque dacTap : Bool → Nat → Int

/-- Whether the 18-bit quantisation of an NCO phase rounds up a phase of so many 1/19,660,800 turns (R152). -/
opaque phaseUp : Nat → Bool

/-- The rounding of a carrier sample to its 16-bit codes (cell, carrier, stamp, whether of the path delay), within one code: not
stated (R154, R156). -/
opaque carrierRound : Nat → Nat → Nat → Bool → Fin 3 × Fin 3

/-- Whether an invalid carrier sample, whose value is undefined, counts as saturated (R159). -/
opaque invalidSat : Nat → Nat → Nat → Bool

/-- The value of an invalid carrier sample, which R159 leaves undefined. -/
opaque invalidSample : Nat → Nat → Nat → BitVec 16 × BitVec 16

/-- The rounding choice of one pre-distortion term, within one code (cell, tick, term): R197. Terms count from 0, cross terms
from 64. -/
opaque dpdTermError : Nat → Nat → Nat → Fin 3 × Fin 3

/-- A 16-bit complex ORX sample (block, half-tick): analogue (R141). -/
opaque orxSample : Nat → Nat → BitVec 16 × BitVec 16

/-- The correction that an LO phase measurement finds (synthesiser, tick), in 1/65,536 turn: analogue (R104, R105). -/
opaque loPhase : Nat → Nat → BitVec 16

/-- The latency of a chord hop measured when a lane trains (R64), by tick. -/
opaque hopLatency : Nat → BitVec 16

/-- Whether a PORn pulse of 0.8 to 1 µs acts (R346), by occurrence. -/
opaque pornActs : Nat → Bool

/-- The words that the VC7 egress store of group H holds beyond one packet of 512 words; R328 does not state its size. -/
opaque vc7Store : Nat

end Sys2Proof.Config
end

