-- ==== Sys2Proof/Machine/State.lean ====
section
/-! DEFINITION. The state of the block, as plain data. Arrays are sparse tables: an index that is not listed holds the
unit's reset value. -/

namespace Sys2Proof.Machine

/-! ## Boot -/

/-- Where the boot state machine stands (R346, R347, R363). -/
inductive Phase where
  | held       -- PORn low: the boot state
  | start      -- PORn has risen: CHIP reads BOOT
  | fabrics    -- all fabrics at 0.72 V, memory being cleared
  | up         -- out of BOOT
  | tripped    -- thermal trip: FE_PA and FE_AUX inactive
  | trDone     -- 200 ns after the trip: FE_TR at RX level
  | shutdown   -- 1 µs after the trip: regulators off
deriving DecidableEq, Repr

structure Boot where
  phase : Phase := .held
  reason : Nat := 1
  riseAt : Nat := 0
deriving DecidableEq, Repr

/-! ## Command plane -/

/-- The final result of one part of a command (R72, R78). -/
structure Res where
  status : Nat
  detail : Nat := 0
  aux : Nat := 0
  words : List Word := []
  ts : BitVec 48 := 0
deriving DecidableEq, Repr

/-- One addressed unit of a command, in TARGET form, and its result once it has one. -/
structure Part where
  unit : Nat
  res : Option Res := none
deriving DecidableEq, Repr

/-- A command in flight (R72, R75). `stage` is the stage of a LAT.ARM (R372), `keep` the result words of a final OK that
waits for a boundary. -/
structure Flight where
  opc : Nat
  hdr : Hdr
  params : List Word
  parts : List Part
  accepted : Bool := false
  held : Bool := false
  stage : Nat := 0
  keep : List Word := []
deriving DecidableEq, Repr

inductive GState where
  | empty | opened | accepted
deriving DecidableEq, Repr

/-- A commit group: 0–15 are the host's, 16 + tag the private group of a self-committing command (R86, R92). -/
structure Grp where
  st : GState := .empty
  bnd : Nat := 0
  seq : Nat := 0
  tag : Option (BitVec 8) := none
deriving DecidableEq, Repr

/-- The staged copy of one ST field: word address, low bit, width, group and value (R86). -/
structure SField where
  addr : Nat
  lo : Nat
  width : Nat
  grp : Nat
  val : Nat
deriving DecidableEq, Repr

/-- The lists of commands. `modify` is the REG.MODIFY whose write is still to come: its tag and the word it read (R82). -/
structure Cmd where
  flight : List Flight := []
  groups : Tbl Grp := []
  staged : List SField := []
  seq : Nat := 0
  modify : Option (BitVec 8 × Word) := none
deriving DecidableEq, Repr

/-! ## Timebase, slack, fabric voltage -/

inductive TbState where
  | noRef | idle | armed | run
deriving DecidableEq, Repr

/-- The timebase (R41–R46). Tick 0 of frame `frame0` is at `t0` of the chip's tick count;
`frameAt` is the next frame start, `markFrame` the frame number of the last marker. -/
structure Tb where
  st : TbState := .noRef
  refSel : Nat := 0
  t0 : Nat := 0
  frame0 : Nat := 0
  tick0At : Option Nat := none
  frameOk : Bool := false
  edgeAt : Option Nat := none
  syncOut : Bool := false
  frameAt : Nat := 0
  latch : Tbl Nat := []
  slack : Tbl Nat := []
  slackLow : Tbl Bool := []
  fabV : Tbl Nat := []
  hopLat : Nat := 0
  err : Int := 0
  offset : Int := 0
  markFrame : Nat := 0
  workAt : Nat := 0
deriving DecidableEq, Repr

/-! ## Synthesisers, cells and pins -/

inductive SynSt where
  | off | wait | bandcal | settle | phase | ready | unlocked
deriving DecidableEq, Repr

/-- Operation classes of Table 1.6. -/
inductive OpKind where
  | recovery | commanded | measure
deriving DecidableEq, Repr

structure SynOp where
  syn : Nat
  kind : OpKind
deriving DecidableEq, Repr

/-- One synthesiser (R101–R108). `corr` is the correction applied, `target` the one measured; `again` is a relock that
waits under R25; `drop` marks a running operation whose result is dropped; `exempt` is the loss-of-lock exemption of R115;
`movedAt` is the tick of the last tracking step; `corrs` are the former corrections, newest first, each with the tick at which
it ended. -/
structure Syn where
  st : SynSt := .off
  lock : Bool := false
  div : Nat := 0
  corr : Nat := 0
  target : Nat := 0
  calAt : Nat := 0
  recovery : Bool := false
  again : Bool := false
  drop : Bool := false
  exempt : Bool := false
  applyAt : Option Nat := none
  trackDue : Option Nat := none
  tracking : Bool := false
  movedAt : Nat := 0
  corrs : List (Nat × Nat) := []
deriving DecidableEq, Repr

/-- The shared band-calibration engine and phase port of a quadrant (R24). -/
structure SynRes where
  run : Option SynOp := none
  since : Nat := 0
  waiting : List SynOp := []
deriving DecidableEq, Repr

/-- A window or burst that runs: its START and end, the tick its active interval ends, and the burst's tag. -/
structure Win where
  start : Nat
  stop : Nat
  activeEnd : Nat
  burst : Option (BitVec 8) := none
deriving DecidableEq, Repr

/-- A pending burst (R109, R114). -/
structure Burst where
  start : Nat
  len : Nat
  tag : BitVec 8
  begun : Bool := false
  late : Bool := false
  replied : Bool := false
deriving DecidableEq, Repr

inductive TxSeq where
  | gap | prep | queued | on | tail | dark
deriving DecidableEq, Repr

/-- What a DAC pair is powered for; RUN (Table 5.5) is `powered` inside a window that is not dark. -/
inductive DacSt where
  | off | starting | powered
deriving DecidableEq, Repr

inductive AdcSt where
  | off | starting | run | cal
deriving DecidableEq, Repr

/-- A TX cell (R111, R140). `undr` marks a window whose underrun was
reported (R53); `held` a calibration step that holds the cell (R13); `gateAt` the first tick that the gate has not yet
released; `ons` the recent intervals of ON that have ended, `wins` the recent windows that have ended. -/
structure TxCell where
  seq : TxSeq := .gap
  cur : Option Win := none
  onFrom : Nat := 0
  paFell : Nat := 0
  undr : Bool := false
  dac : DacSt := .off
  dacAt : Nat := 0
  held : Bool := false
  gateAt : Nat := 0
  ons : List (Nat × Nat) := []
  wins : List (Nat × Nat) := []
deriving DecidableEq, Repr

/-- An RX cell (R112, R129–R137, R157). `spans` are finished intervals of RUN, `runFrom` the present one, `dirty` the
intervals of conversions that are not clean; `notReadyFrom` the time since which its LO is not READY; `wins` the recent
RX windows; `tail` the first tick at which its own over-range disturbs no neighbour any more (R135). -/
structure RxCell where
  on : Bool := false
  cur : Option Win := none
  adc : AdcSt := .off
  adcAt : Nat := 0
  runFrom : Option Nat := none
  spans : List (Nat × Nat) := []
  dirty : List (Nat × Nat) := []
  ovr : Bool := false
  ovrLast : Nat := 0
  nbr : Bool := false
  nbrLast : Nat := 0
  tail : Nat := 0
  ovrTold : Bool := false
  nbrTold : List Nat := []
  notReadyFrom : Option Nat := some 0
  wins : List (Nat × Nat) := []
  held : Bool := false
deriving DecidableEq, Repr

/-- A diversity pair's correlator (R124). `sels` are the recent changes of the choice, newest first: the tick of the decision
and the branch chosen before it. -/
structure DivPair where
  sel : Nat := 0
  detected : Bool := false
  margin : Nat := 0
  sels : List (Nat × Nat) := []
deriving DecidableEq, Repr

/-- RF: synthesisers, cells, bursts, the FE_PA queue of R116 and the FE_PA pins that are on; the levels of the other
front-end pins follow from the rest. -/
structure Rf where
  syn : Tbl Syn := []
  res : Tbl SynRes := []
  tx : Tbl TxCell := []
  rx : Tbl RxCell := []
  bursts : Tbl (List Burst) := []
  paQueue : List (Nat × Nat) := []
  rises : List Nat := []
  pa : Tbl Bool := []
  polSet : Bool := false
  div : Tbl DivPair := []
deriving DecidableEq, Repr

/-! ## Blocks: ORX, RFFE, captures -/

inductive OrxSt where
  | off | starting | idle | busy
deriving DecidableEq, Repr

/-- Who asked for an ORX job; a calibration step is named by its unit and its start. -/
inductive OrxWho where
  | capture (slot : Nat)
  | mismatch (tag : BitVec 8)
  | cal (unit : CalUnit) (start : Nat)
deriving DecidableEq, Repr

structure OrxJob where
  who : OrxWho
  cls : Nat
  pos : Nat
  src : Nat
  since : Nat
  raised : Nat := 0
deriving DecidableEq, Repr

/-- Who asked for an RFFE job: mailbox slot 0–4, or a timed entry (R121, R122). -/
inductive RffeWho where
  | slot (s : Nat)
  | timed (e : Nat)
deriving DecidableEq, Repr

structure RffeJob where
  who : RffeWho
  word : Word
  cls : Nat
  pos : Nat
  since : Nat
  raised : Nat := 0
  retried : Bool := false
deriving DecidableEq, Repr

/-- A capture in progress (R211–R214). -/
structure Cap where
  w0 : Word
  t : Nat
  first : Nat
  count : Nat
  goAt : Nat
  granted : Option Nat := none
  t0 : Option Nat := none
  queued : Bool := false
  ovr : Bool := false
  chg : Bool := false
deriving DecidableEq, Repr

structure CapSlot where
  result : Nat := 0
  status : Nat := 0
  region : Nat := 0
  cap : Option Cap := none
deriving DecidableEq, Repr

/-- A mismatch measurement in progress (R126). -/
structure Mis where
  tag : BitVec 8
  path : Nat
  n : Nat
  since : Nat
deriving DecidableEq, Repr

structure Blk where
  orx : OrxSt := .off
  orxAt : Nat := 0
  orxJob : Option OrxJob := none
  orxQ : List OrxJob := []
  orxPtr : Nat := 0
  stop : Bool := false
  rffeJob : Option RffeJob := none
  rffeAt : Nat := 0
  rffeQ : List RffeJob := []
  rffePtr : Nat := 0
  rffeRes : Tbl Nat := []
  rffeTag : Option (BitVec 8) := none
  slots : Tbl CapSlot := []
  regions : Tbl Nat := []
  timedFrom : Tbl Nat := []
  mis : List Mis := []
deriving DecidableEq, Repr

/-! ## Carriers and beams -/

/-- One carrier. `disc` holds its discontinuities (R158); `inv` the intervals of stamps made invalid by a DELAY change
(R156), or on a TX carrier the path ticks marked by a change (R164); `last` the last complete block and its code, `blks` the
recent blocks delivered and their codes. -/
structure Carr where
  disc : List Nat := []
  inv : List (Nat × Nat) := []
  last : Option (Nat × Nat) := none
  blks : List (Nat × Nat) := []
  sat : Bool := false
deriving DecidableEq, Repr

/-- A beam swap (R177–R180). Points are (SYM, ENTRY). -/
structure Swap where
  tag : BitVec 8
  points : List (Nat × Nat)
  fade : Nat
  shape : Nat
  start : Nat
  btable : Nat
  held : Bool := false
  started : Bool := false
deriving DecidableEq, Repr

/-- A weight fetch issued and not complete: the change tick and the entry (R174). -/
structure Fetch where
  change : Nat
  entry : Nat
deriving DecidableEq, Repr

/-- A fetched entry that waits for its change tick: the tick, the entry, its 64 words, and the quadrants whose slice met an
uncorrectable error (R174, R175). -/
structure Ready where
  change : Nat
  entry : Nat
  words : List Word
  bad : List Nat := []
deriving DecidableEq, Repr

/-- A stream block: its first stamp, its code and its sums (before the division by 2^14 of R171, or final samples). -/
structure SBlk where
  at_ : Nat
  code : Nat
  vals : List (Int × Int)
deriving DecidableEq, Repr

/-- A fade (R181): the weights faded from, its first stamp, its samples, its shape, and the tick at which it stops. -/
structure Fade where
  words : List Word
  s0 : Nat
  len : Nat
  shape : Nat
  stop : Nat
deriving DecidableEq, Repr

/-- A stream context's live state (R171–R181). `hist` holds the weights in force, newest first: the stamp from which they
apply and the 64 weight words; an empty list means entry 0 of the table. `fades` are the recent fades, newest first. `doneTo` and
`changed` are the first block start and the first point boundary not yet handled. `own` are the complete blocks of this chip that wait for a partial sum, `out` the blocks that wait for their packet. -/
structure Ctx where
  live : List (Nat × Nat) := []
  bound : Option Swap := none
  slot : Option Swap := none
  entry : Nat := 0
  from_ : Nat := 0
  fading : Bool := false
  s0 : Nat := 0
  fadeN : Nat := 0
  hist : List (Nat × List Word) := []
  fades : List Fade := []
  fetch : List Fetch := []
  ready : List Ready := []
  kind : Nat := 0
  sat : Bool := false
  doneTo : Nat := 0
  changed : Nat := 0
  issued : Nat := 0
  own : List SBlk := []
  out : List SBlk := []
deriving DecidableEq, Repr

/-- One transmit stream sample held for its tick (R51, R172). `code` is 3 for a sample that is missing; `again` marks one that
came to the head after the CHORD packet of its interval had left (R186). -/
structure TxSmp where
  ctx : Nat
  at_ : Nat
  i : Int
  q : Int
  code : Nat := 0
  again : Bool := false
deriving DecidableEq, Repr

/-- A chord partial-sum block that has arrived or was replaced (R184, R185). -/
structure PSum where
  ctx : Nat
  at_ : Nat
  code : Nat
  vals : List (Int × Int)
deriving DecidableEq, Repr

/-- The beam engine. `chordAt` holds by rate code the interval of the next transmit CHORD packet at the head, of
the latest one taken on a member (R186, R189), and by rate code + 8 that of the next packet of partial sums (R287). -/
structure Beam where
  ctx : Tbl Ctx := []
  ingress : List TxSmp := []
  fed : List TxSmp := []
  psum : List PSum := []
  chordAt : Tbl Nat := []
deriving DecidableEq, Repr

/-! ## Path processing -/

/-- A pre-distortion swap that is pending or bound (R204, R205). -/
structure DSwap where
  bank : Nat
  target : Nat
  tag : Option (BitVec 8)
  bound : Bool := false
  got : Option (List Word) := none
deriving DecidableEq, Repr

/-- One TX path's pre-distortion state (R203–R209). A bank of `none` is the identity bank. `eff` is the effective mode called
for last; `lives` and `effs` are the former LIVE banks and effective modes, newest first, each with the tick at which it
ended. `chgs` are the recent ticks at which LIVE, STORE or the effective mode changed, `grds` those at which MODE or DPD_GRD
did; `judgedTo` is the end of the last guard interval. -/
structure PathProc where
  live : Option (List Word) := none
  prev : Option (List Word) := none
  store : Nat := 2
  swap : Option DSwap := none
  lock : Bool := false
  gkind : Nat := 0
  bankErr : Nat := 0
  eff : Nat := 0
  effs : List (Nat × Nat) := []
  lives : List (Nat × Option (List Word)) := []
  chgs : List Nat := []
  grds : List Nat := []
  judgedTo : Nat := 0
  trip : Option (Nat × Nat) := none
deriving DecidableEq, Repr

/-! ## Calibration -/

/-- A placed or running calibration step (R223, R224). `asked` marks its ORX request made. -/
structure CalStep where
  unit : CalUnit
  kind : Nat
  idx : Nat
  start : Nat
  bg : Bool
  asked : Bool := false
  running : Bool := false
deriving DecidableEq, Repr

/-- A value measured and not yet stored: the LO frequency and the temperature that it was measured at. -/
structure CalVal where
  unit : CalUnit
  kind : Nat
  freq : Nat
  temp : Int
  vals : List Word
deriving DecidableEq, Repr

/-- The points of one unit and kind (R234). -/
structure CalRec where
  kind : Nat
  unit : CalUnit
  freq : Nat
  pts : List (Int × List Word)
deriving DecidableEq, Repr

/-- One kind of one unit that is being measured, and how many of its steps have passed. -/
structure CalTask where
  unit : CalUnit
  kind : Nat
  done : Nat := 0
deriving DecidableEq, Repr

/-- A run on request (R225–R228): what is still to be measured and what was measured. `part` is its command part. -/
structure CalRun where
  tag : BitVec 8
  part : Nat
  units : List CalUnit
  todo : List CalTask
  vals : List CalVal := []
  deadline : Nat
  lastEnd : Option Nat := none
deriving DecidableEq, Repr

/-- A background update in progress (R229–R231); `got` is its value and the tick its last step ended. -/
structure BgUpd where
  task : CalTask
  got : Option (CalVal × Nat) := none
deriving DecidableEq, Repr

structure CalExp where
  tag : BitVec 8
  part : Nat
  addr : Nat
  maxLen : Nat
  at_ : Nat
deriving DecidableEq, Repr

structure CalImp where
  tag : BitVec 8
  part : Nat
  recs : List CalRec
  at_ : Nat
deriving DecidableEq, Repr

structure CalClr where
  tag : BitVec 8
  part : Nat
  units : List CalUnit
  kinds : Nat
  at_ : Nat
deriving DecidableEq, Repr

/-- The calibration engine of a quadrant. `ended` holds when the last background update of a unit and kind ended. The
applied values follow `store` and `temp` from tick `useFrom` on, before it `oldStore` and `oldTemp` (R235). -/
structure Cal where
  run : Option CalRun := none
  imp : Option CalImp := none
  exp : List CalExp := []
  clr : List CalClr := []
  store : List CalRec := []
  temp : Int := 0
  tvalid : Bool := false
  oldStore : List CalRec := []
  oldTemp : Int := 0
  useFrom : Nat := 0
  steps : List CalStep := []
  bg : List BgUpd := []
  ended : List (CalUnit × Nat × Nat) := []
deriving DecidableEq, Repr

/-! ## Link and packets -/

inductive LgSt where
  | off | listen | train | run | rate
deriving DecidableEq, Repr

/-- A lane group (R253–R266). `masks` holds the changes that wait for their boundary, as tick, partner RXOK and the lanes new in it, `emptied` the boundary of an
empty partner RXOK, `told` that the loss was reported, `shed` the contexts outside the run of its capacity test,
`retrain` the LINK.RETRAIN commands waiting. SEQ was `seq` at `seqAt`. A new RATE waits for the final reply of `rateTag`. `quiet`
marks a sleep transition of the transmit direction, `sleepAt` its SLEEP superblock, `wakeAt` the beginning of its wake (R264).
`lost` marks a receiver that lost framing and waits for a pointer word (R271). -/
structure Lg where
  st : LgSt := .off
  rate : Nat := 0
  txmask : Nat := 0
  peerRxok : Nat := 0
  peerTx : Nat := 0
  peerChip : Nat := 0
  peerCtrl : Nat := 1
  seq : Nat := 0
  seqAt : Nat := 0
  txsleep : Bool := false
  waking : Bool := false
  trainAt : Nat := 0
  attempts : Nat := 0
  lastTry : Option Nat := none
  attemptAt : Option Nat := none
  told : Bool := false
  masks : List (Nat × Nat × Nat) := []
  emptied : Option Nat := none
  newRate : Option Nat := none
  rateTag : Option (BitVec 8) := none
  rateAt : Nat := 0
  shed : List Nat := []
  retrain : List (BitVec 8) := []
  quiet : Bool := false
  sleepAt : Option Nat := none
  wakeAt : Nat := 0
  lost : Bool := false
deriving DecidableEq, Repr

/-- A lane: receive detectors and equaliser (R250–R252). `lostAt` is a loss not yet reported, `adding` and `removing` a
commit that adds or removes the lane, `wokeAt` the end of a partner's sleep, `lateAt` the same once 100 µs have passed without the
lane being ready (R265), `com` the arrival and SEQ of the latest good comma, `adaptAt` the last adaptation. -/
structure Lane where
  los : Bool := true
  blk : Bool := false
  comma : Bool := false
  ready : Bool := false
  readyAt : Nat := 0
  rxok : Bool := false
  skew : Nat := 0
  ctle : Nat := 0
  eye : Nat := 0
  dfe : Tbl Int := []
  lostAt : Option Nat := none
  adding : Bool := false
  removing : Bool := false
  psleep : Bool := false
  wokeAt : Option Nat := none
  lateAt : Option Nat := none
  com : Option (Nat × Nat) := none
  adaptAt : Nat := 0
deriving DecidableEq, Repr

/-- A reply packet (Table 3.3). -/
structure Reply where
  opc : Nat
  tag : BitVec 8
  status : Nat
  target : BitVec 16
  final : Bool
  dup : Bool
  ts : BitVec 48
  result : List Word
deriving DecidableEq, Repr

/-- An event packet (Table 11.4). -/
structure EventPkt where
  source : Nat
  chan : Nat
  lost : Bool
  rec_ : Rec
deriving DecidableEq, Repr

/-- A packet that waits for egress (Table 11.3). A `pass` is one that a chip passes on along the chain: its TYPE, CHIP and
ID and its payload words. -/
inductive Pkt where
  | reply (r : Reply)
  | event (e : EventPkt)
  | sample (p : SamplePkt)
  | chord (p : ChordPkt)
  | lctl (kind : Nat) (word : BitVec 64)
  | command (bytes : List Byte)
  | bulkData (addr : Word) (xid : Byte) (status : Nat) (data : List Word)
  | bulkAck (addr : Word) (xid : Byte) (status : Nat)
  | capture (addr : Word) (xid : Byte) (data : List Word)
  | pass (typ chip id : Nat) (payload : List (BitVec 64))
deriving DecidableEq, Repr

/-- A bulk request in the VC7 ingress store (R290, R292): a write with its words, or a read of `n` words. -/
structure BulkJob where
  write : Bool
  grp : Nat
  addr : Word
  xid : Byte
  ack : Bool
  n : Nat
  data : List Word
deriving DecidableEq, Repr

/-- A packet in transmission and its words, header and check word included (R270, R273). -/
structure Sent where
  pkt : Pkt
  words : List (BitVec 64)
deriving DecidableEq, Repr

/-- Lanes, groups and packet layer. Egress queues are indexed 8·g + VC; `wire` holds the packet in transmission of each
group, `hi` the packets of higher channels since the last VC7 packet (R27); `inPoly` and `egPoly` are the check
algorithms in effect (R276); `polyLater` and `polyWait` hold the VCs whose new algorithms wait for a superblock boundary
and for the final reply of a tag. `bulk` is the VC7 ingress store: the requests that have arrived and not completed (R292). -/
structure Link where
  lg : Tbl Lg := []
  lane : Tbl Lane := []
  egress : Tbl (List Pkt) := []
  wire : Tbl (Option Sent) := []
  hi : Tbl Nat := []
  framed : Tbl Bool := []
  bulk : List BulkJob := []
  inPoly : Tbl Nat := []
  egPoly : Tbl Nat := []
  polyLater : List (Nat × Nat) := []
  polyWait : List (Nat × BitVec 8) := []
deriving DecidableEq, Repr

/-! ## Vertex engines -/

inductive VeSt where
  | halted | running | waiting | sleeping | faulted
deriving DecidableEq, Repr

/-- A write-buffer entry: line address and the bytes written, as offset and value (R311). -/
structure WLine where
  base : Nat
  bytes : List (Nat × Byte)
deriving DecidableEq, Repr

/-- A cached line (R310); the cache list is in order of use, most recent first. -/
structure CLine where
  base : Nat
  bytes : List Byte
deriving DecidableEq, Repr

/-- What a WAITING engine waits for (R308, R309). -/
inductive VeWait where
  | none | wfe | sleep
deriving DecidableEq, Repr

/-- A vertex engine (R297). Lane l of vector v is at index 16v + l; accumulators hold I at 2k and Q at 2k + 1. -/
structure Ve where
  s : Tbl Word := []
  pc : Nat := 0
  v : Tbl Word := []
  a : Tbl Int := []
  evl : Bool := false
  st : VeSt := .halted
  fcause : Nat := 0
  fpc : Nat := 0
  faddr : Nat := 0
  wbuf : List WLine := []
  cache : List CLine := []
  wait : VeWait := .none
  halts : List (BitVec 8 × Nat) := []
  load : Option (BitVec 8 × Nat × Nat) := none
deriving DecidableEq, Repr

/-! ## DMA -/

inductive DmaSt where
  | idle | paced | run | halted
deriving DecidableEq, Repr

/-- A DMA channel (R318–R329); SRC, DST, COUNT, CTRL and PACE are registers. `left` counts the beats left in the burst,
`bursts` the bursts since the last CAPTURE packet, `out` the words it will carry, `word` the word that a write to be retried
has read. -/
structure Dma where
  st : DmaSt := .idle
  req : Bool := false
  err : Nat := 0
  retry : Nat := 0
  failAddr : Nat := 0
  failDir : Nat := 0
  left : Nat := 0
  bursts : Nat := 0
  outAddr : Nat := 0
  out : List Word := []
  stalled : Bool := false
  abort : Bool := false
  word : Option Word := none
  tag : Option (BitVec 8) := none
deriving DecidableEq, Repr

/-! ## Event hub -/

/-- An event source (R333). -/
structure Src where
  en : Bool := false
  q : List Rec := []
  lost : Bool := false
  act : Bool := false
  owner : Nat := 31
deriving DecidableEq, Repr

/-- An event target (R334–R338). `taken` is set when ANNOUNCED was claimed by another target; `edge` is a host channel's
rising edge not yet served. -/
structure Tgt where
  line : Bool := false
  ann : Nat := 0
  taken : Bool := false
  claims : List Nat := []
  info : Option (Nat × Rec × Bool) := none
  edge : Bool := false
deriving DecidableEq, Repr

structure Hub where
  src : Tbl Src := []
  tgt : Tbl Tgt := []
  held : Tbl Word := []
deriving DecidableEq, Repr

/-! ## Power -/

inductive DomSt where
  | awake | asleep | requested | waking
deriving DecidableEq, Repr

structure Dom where
  st : DomSt := .awake
  held : Bool := false
deriving DecidableEq, Repr

/-- A sleep or wake request (R350, R353): its domain and the command part that waits for it. -/
structure PReq where
  d : Nat
  cmd : Option (BitVec 8 × Nat) := none
deriving DecidableEq, Repr

inductive TransKind where
  | sleep | wake | thermal
deriving DecidableEq, Repr

structure Trans where
  kind : TransKind
  req : PReq
  ends : Nat
deriving DecidableEq, Repr

structure Sensor where
  temp : Int := 0
  valid : Bool := false
  seen : Bool := false
  prev : Int := 0
  good : Nat := 0
  failed : Bool := false
deriving DecidableEq, Repr

structure Supply where
  mv : Nat := 0
  inRange : Bool := false
  nom33 : Bool := false
  out : Bool := false
deriving DecidableEq, Repr

structure Aux where
  mv : Nat := 0
  out : Bool := false
deriving DecidableEq, Repr

structure Pwr where
  dom : Tbl Dom := []
  cur : Option Trans := none
  thermal : List Nat := []
  wakes : List PReq := []
  sleeps : List PReq := []
  gapUntil : Nat := 0
  gap : Bool := false
  step : Nat := 0
  hot : Nat := 0
  cool : Nat := 0
  nogov : Bool := false
  tgov : Int := 0
  conv : Nat := 0
  convAt : Nat := 0
  sens : Tbl Sensor := []
  sup : Tbl Supply := []
  aux : Tbl Aux := []
  shed : List Nat := []
  shedFrom : Tbl Nat := []
deriving DecidableEq, Repr

/-! ## JTAG -/

/-- A packet in the JTAG outbound queue: KIND, the words left, framing word first, and the tag of which it is the final reply (R99). -/
structure JPkt where
  kind : Nat
  words : List Word
  fin : Option (BitVec 8) := none
deriving DecidableEq, Repr

structure Jtag where
  ir : Nat := 2
  boundary : Tbl Bool := []
  capValid : Bool := false
  capReady : Bool := false
  capWord : Word := 0
  inb : List Word := []
  done : Option (List Word) := none
  discard : Bool := false
  out : List JPkt := []
  wait : List Reply := []
deriving DecidableEq, Repr

/-! ## Lattice head -/

/-- What the head holds of a member: its latest STATUS word, polls missed, the misalignment reported, and the hop beyond
it as last shown. -/
structure Member where
  word : BitVec 64 := 0
  polled : Bool := false
  answered : Bool := true
  missed : Nat := 0
  silentTold : Bool := false
  misTold : Bool := false
  hopUp : Bool := false
  hopFail : Bool := false
deriving DecidableEq, Repr

structure Lat where
  mem : Tbl Member := []
  next : Nat := 1
  polledAt : Nat := 0
  hop0Up : Bool := false
  hop0Fail : Bool := false
  set : Bool := false
deriving DecidableEq, Repr

/-! ## The whole -/

/-- Everything the spec gives the block. `now` counts ticks of 1/1,966.08 MHz, `fresh` the free values used; `past` holds,
newest first, the boundary tick of each recent commit, a register that it changed and the word before it, since a sample
takes the settings of its own TIMESTAMP (R55). -/
structure Dev where
  now : Nat := 0
  fresh : Nat := 0
  boot : Boot := {}
  regs : Tbl Word := []
  past : List (Nat × Nat × Word) := []
  mem : List Host.Cell := []
  bad : List Nat := []
  cmd : Cmd := {}
  tb : Tb := {}
  rf : Rf := {}
  blk : Tbl Blk := []
  carr : Tbl Carr := []
  beam : Beam := {}
  pp : Tbl PathProc := []
  cal : Tbl Cal := []
  link : Link := {}
  ve : Tbl Ve := []
  fills : List (BitVec 8 × Nat × Nat × Word) := []
  dma : Tbl Dma := []
  hub : Hub := {}
  pwr : Pwr := {}
  jtag : Jtag := {}
  lat : Lat := {}
deriving DecidableEq, Repr

/-- The state: the block and the commands that wait for it, first in, first out. -/
structure State where
  pending : List Instr
  dev : Dev
deriving DecidableEq, Repr

/-- The block right after reset: PORn low after power-up, every unit at its reset value (R5, R6, R346). -/
def State.reset : State := { pending := [], dev := {} }

/-- Why a step ends in a fault. No command of this block does: the constructor is kept for a term that is no command. -/
inductive Fault where
  /-- Raised by nothing. Safe: a machine that never raises it allows no more behaviour than one that does. -/
  | none
deriving DecidableEq, Repr

/-- Why a command is refused by the model. -/
inductive Refusal where
  /-- Raised by an arm of `exec` whose command has no meaning yet. Safe: no claim can be proved of such a command. -/
  | notModelled (mnemonic : String)
  /-- Raised by `act` for a term that is no command (`Instr.wf` fails: lists that contradict their own length fields).
  Safe: no packet or event of the block has such a form. -/
  | illFormed
deriving DecidableEq, Repr

end Sys2Proof.Machine
end

