-- ==== Sys2Proof/Machine/Ops.lean ====
section
/-! DEFINITION. The shared operations: sparse tables, memory, the lifting of a unit's effect to a step. -/

namespace Sys2Proof.Machine

/-! ## Sparse tables -/

/-- The entry at `i`, or the default `d i` when none is listed. -/
def Tbl.get {α : Type} (d : Nat → α) : Tbl α → Nat → α
  | [], i => d i
  | (j, w) :: t, i => if j = i then w else Tbl.get d t i

/-- List `v` at `i`, keeping the indices rising. -/
def Tbl.insert {α : Type} : Tbl α → Nat → α → Tbl α
  | [], i, v => [(i, v)]
  | (j, w) :: t, i, v =>
    if i < j then (i, v) :: (j, w) :: t
    else if i = j then (i, v) :: t
    else (j, w) :: Tbl.insert t i v

/-- List nothing at `i`. -/
def Tbl.erase {α : Type} (t : Tbl α) (i : Nat) : Tbl α := t.filter fun e => e.1 != i

/-- Put `v` at `i`, listing nothing that equals the default. -/
def Tbl.set {α : Type} [DecidableEq α] (d : Nat → α) (t : Tbl α) (i : Nat) (v : α) : Tbl α :=
  if v = d i then Tbl.erase t i else Tbl.insert t i v

/-- Every index is above `k`. -/
def Tbl.above {α : Type} (k : Nat) : Tbl α → Bool
  | [] => true
  | (j, _) :: t => decide (k < j) && Tbl.above k t

/-- The canonical form: indices strictly rising, no entry equal to its default. -/
def Tbl.wf {α : Type} [DecidableEq α] (d : Nat → α) : Tbl α → Bool
  | [] => true
  | (j, w) :: t => decide (w ≠ d j) && Tbl.above j t && Tbl.wf d t

/-! ## Memory -/

/-- What a byte that nothing has written reads: 0, since the boot state machine clears every memory (R347). -/
def memDefault (_ : Nat) : Byte := 0

/-- The canonical form of memory. -/
def Memory.wf (m : List Host.Cell) : Bool := Tbl.wf memDefault m

/-- One byte of memory. -/
def Memory.read (m : List Host.Cell) (a : Nat) : Byte := Tbl.get memDefault m a

/-- Write one byte. -/
def Memory.write (m : List Host.Cell) (a : Nat) (b : Byte) : List Host.Cell := Tbl.set memDefault m a b

/-- Write bytes at rising addresses. -/
def Memory.writeBytes : List Host.Cell → Nat → List Byte → List Host.Cell
  | m, _, [] => m
  | m, a, b :: bs => Memory.writeBytes (Memory.write m a b) (a + 1) bs

/-- Read `n` bytes at rising addresses. -/
def Memory.readBytes (m : List Host.Cell) : Nat → Nat → List Byte
  | _, 0 => []
  | a, n + 1 => Memory.read m a :: Memory.readBytes m (a + 1) n

/-- Read a little-endian word. -/
def Memory.readWord (m : List Host.Cell) (a : Nat) : Word := mkw (bytesNat (Memory.readBytes m a 4))

/-- Write a little-endian word. -/
def Memory.writeWord (m : List Host.Cell) (a : Nat) (w : Word) : List Host.Cell :=
  Memory.writeBytes m a (wordBytes w)

/-- Read `n` words at rising addresses. -/
def Memory.readWords (m : List Host.Cell) : Nat → Nat → List Word
  | _, 0 => []
  | a, n + 1 => Memory.readWord m a :: Memory.readWords m (a + 4) n

/-- Write words at rising addresses. -/
def Memory.writeWords : List Host.Cell → Nat → List Word → List Host.Cell
  | m, _, [] => m
  | m, a, w :: ws => Memory.writeWords (Memory.writeWord m a w) (a + 4) ws

/-- An uncorrectable error lies in `n` words from `a` (Table 1.8). -/
def Dev.badAt (d : Dev) (a n : Nat) : Bool := d.bad.any fun x => decide (a ≤ x) && decide (x < a + 4 * n)

/-- Store words in memory; a word that is written anew holds no error. -/
def Dev.storeWords (d : Dev) (a : Nat) (ws : List Word) : Dev :=
  { d with mem := Memory.writeWords d.mem a ws
           bad := d.bad.filter fun x => !(decide (a ≤ x) && decide (x < a + 4 * ws.length)) }

/-- Store bytes in memory. -/
def Dev.storeBytes (d : Dev) (a : Nat) (bs : List Byte) : Dev :=
  { d with mem := Memory.writeBytes d.mem a bs }

/-! ## Steps -/

/-- The outcome type of the block. -/
abbrev Out := Host.Outcome State Fault Refusal

/-- Let a unit act: the next state, with the queue as it stands. -/
def act (f : Dev → Dev) (s : State) : Out := .next { s with dev := f s.dev }

/-- Let a unit act on a well-formed operand. -/
def actIf (ok : Bool) (f : Dev → Dev) (s : State) : Out :=
  if ok then act f s else .refused .illFormed

/-- The block is neither in the boot state nor in SHUTDOWN: its units work (R5, R348). -/
def Dev.powered (d : Dev) : Bool :=
  match d.boot.phase with
  | .up => true
  | .tripped => true
  | .trDone => true
  | _ => false

/-- Let a unit act while the units work. -/
def whenUp (f : Dev → Dev) (d : Dev) : Dev := if d.powered then f d else d

/-! ## Time -/

/-- `n` microseconds in whole ticks, rounded up: 1,966.08 ticks each (DEDUCED, log entry 5). -/
def us (n : Nat) : Nat := (n * 196608 + 99) / 100

/-- `n` nanoseconds in whole ticks, rounded up (DEDUCED, log entry 5). -/
def ns (n : Nat) : Nat := (n * 196608 + 99999) / 100000

/-- `n` milliseconds in ticks. -/
def ms (n : Nat) : Nat := n * Config.msTicks

/-- Move the clock forward to `t`; it never moves back (DESIGN CHOICE, log entry 2). -/
def Dev.goTo (d : Dev) (t : Nat) : Dev := { d with now := max d.now t }

/-- A fresh free value (log entry 3). -/
def Dev.free (d : Dev) : BitVec 64 := Config.freeWord d.fresh

/-- Count a free value as used. -/
def Dev.used (d : Dev) : Dev := { d with fresh := d.fresh + 1 }

/-- The timebase is in RUN. -/
def Dev.running (d : Dev) : Bool := d.tb.st == .run

/-- Linear ticks since tick 0 of frame 0 of the present timeline at chip tick `t` (R42). -/
def Dev.lin (d : Dev) (t : Nat) : Nat := (d.tb.frame0 * Config.frameTicks + (t - d.tb.t0)) % Config.tsMod

/-- The TIMESTAMP of a linear tick (Table 2.3). -/
def tsOfLin (l : Nat) : BitVec 48 :=
  BitVec.ofNat 48 ((l / Config.frameTicks) % Config.frameWrap * 2 ^ 25 + l % Config.frameTicks)

/-- The linear tick of a TIMESTAMP (R42). -/
def linOfTs (ts : BitVec 48) : Nat := (ts.toNat / 2 ^ 25) * Config.frameTicks + ts.toNat % 2 ^ 25

/-- A TIMESTAMP is valid when its TICK lies below a frame (R41). -/
def tsValid (ts : BitVec 48) : Bool := decide (ts.toNat % 2 ^ 25 < Config.frameTicks)

/-- The TIMESTAMP at chip tick `t`; 0 outside RUN (Table 3.3). -/
def Dev.tsAt (d : Dev) (t : Nat) : BitVec 48 := if d.running then tsOfLin (d.lin t) else 0

/-- The present TIMESTAMP; 0 outside RUN. -/
def Dev.ts (d : Dev) : BitVec 48 := d.tsAt d.now

/-- How many ticks a TIMESTAMP lies after the present, or `none` when it lies at or before it (R42). -/
def Dev.ahead (d : Dev) (ts : BitVec 48) : Option Nat :=
  let x := (linOfTs ts + Config.tsMod - d.lin d.now) % Config.tsMod
  if 1 ≤ x ∧ x < Config.tsMod / 2 then some x else none

/-- How many ticks a TIMESTAMP lies before the present (0 when it is the present). -/
def Dev.behind (d : Dev) (ts : BitVec 48) : Nat :=
  (d.lin d.now + Config.tsMod - linOfTs ts) % Config.tsMod

/-- The chip tick of a TIMESTAMP that lies near the present. -/
def Dev.tickOf (d : Dev) (ts : BitVec 48) : Nat :=
  match d.ahead ts with
  | some x => d.now + x
  | none => d.now - d.behind ts

/-- The tick within the frame of chip tick `t`. -/
def Dev.inFrame (d : Dev) (t : Nat) : Nat := (t - d.tb.t0) % Config.frameTicks

/-- The first chip tick at or after `t` whose tick within the frame is a multiple of `m` (`m` divides a frame). -/
def Dev.alignUp (d : Dev) (m t : Nat) : Nat := d.tb.t0 + ceilTo m (t - d.tb.t0)

/-- The first path-block boundary strictly after `t`: ticks within the frame that are multiples of 16 (R105). -/
def Dev.nextPathBlock (d : Dev) (t : Nat) : Nat := d.alignUp 16 (t + 1)

end Sys2Proof.Machine
end

