-- ==== Sys2Proof/Machine/Units.lean ====
section
/-! DEFINITION. One accessor and one update for every array of units, with the unit's reset value. -/

namespace Sys2Proof.Machine

/-- The reset state of a lane group: H starts in LISTEN, U and D are off (R243). -/
def lgReset (g : Nat) : Lg := if g = 0 then { st := .listen } else {}

/-- The fault sources: 2–12, 16 + 8q + k for k ≤ 6, 48 + 8q + k for k ≤ 4 (R332). -/
def isFaultSource (s : Nat) : Bool :=
  (decide (2 ≤ s) && decide (s ≤ 12)) ||
  (decide (16 ≤ s) && decide (s < 48) && decide (s % 8 ≤ 6)) ||
  (decide (48 ≤ s) && decide (s < 80) && decide (s % 8 ≤ 4))

/-- The reset state of an event source: RESTART and the fault sources are enabled (R340). -/
def srcReset (s : Nat) : Src := { en := s == 1 || isFaultSource s }

/-- The synthesiser. -/
def Dev.syn (d : Dev) (i : Nat) : Syn := Tbl.get (fun _ => {}) d.rf.syn i

/-- Set the synthesiser. -/
def Dev.setSyn (d : Dev) (i : Nat) (v : Syn) : Dev :=
  { d with rf := { d.rf with syn := Tbl.set (fun _ => {}) d.rf.syn i v } }

/-- The shared synthesiser resource of a quadrant. -/
def Dev.res (d : Dev) (i : Nat) : SynRes := Tbl.get (fun _ => {}) d.rf.res i

/-- Set the shared synthesiser resource of a quadrant. -/
def Dev.setRes (d : Dev) (i : Nat) (v : SynRes) : Dev :=
  { d with rf := { d.rf with res := Tbl.set (fun _ => {}) d.rf.res i v } }

/-- The TX cell. -/
def Dev.tx (d : Dev) (i : Nat) : TxCell := Tbl.get (fun _ => {}) d.rf.tx i

/-- Set the TX cell. -/
def Dev.setTx (d : Dev) (i : Nat) (v : TxCell) : Dev :=
  { d with rf := { d.rf with tx := Tbl.set (fun _ => {}) d.rf.tx i v } }

/-- The RX cell. -/
def Dev.rx (d : Dev) (i : Nat) : RxCell := Tbl.get (fun _ => {}) d.rf.rx i

/-- Set the RX cell. -/
def Dev.setRx (d : Dev) (i : Nat) (v : RxCell) : Dev :=
  { d with rf := { d.rf with rx := Tbl.set (fun _ => {}) d.rf.rx i v } }

/-- The pending bursts of a cell (TARGET index). -/
def Dev.bursts (d : Dev) (i : Nat) : List Burst := Tbl.get (fun _ => []) d.rf.bursts i

/-- Set the pending bursts of a cell (TARGET index). -/
def Dev.setBursts (d : Dev) (i : Nat) (v : List Burst) : Dev :=
  { d with rf := { d.rf with bursts := Tbl.set (fun _ => []) d.rf.bursts i v } }

/-- FE_PA of a path is on. -/
def Dev.paPin (d : Dev) (i : Nat) : Bool := Tbl.get (fun _ => false) d.rf.pa i

/-- Set an FE_PA pin. -/
def Dev.setPaPin (d : Dev) (i : Nat) (v : Bool) : Dev :=
  { d with rf := { d.rf with pa := Tbl.set (fun _ => false) d.rf.pa i v } }

/-- The diversity pair. -/
def Dev.divp (d : Dev) (i : Nat) : DivPair := Tbl.get (fun _ => {}) d.rf.div i

/-- Set the diversity pair. -/
def Dev.setDivp (d : Dev) (i : Nat) (v : DivPair) : Dev :=
  { d with rf := { d.rf with div := Tbl.set (fun _ => {}) d.rf.div i v } }

/-- The block. -/
def Dev.block (d : Dev) (i : Nat) : Blk := Tbl.get (fun _ => {}) d.blk i

/-- Set the block. -/
def Dev.setBlock (d : Dev) (i : Nat) (v : Blk) : Dev :=
  { d with blk := Tbl.set (fun _ => {}) d.blk i v }

/-- The RX carrier, at 8·path + carrier. -/
def Dev.carrier (d : Dev) (i : Nat) : Carr := Tbl.get (fun _ => {}) d.carr i

/-- Set the RX carrier, at 8·path + carrier. -/
def Dev.setCarrier (d : Dev) (i : Nat) (v : Carr) : Dev :=
  { d with carr := Tbl.set (fun _ => {}) d.carr i v }

/-- The stream context. -/
def Dev.ctx (d : Dev) (i : Nat) : Ctx := Tbl.get (fun _ => {}) d.beam.ctx i

/-- Set the stream context. -/
def Dev.setCtx (d : Dev) (i : Nat) (v : Ctx) : Dev :=
  { d with beam := { d.beam with ctx := Tbl.set (fun _ => {}) d.beam.ctx i v } }

/-- The path processing of a TX cell. -/
def Dev.path (d : Dev) (i : Nat) : PathProc := Tbl.get (fun _ => {}) d.pp i

/-- Set the path processing of a TX cell. -/
def Dev.setPath (d : Dev) (i : Nat) (v : PathProc) : Dev :=
  { d with pp := Tbl.set (fun _ => {}) d.pp i v }

/-- The calibration engine of a quadrant. -/
def Dev.calq (d : Dev) (i : Nat) : Cal := Tbl.get (fun _ => {}) d.cal i

/-- Set the calibration engine of a quadrant. -/
def Dev.setCalq (d : Dev) (i : Nat) (v : Cal) : Dev :=
  { d with cal := Tbl.set (fun _ => {}) d.cal i v }

/-- The commit group. -/
def Dev.grp (d : Dev) (i : Nat) : Grp := Tbl.get (fun _ => {}) d.cmd.groups i

/-- Set the commit group. -/
def Dev.setGrp (d : Dev) (i : Nat) (v : Grp) : Dev :=
  { d with cmd := { d.cmd with groups := Tbl.set (fun _ => {}) d.cmd.groups i v } }

/-- The TS_HI latch of a port. -/
def Dev.latch (d : Dev) (i : Nat) : Nat := Tbl.get (fun _ => 0) d.tb.latch i

/-- Set the TS_HI latch of a port. -/
def Dev.setLatch (d : Dev) (i : Nat) (v : Nat) : Dev :=
  { d with tb := { d.tb with latch := Tbl.set (fun _ => 0) d.tb.latch i v } }

/-- The slack of a fabric (R59). -/
def Dev.slack (d : Dev) (i : Nat) : Nat := Tbl.get (fun _ => 255) d.tb.slack i

/-- Set the slack of a fabric (R59). -/
def Dev.setSlack (d : Dev) (i : Nat) (v : Nat) : Dev :=
  { d with tb := { d.tb with slack := Tbl.set (fun _ => 255) d.tb.slack i v } }

/-- The SLACK_LOW raised and not yet armed again. -/
def Dev.slackLow (d : Dev) (i : Nat) : Bool := Tbl.get (fun _ => false) d.tb.slackLow i

/-- Set the SLACK_LOW raised and not yet armed again. -/
def Dev.setSlackLow (d : Dev) (i : Nat) (v : Bool) : Dev :=
  { d with tb := { d.tb with slackLow := Tbl.set (fun _ => false) d.tb.slackLow i v } }

/-- The voltage code of a fabric (Table 15.5). -/
def Dev.fabV (d : Dev) (i : Nat) : Nat := Tbl.get (fun _ => 0x22) d.tb.fabV i

/-- Set the voltage code of a fabric (Table 15.5). -/
def Dev.setFabV (d : Dev) (i : Nat) (v : Nat) : Dev :=
  { d with tb := { d.tb with fabV := Tbl.set (fun _ => 0x22) d.tb.fabV i v } }

/-- The lane group. -/
def Dev.lg (d : Dev) (i : Nat) : Lg := Tbl.get (lgReset) d.link.lg i

/-- Set the lane group. -/
def Dev.setLg (d : Dev) (i : Nat) (v : Lg) : Dev :=
  { d with link := { d.link with lg := Tbl.set (lgReset) d.link.lg i v } }

/-- The lane. -/
def Dev.lane (d : Dev) (i : Nat) : Lane := Tbl.get (fun _ => {}) d.link.lane i

/-- Set the lane. -/
def Dev.setLane (d : Dev) (i : Nat) (v : Lane) : Dev :=
  { d with link := { d.link with lane := Tbl.set (fun _ => {}) d.link.lane i v } }

/-- The egress queue at 8·group + VC. -/
def Dev.egress (d : Dev) (i : Nat) : List Pkt := Tbl.get (fun _ => []) d.link.egress i

/-- Set the egress queue at 8·group + VC. -/
def Dev.setEgress (d : Dev) (i : Nat) (v : List Pkt) : Dev :=
  { d with link := { d.link with egress := Tbl.set (fun _ => []) d.link.egress i v } }

/-- The packet in transmission of a group. -/
def Dev.wire (d : Dev) (i : Nat) : Option Sent := Tbl.get (fun _ => none) d.link.wire i

/-- Set the packet in transmission of a group. -/
def Dev.setWire (d : Dev) (i : Nat) (v : Option Sent) : Dev :=
  { d with link := { d.link with wire := Tbl.set (fun _ => none) d.link.wire i v } }

/-- The packets of higher channels since the last VC7 packet. -/
def Dev.hiCount (d : Dev) (i : Nat) : Nat := Tbl.get (fun _ => 0) d.link.hi i

/-- Set the packets of higher channels since the last VC7 packet. -/
def Dev.setHiCount (d : Dev) (i : Nat) (v : Nat) : Dev :=
  { d with link := { d.link with hi := Tbl.set (fun _ => 0) d.link.hi i v } }

/-- The framing of a group. -/
def Dev.framed (d : Dev) (i : Nat) : Bool := Tbl.get (fun _ => false) d.link.framed i

/-- Set the framing of a group. -/
def Dev.setFramed (d : Dev) (i : Nat) (v : Bool) : Dev :=
  { d with link := { d.link with framed := Tbl.set (fun _ => false) d.link.framed i v } }

/-- The ingress check algorithm of a VC in effect. -/
def Dev.inPoly (d : Dev) (i : Nat) : Nat := Tbl.get (fun _ => 0) d.link.inPoly i

/-- Set the ingress check algorithm of a VC in effect. -/
def Dev.setInPoly (d : Dev) (i : Nat) (v : Nat) : Dev :=
  { d with link := { d.link with inPoly := Tbl.set (fun _ => 0) d.link.inPoly i v } }

/-- The egress check algorithm of a VC in effect. -/
def Dev.egPoly (d : Dev) (i : Nat) : Nat := Tbl.get (fun _ => 0) d.link.egPoly i

/-- Set the egress check algorithm of a VC in effect. -/
def Dev.setEgPoly (d : Dev) (i : Nat) (v : Nat) : Dev :=
  { d with link := { d.link with egPoly := Tbl.set (fun _ => 0) d.link.egPoly i v } }

/-- The vertex engine. -/
def Dev.eng (d : Dev) (i : Nat) : Ve := Tbl.get (fun _ => {}) d.ve i

/-- Set the vertex engine. -/
def Dev.setEng (d : Dev) (i : Nat) (v : Ve) : Dev :=
  { d with ve := Tbl.set (fun _ => {}) d.ve i v }

/-- The DMA channel: QDMAq.c at 8q + c, CDMAc at 32 + c. -/
def Dev.chan (d : Dev) (i : Nat) : Dma := Tbl.get (fun _ => {}) d.dma i

/-- Set the DMA channel: QDMAq.c at 8q + c, CDMAc at 32 + c. -/
def Dev.setChan (d : Dev) (i : Nat) (v : Dma) : Dev :=
  { d with dma := Tbl.set (fun _ => {}) d.dma i v }

/-- The event source. -/
def Dev.src (d : Dev) (i : Nat) : Src := Tbl.get (srcReset) d.hub.src i

/-- Set the event source. -/
def Dev.setSrc (d : Dev) (i : Nat) (v : Src) : Dev :=
  { d with hub := { d.hub with src := Tbl.set (srcReset) d.hub.src i v } }

/-- The event target. -/
def Dev.tgt (d : Dev) (i : Nat) : Tgt := Tbl.get (fun _ => {}) d.hub.tgt i

/-- Set the event target. -/
def Dev.setTgt (d : Dev) (i : Nat) (v : Tgt) : Dev :=
  { d with hub := { d.hub with tgt := Tbl.set (fun _ => {}) d.hub.tgt i v } }

/-- The power domain. -/
def Dev.dom (d : Dev) (i : Nat) : Dom := Tbl.get (fun _ => {}) d.pwr.dom i

/-- Set the power domain. -/
def Dev.setDom (d : Dev) (i : Nat) (v : Dom) : Dev :=
  { d with pwr := { d.pwr with dom := Tbl.set (fun _ => {}) d.pwr.dom i v } }

/-- The thermal sensor. -/
def Dev.sensor (d : Dev) (i : Nat) : Sensor := Tbl.get (fun _ => {}) d.pwr.sens i

/-- Set the thermal sensor. -/
def Dev.setSensor (d : Dev) (i : Nat) (v : Sensor) : Dev :=
  { d with pwr := { d.pwr with sens := Tbl.set (fun _ => {}) d.pwr.sens i v } }

/-- The supply channel 24 + r. -/
def Dev.supply (d : Dev) (i : Nat) : Supply := Tbl.get (fun _ => {}) d.pwr.sup i

/-- Set the supply channel 24 + r. -/
def Dev.setSupply (d : Dev) (i : Nat) (v : Supply) : Dev :=
  { d with pwr := { d.pwr with sup := Tbl.set (fun _ => {}) d.pwr.sup i v } }

/-- The AUXMON channel. -/
def Dev.auxMon (d : Dev) (i : Nat) : Aux := Tbl.get (fun _ => {}) d.pwr.aux i

/-- Set the AUXMON channel. -/
def Dev.setAuxMon (d : Dev) (i : Nat) (v : Aux) : Dev :=
  { d with pwr := { d.pwr with aux := Tbl.set (fun _ => {}) d.pwr.aux i v } }

/-- The lattice member at the head. -/
def Dev.member (d : Dev) (i : Nat) : Member := Tbl.get (fun _ => {}) d.lat.mem i

/-- Set the lattice member at the head. -/
def Dev.setMember (d : Dev) (i : Nat) (v : Member) : Dev :=
  { d with lat := { d.lat with mem := Tbl.set (fun _ => {}) d.lat.mem i v } }

/-- The boundary cell. -/
def Dev.bcell (d : Dev) (i : Nat) : Bool := Tbl.get (fun _ => false) d.jtag.boundary i

/-- Set the boundary cell. -/
def Dev.setBcell (d : Dev) (i : Nat) (v : Bool) : Dev :=
  { d with jtag := { d.jtag with boundary := Tbl.set (fun _ => false) d.jtag.boundary i v } }

end Sys2Proof.Machine
end

