-- ==== Sys2Proof/Machine/RegMap.lean ====
section
/-! DEFINITION. The register space: which address is which register (R84, Tables 3.8 and 3.9), the fields of each
register with their access codes and reset values, and the memories. -/

namespace Sys2Proof.Machine

/-- A register of the block. Indices are those of the owning chapter's field map. -/
inductive Reg where
  | ident (w : Nat)                     -- Table 3.10 and the capability list, word number
  | cgStat (g : Nat) | cgBndLo (g : Nat) | cgBndHi (g : Nat)     -- Table 3.11
  | tbCtrl | tbStatus | frameNext | tsLo | tsHi | slack0 | slack1 | slackCfg | tbAlign   -- Table 2.4
  | btCtrl (t : Nat) | btEntry (t e : Nat)
  | srcCfg (s : Nat) | enW (w : Nat) | enSet | enClr | pendW (w : Nat) | pendSet | pendClr | actW (w : Nat)   -- 14.4
  | srcQ (s : Nat)
  | tgt (t k : Nat)                     -- Table 14.5, k = 0 THR, 1 CLAIM, 2 DONE, 3–6 INFO, 7 STAT
  | dmaR (ch k : Nat)                   -- Table 13.1, k = offset / 4
  | pqLevel (u k : Nat) | pqAdd (u k : Nat)
  | pwrStat | pmCfg | plMin | psReq | psStat (w : Nat) | hkGov | hkTemp (i : Nat) | hkSup (r : Nat) | hkAux (a : Nat)
  | auxLim (a : Nat) | plStep (k : Nat) | fabV0 | fabV1          -- Table 15.5
  | lgCfg (g : Nat) | lgStat (g : Nat) | lgMask (g : Nat) | lgPeer (g : Nat) | lgPeerId (g : Nat) | lgShed (g : Nat)
  | laneCtrl (n : Nat) | laneStat (n : Nat) | laneDfe (n t : Nat)   -- Tables 10.7, 10.8
  | vcChk (v : Nat) | pktStat | cuCfg (k : Nat) | cuInit (k : Nat) | cuVal (k : Nat) | cuFeed (k : Nat)
  | cuFeed8 (k : Nat) | cuRes (k : Nat)                          -- Table 11.10
  | latCfg | chordStat                                           -- Tables 16.3, 7.5
  | feBudget | fePaLead | fePaLag | feTrLead | feTrLag | feMode (p : Nat) | feAux (b : Nat)
  | fePaPins (i : Nat) | feTrPins (i : Nat) | feAuxPins          -- Table 4.9
  | synFreq (n : Nat) | synCtrl (n : Nat) | synStat (n : Nat) | synPhase (n : Nat)   -- Table 4.3
  | ctxCfg (x : Nat) | ctxLo (x : Nat) | ctxHi (x : Nat) | ctxStat (x : Nat) | ctxEntry (x : Nat) | ctxScnt (x : Nat)
  | sched (x r k : Nat)                                          -- Tables 7.1, 7.2
  | pathCfg (p : Nat) | cfrCfg (p : Nat) | dpdCfg (p : Nat) | dpdGrd (p : Nat) | dpdSwap (p : Nat) | dpdStat (p : Nat)
  | ppStat (p : Nat) | pulseLen (q t : Nat) | pulseTap (q t i : Nat)   -- Table 8.6
  | calCtrl (q : Nat) | calBgper (q : Nat) | calStat (q : Nat) | calBgnow (q : Nat) | calClass (p : Nat)
  | calPts (p : Nat) | calPtsOrx (b : Nat) | calMatch (q : Nat)        -- Table 9.6
  | divCtrl (k : Nat) | divDet (k : Nat) | divStat (k : Nat) | divSeq (k w : Nat)   -- Table 4.12, pair k
  | orxCtrl (b : Nat) | orxAtt (b : Nat) | orxStat (b : Nat)           -- Table 5.9
  | rffeCfg (b : Nat) | rffeStat (b : Nat) | txn (b s : Nat) | txData (b s k : Nat) | txCtl (b s : Nat)
  | timed (b e k : Nat)                                          -- Table 4.11, k = 0 TXN, 1 DATA, 2 trigger
  | capMap (b : Nat) | capRel (b : Nat) | creq (b s k : Nat) | cctl (b s : Nat)     -- Table 8.7
  | cellLo (c : Nat) | winCtrl (c : Nat) | cellSeq (c : Nat) | winStart (c w : Nat) | winLen (c w : Nat)   -- 4.4
  | convCfg (c : Nat) | convStat (c : Nat)                       -- Tables 5.7, 5.8
  | chainCfg (c : Nat) | carrCfg (c k : Nat) | carrBridge (c k : Nat) | carrNco (c k : Nat) | carrPhase (c k : Nat)
  | carrGain (c k : Nat) | carrStat (c k : Nat)                  -- Table 6.7
deriving DecidableEq, Repr

/-! ## Addresses -/

/-- The base of quadrant `q` (R84). -/
def quadBase (q : Nat) : Nat := 0x01000000 + q * 0x01000000

/-- The block window of block `b` (Table 1.2). -/
def blockBase (b : Nat) : Nat := quadBase (b / 4) + 0x00100000 + (b % 4) * 0x10000

/-- The cell window of a cell by its TARGET index (Tables 1.2, 1.3). -/
def cellBase (c : Nat) : Nat :=
  if c < 64 then blockBase (c / 4) + 0x4000 + (c % 4) * 0x1000
  else blockBase ((c - 64) / 4) + 0x8000 + (c % 4) * 0x1000

/-- The base of DMA channel `ch`: QDMAq.c at 8q + c, CDMAc at 32 + c (R318). -/
def dmaBase (ch : Nat) : Nat :=
  if ch < 32 then quadBase (ch / 8) + 0x10000 + 0x40 * (ch % 8) else 0x00040000 + 0x40 * (ch - 32)

/-- The DMA unit base: quadrants 0–3, 4 the chip (R318). -/
def dmaUnitBase (u : Nat) : Nat := if u < 4 then quadBase u + 0x10000 else 0x00040000

/-- The capture buffer of block `b` (R210). -/
def capBase (b : Nat) : Nat := quadBase (b / 4) + 0x00080000 + (b % 4) * 0x20000

/-- The local window of engine `e` (Table 3.9). -/
def engBase (e : Nat) : Nat := quadBase (e / 4) + 0x00400000 + (e % 4) * 0x100000

/-- Shared memory of quadrant `q` and of the chip (Tables 3.8, 3.9). -/
def quadMem (q : Nat) : Nat := quadBase q + 0x00C00000
abbrev chipMem : Nat := 0x00800000

/-- The path-processing window of path `p` (Table 8.6). -/
def ppBase (p : Nat) : Nat := quadBase (p / 16) + 0x30000 + 0x100 * (p % 16)

/-- The address of a register; context registers answer in every quadrant and are kept at quadrant 0 (R170). -/
def Reg.addr : Reg → Nat
  | .ident w => 4 * w
  | .cgStat g => 0x10000 + 4 * g
  | .cgBndLo g => 0x10100 + 8 * g
  | .cgBndHi g => 0x10104 + 8 * g
  | .tbCtrl => 0x20000
  | .tbStatus => 0x20004
  | .frameNext => 0x20008
  | .tsLo => 0x20010
  | .tsHi => 0x20014
  | .slack0 => 0x20030
  | .slack1 => 0x20034
  | .slackCfg => 0x20038
  | .tbAlign => 0x20040
  | .btCtrl t => 0x20100 + 4 * t
  | .btEntry t e => 0x28000 + t * 0x800 + 4 * e
  | .srcCfg s => 0x30000 + 4 * s
  | .enW w => 0x30800 + 4 * w
  | .enSet => 0x30840
  | .enClr => 0x30844
  | .pendW w => 0x30880 + 4 * w
  | .pendSet => 0x308C0
  | .pendClr => 0x308C4
  | .actW w => 0x30900 + 4 * w
  | .srcQ s => 0x31000 + 4 * s
  | .tgt t k => 0x32000 + 0x40 * t + 4 * k
  | .dmaR ch k => dmaBase ch + 4 * k
  | .pqLevel u k => dmaUnitBase u + 0x800 + 8 * k
  | .pqAdd u k => dmaUnitBase u + 0x804 + 8 * k
  | .pwrStat => 0x50000
  | .pmCfg => 0x50004
  | .plMin => 0x50008
  | .psReq => 0x50020
  | .psStat w => 0x50040 + 4 * w
  | .hkGov => 0x50100
  | .hkTemp i => 0x50200 + 4 * i
  | .hkSup r => 0x50260 + 4 * r
  | .hkAux a => 0x50280 + 4 * a
  | .auxLim a => 0x502A0 + 4 * a
  | .plStep k => 0x50300 + 4 * k
  | .fabV0 => 0x50400
  | .fabV1 => 0x50404
  | .lgCfg g => 0x60000 + 0x100 * g
  | .lgStat g => 0x60004 + 0x100 * g
  | .lgMask g => 0x60008 + 0x100 * g
  | .lgPeer g => 0x6000C + 0x100 * g
  | .lgPeerId g => 0x60010 + 0x100 * g
  | .lgShed g => 0x60014 + 0x100 * g
  | .laneCtrl n => 0x61000 + 0x40 * n
  | .laneStat n => 0x61004 + 0x40 * n
  | .laneDfe n t => 0x61008 + 0x40 * n + 4 * t
  | .vcChk v => 0x70000 + 4 * v
  | .pktStat => 0x70040
  | .cuCfg k => 0x70100 + 0x20 * k
  | .cuInit k => 0x70104 + 0x20 * k
  | .cuVal k => 0x70108 + 0x20 * k
  | .cuFeed k => 0x7010C + 0x20 * k
  | .cuFeed8 k => 0x70110 + 0x20 * k
  | .cuRes k => 0x70114 + 0x20 * k
  | .latCfg => 0x80000
  | .chordStat => 0x80010
  | .feBudget => 0x90000
  | .fePaLead => 0x90004
  | .fePaLag => 0x90008
  | .feTrLead => 0x9000C
  | .feTrLag => 0x90010
  | .feMode p => 0x90100 + 4 * p
  | .feAux b => 0x90200 + 4 * b
  | .fePaPins i => 0x90300 + 4 * i
  | .feTrPins i => 0x90308 + 4 * i
  | .feAuxPins => 0x90310
  | .synFreq n => quadBase (n / 2) + 0x100 + (n % 2) * 0x20
  | .synCtrl n => quadBase (n / 2) + 0x104 + (n % 2) * 0x20
  | .synStat n => quadBase (n / 2) + 0x108 + (n % 2) * 0x20
  | .synPhase n => quadBase (n / 2) + 0x10C + (n % 2) * 0x20
  | .ctxCfg x => quadBase 0 + 0x21000 + 0x20 * x
  | .ctxLo x => quadBase 0 + 0x21004 + 0x20 * x
  | .ctxHi x => quadBase 0 + 0x21008 + 0x20 * x
  | .ctxStat x => quadBase 0 + 0x2100C + 0x20 * x
  | .ctxEntry x => quadBase 0 + 0x21010 + 0x20 * x
  | .ctxScnt x => quadBase 0 + 0x21014 + 0x20 * x
  | .sched x r k => quadBase 0 + 0x24000 + 0x180 * x + 0x80 * r + 4 * k
  | .pathCfg p => ppBase p
  | .cfrCfg p => ppBase p + 0x04
  | .dpdCfg p => ppBase p + 0x08
  | .dpdGrd p => ppBase p + 0x0C
  | .dpdSwap p => ppBase p + 0x10
  | .dpdStat p => ppBase p + 0x14
  | .ppStat p => ppBase p + 0x18
  | .pulseLen q t => quadBase q + 0x38000 + 0x400 * t
  | .pulseTap q t i => quadBase q + 0x38200 + 0x400 * t + 4 * i
  | .calCtrl q => quadBase q + 0x40000
  | .calBgper q => quadBase q + 0x40004
  | .calStat q => quadBase q + 0x40008
  | .calBgnow q => quadBase q + 0x4000C
  | .calClass p => quadBase (p / 16) + 0x40100 + 4 * (p % 16)
  | .calPts p => quadBase (p / 16) + 0x40200 + 4 * (p % 16)
  | .calPtsOrx b => quadBase (b / 4) + 0x40240 + 4 * (b % 4)
  | .calMatch q => quadBase q + 0x40280
  | .divCtrl k => blockBase (k / 2) + 0x100 + 0x10 * (k % 2)
  | .divDet k => blockBase (k / 2) + 0x104 + 0x10 * (k % 2)
  | .divStat k => blockBase (k / 2) + 0x108 + 0x10 * (k % 2)
  | .divSeq k w => blockBase (k / 2) + 0x800 + 0x400 * (k % 2) + 4 * w
  | .orxCtrl b => blockBase b + 0x1000
  | .orxAtt b => blockBase b + 0x1004
  | .orxStat b => blockBase b + 0x1008
  | .rffeCfg b => blockBase b + 0x2000
  | .rffeStat b => blockBase b + 0x2004
  | .txn b s => blockBase b + 0x2040 + 0x20 * s
  | .txData b s k => blockBase b + 0x2044 + 0x20 * s + 4 * k
  | .txCtl b s => blockBase b + 0x2054 + 0x20 * s
  | .timed b e k => blockBase b + 0x2200 + 16 * e + 4 * k
  | .capMap b => blockBase b + 0x3000
  | .capRel b => blockBase b + 0x3004
  | .creq b s k => blockBase b + 0x3040 + 0x20 * s + 4 * k
  | .cctl b s => blockBase b + 0x304C + 0x20 * s
  | .cellLo c => cellBase c
  | .winCtrl c => cellBase c + 0x004
  | .cellSeq c => cellBase c + 0x008
  | .winStart c w => cellBase c + 0x100 + 8 * w
  | .winLen c w => cellBase c + 0x104 + 8 * w
  | .convCfg c => cellBase c + 0x200
  | .convStat c => cellBase c + 0x204
  | .chainCfg c => cellBase c + 0x400
  | .carrCfg c k => cellBase c + 0x500 + 0x20 * k
  | .carrBridge c k => cellBase c + 0x504 + 0x20 * k
  | .carrNco c k => cellBase c + 0x508 + 0x20 * k
  | .carrPhase c k => cellBase c + 0x50C + 0x20 * k
  | .carrGain c k => cellBase c + 0x510 + 0x20 * k
  | .carrStat c k => cellBase c + 0x514 + 0x20 * k

/-- The chip-level register at an address below 0x000A_0000. -/
def chipReg (a : Nat) : Option Reg :=
  let o := a % 0x10000
  match a / 0x10000 with
  | 0 => some (.ident (o / 4))
  | 1 =>
    if o < 0x40 then some (.cgStat (o / 4))
    else if 0x100 ≤ o ∧ o < 0x180 then
      (if o % 8 = 0 then some (.cgBndLo ((o - 0x100) / 8)) else some (.cgBndHi ((o - 0x100) / 8)))
    else none
  | 2 =>
    if o = 0 then some .tbCtrl else if o = 4 then some .tbStatus else if o = 8 then some .frameNext
    else if o = 0x10 then some .tsLo else if o = 0x14 then some .tsHi
    else if o = 0x30 then some .slack0 else if o = 0x34 then some .slack1 else if o = 0x38 then some .slackCfg
    else if o = 0x40 then some .tbAlign
    else if 0x100 ≤ o ∧ o < 0x140 then some (.btCtrl ((o - 0x100) / 4))
    else if 0x8000 ≤ o then some (.btEntry ((o - 0x8000) / 0x800) ((o - 0x8000) % 0x800 / 4))
    else none
  | 3 =>
    if 4 ≤ o ∧ o < 0x800 then some (.srcCfg (o / 4))
    else if 0x800 ≤ o ∧ o < 0x840 then some (.enW ((o - 0x800) / 4))
    else if o = 0x840 then some .enSet else if o = 0x844 then some .enClr
    else if 0x880 ≤ o ∧ o < 0x8C0 then some (.pendW ((o - 0x880) / 4))
    else if o = 0x8C0 then some .pendSet else if o = 0x8C4 then some .pendClr
    else if 0x900 ≤ o ∧ o < 0x940 then some (.actW ((o - 0x900) / 4))
    else if 0x1004 ≤ o ∧ o < 0x1800 then some (.srcQ ((o - 0x1000) / 4))
    else if 0x2000 ≤ o ∧ o < 0x2500 ∧ (o - 0x2000) % 0x40 < 0x20 then
      some (.tgt ((o - 0x2000) / 0x40) ((o - 0x2000) % 0x40 / 4))
    else none
  | 4 =>
    if o < 0x400 ∧ o % 0x40 < 0x20 then some (.dmaR (32 + o / 0x40) (o % 0x40 / 4))
    else if 0x800 ≤ o ∧ o < 0x880 then
      (if o % 8 = 0 then some (.pqLevel 4 ((o - 0x800) / 8)) else some (.pqAdd 4 ((o - 0x800) / 8)))
    else none
  | 5 =>
    if o = 0 then some .pwrStat else if o = 4 then some .pmCfg else if o = 8 then some .plMin
    else if o = 0x20 then some .psReq
    else if 0x40 ≤ o ∧ o < 0x68 then some (.psStat ((o - 0x40) / 4))
    else if o = 0x100 then some .hkGov
    else if 0x200 ≤ o ∧ o < 0x260 then some (.hkTemp ((o - 0x200) / 4))
    else if 0x260 ≤ o ∧ o < 0x280 then some (.hkSup ((o - 0x260) / 4))
    else if 0x280 ≤ o ∧ o < 0x2A0 then some (.hkAux ((o - 0x280) / 4))
    else if 0x2A0 ≤ o ∧ o < 0x2C0 then some (.auxLim ((o - 0x2A0) / 4))
    else if 0x300 ≤ o ∧ o < 0x320 then some (.plStep ((o - 0x300) / 4))
    else if o = 0x400 then some .fabV0 else if o = 0x404 then some .fabV1
    else none
  | 6 =>
    if o < 0x300 then
      (match o % 0x100 / 4 with
       | 0 => some (.lgCfg (o / 0x100))
       | 1 => some (.lgStat (o / 0x100))
       | 2 => some (.lgMask (o / 0x100))
       | 3 => some (.lgPeer (o / 0x100))
       | 4 => some (.lgPeerId (o / 0x100))
       | 5 => some (.lgShed (o / 0x100))
       | _ => none)
    else if 0x1000 ≤ o ∧ o < 0x1400 then
      (match (o - 0x1000) % 0x40 / 4 with
       | 0 => some (.laneCtrl ((o - 0x1000) / 0x40))
       | 1 => some (.laneStat ((o - 0x1000) / 0x40))
       | k + 2 => if k < 12 then some (.laneDfe ((o - 0x1000) / 0x40) k) else none)
    else none
  | 7 =>
    if o < 0x20 then some (.vcChk (o / 4)) else if o = 0x40 then some .pktStat
    else if 0x100 ≤ o ∧ o < 0x180 then
      (match (o - 0x100) % 0x20 / 4 with
       | 0 => some (.cuCfg ((o - 0x100) / 0x20))
       | 1 => some (.cuInit ((o - 0x100) / 0x20))
       | 2 => some (.cuVal ((o - 0x100) / 0x20))
       | 3 => some (.cuFeed ((o - 0x100) / 0x20))
       | 4 => some (.cuFeed8 ((o - 0x100) / 0x20))
       | 5 => some (.cuRes ((o - 0x100) / 0x20))
       | _ => none)
    else none
  | 8 => if o = 0 then some .latCfg else if o = 0x10 then some .chordStat else none
  | 9 =>
    if o = 0 then some .feBudget else if o = 4 then some .fePaLead else if o = 8 then some .fePaLag
    else if o = 0xC then some .feTrLead else if o = 0x10 then some .feTrLag
    else if 0x100 ≤ o ∧ o < 0x200 then some (.feMode ((o - 0x100) / 4))
    else if 0x200 ≤ o ∧ o < 0x240 then some (.feAux ((o - 0x200) / 4))
    else if o = 0x300 ∨ o = 0x304 then some (.fePaPins ((o - 0x300) / 4))
    else if o = 0x308 ∨ o = 0x30C then some (.feTrPins ((o - 0x308) / 4))
    else if o = 0x310 then some .feAuxPins
    else none
  | _ => none

/-- The register at offset `o` of a cell window (Tables 4.4, 5.7, 5.8, 6.7). -/
def cellReg (c o : Nat) : Option Reg :=
  if o = 0 then some (.cellLo c) else if o = 4 then some (.winCtrl c) else if o = 8 then some (.cellSeq c)
  else if 0x100 ≤ o ∧ o < 0x200 then
    (if o % 8 = 0 then some (.winStart c ((o - 0x100) / 8)) else some (.winLen c ((o - 0x100) / 8)))
  else if o = 0x200 then some (.convCfg c) else if o = 0x204 then some (.convStat c)
  else if o = 0x400 then some (.chainCfg c)
  else if 0x500 ≤ o ∧ o < 0x600 then
    (match (o - 0x500) % 0x20 / 4 with
     | 0 => some (.carrCfg c ((o - 0x500) / 0x20))
     | 1 => some (.carrBridge c ((o - 0x500) / 0x20))
     | 2 => some (.carrNco c ((o - 0x500) / 0x20))
     | 3 => some (.carrPhase c ((o - 0x500) / 0x20))
     | 4 => some (.carrGain c ((o - 0x500) / 0x20))
     | 5 => some (.carrStat c ((o - 0x500) / 0x20))
     | _ => none)
  else none

/-- The register at offset `o` of block `b`'s window (Table 1.3). -/
def blockReg (b o : Nat) : Option Reg :=
  if o < 0x1000 then
    (if 0x100 ≤ o ∧ o < 0x120 then
      (match o % 0x10 / 4 with
       | 0 => some (.divCtrl (2 * b + (o - 0x100) / 0x10))
       | 1 => some (.divDet (2 * b + (o - 0x100) / 0x10))
       | 2 => some (.divStat (2 * b + (o - 0x100) / 0x10))
       | _ => none)
     else if 0x800 ≤ o then some (.divSeq (2 * b + (o - 0x800) / 0x400) ((o - 0x800) % 0x400 / 4))
     else none)
  else if o < 0x2000 then
    (if o = 0x1000 then some (.orxCtrl b) else if o = 0x1004 then some (.orxAtt b)
     else if o = 0x1008 then some (.orxStat b) else none)
  else if o < 0x3000 then
    (if o = 0x2000 then some (.rffeCfg b) else if o = 0x2004 then some (.rffeStat b)
     else if 0x2040 ≤ o ∧ o < 0x20E0 then
      (match (o - 0x2040) % 0x20 / 4 with
       | 0 => some (.txn b ((o - 0x2040) / 0x20))
       | 5 => some (.txCtl b ((o - 0x2040) / 0x20))
       | k + 1 => if k < 4 then some (.txData b ((o - 0x2040) / 0x20) k) else none)
     else if 0x2200 ≤ o ∧ o < 0x2300 ∧ (o - 0x2200) % 16 / 4 < 3 then
      some (.timed b ((o - 0x2200) / 16) ((o - 0x2200) % 16 / 4))
     else none)
  else if o < 0x4000 then
    (if o = 0x3000 then some (.capMap b) else if o = 0x3004 then some (.capRel b)
     else if 0x3040 ≤ o ∧ o < 0x30E0 then
      (match (o - 0x3040) % 0x20 / 4 with
       | 3 => some (.cctl b ((o - 0x3040) / 0x20))
       | k => if k < 3 then some (.creq b ((o - 0x3040) / 0x20) k) else none)
     else none)
  else if o < 0x8000 then cellReg (4 * b + (o - 0x4000) / 0x1000) (o % 0x1000)
  else if o < 0xC000 then cellReg (64 + 4 * b + (o - 0x8000) / 0x1000) (o % 0x1000)
  else none

/-- The register at offset `o` of quadrant `q` (Table 3.9). -/
def quadReg (q o : Nat) : Option Reg :=
  if o < 0x10000 then
    (if 0x100 ≤ o ∧ o < 0x140 then
      (match o % 0x20 / 4 with
       | 0 => some (.synFreq (2 * q + (o - 0x100) / 0x20))
       | 1 => some (.synCtrl (2 * q + (o - 0x100) / 0x20))
       | 2 => some (.synStat (2 * q + (o - 0x100) / 0x20))
       | 3 => some (.synPhase (2 * q + (o - 0x100) / 0x20))
       | _ => none)
     else none)
  else if o < 0x20000 then
    (let r := o - 0x10000
     if r < 0x200 ∧ r % 0x40 < 0x20 then some (.dmaR (8 * q + r / 0x40) (r % 0x40 / 4))
     else if 0x800 ≤ r ∧ r < 0x880 then
      (if r % 8 = 0 then some (.pqLevel q ((r - 0x800) / 8)) else some (.pqAdd q ((r - 0x800) / 8)))
     else none)
  else if o < 0x30000 then
    (let r := o - 0x20000
     if 0x1000 ≤ r ∧ r < 0x2000 then
      (match (r - 0x1000) % 0x20 / 4 with
       | 0 => some (.ctxCfg ((r - 0x1000) / 0x20))
       | 1 => some (.ctxLo ((r - 0x1000) / 0x20))
       | 2 => some (.ctxHi ((r - 0x1000) / 0x20))
       | 3 => some (.ctxStat ((r - 0x1000) / 0x20))
       | 4 => some (.ctxEntry ((r - 0x1000) / 0x20))
       | 5 => some (.ctxScnt ((r - 0x1000) / 0x20))
       | _ => none)
     else if 0x4000 ≤ r then
      some (.sched ((r - 0x4000) / 0x180) ((r - 0x4000) % 0x180 / 0x80) ((r - 0x4000) % 0x80 / 4))
     else none)
  else if o < 0x40000 then
    (let r := o - 0x30000
     if r < 0x1000 then
      (match r % 0x100 / 4 with
       | 0 => some (.pathCfg (16 * q + r / 0x100))
       | 1 => some (.cfrCfg (16 * q + r / 0x100))
       | 2 => some (.dpdCfg (16 * q + r / 0x100))
       | 3 => some (.dpdGrd (16 * q + r / 0x100))
       | 4 => some (.dpdSwap (16 * q + r / 0x100))
       | 5 => some (.dpdStat (16 * q + r / 0x100))
       | 6 => some (.ppStat (16 * q + r / 0x100))
       | _ => none)
     else if 0x8000 ≤ r ∧ r < 0x9000 then
      (if r % 0x400 = 0 then some (.pulseLen q ((r - 0x8000) / 0x400))
       else if 0x200 ≤ r % 0x400 then some (.pulseTap q ((r - 0x8000) / 0x400) ((r % 0x400 - 0x200) / 4))
       else none)
     else none)
  else if o < 0x50000 then
    (let r := o - 0x40000
     if r = 0 then some (.calCtrl q) else if r = 4 then some (.calBgper q) else if r = 8 then some (.calStat q)
     else if r = 0xC then some (.calBgnow q)
     else if 0x100 ≤ r ∧ r < 0x140 then some (.calClass (16 * q + (r - 0x100) / 4))
     else if 0x200 ≤ r ∧ r < 0x240 then some (.calPts (16 * q + (r - 0x200) / 4))
     else if 0x240 ≤ r ∧ r < 0x250 then some (.calPtsOrx (4 * q + (r - 0x240) / 4))
     else if r = 0x280 then some (.calMatch q) else none)
  else if 0x100000 ≤ o ∧ o < 0x140000 then blockReg (4 * q + (o - 0x100000) / 0x10000) (o % 0x10000)
  else none

/-- What an address is (R84, R300). `reserved` is a word of a register region or block window that holds no register. -/
inductive Place where
  | reg (r : Reg)
  | reserved
  | chipMem
  | quadMem (q : Nat)
  | capture (b : Nat)
  | imem (e : Nat)
  | dmem (e : Nat)
  | ctrl (e o : Nat)
  | unmapped
deriving DecidableEq, Repr

/-- What lies at a word address. -/
def placeAt (a : Nat) : Place :=
  if a % 4 ≠ 0 then .unmapped
  else if a < 0xA0000 then (match chipReg a with | some r => .reg r | none => .reserved)
  else if a < 0x800000 then .unmapped
  else if a < 0x1000000 then .chipMem
  else if a < 0x5000000 then
    (let q := a / 0x1000000 - 1
     let o := a % 0x1000000
     if o < 0x50000 ∨ (0x100000 ≤ o ∧ o < 0x140000) then
      (match quadReg q o with | some r => .reg r | none => .reserved)
     else if 0x80000 ≤ o ∧ o < 0x100000 then .capture (4 * q + (o - 0x80000) / 0x20000)
     else if 0x400000 ≤ o ∧ o < 0x800000 then
      (let e := 4 * q + (o - 0x400000) / 0x100000
       let w := o % 0x100000
       if w < 0x10000 then .imem e else if w < 0x40000 then .dmem e
       else if 0x80000 ≤ w ∧ w < 0x81000 then .ctrl e (w - 0x80000) else .unmapped)
     else if 0xC00000 ≤ o ∧ o < 0xF00000 then .quadMem q
     else .unmapped)
  else .unmapped

/-- Every word of a range is mapped and aligned (R83). Ranges of commands hold at most 255 words. -/
def rangeMapped : Nat → Nat → Bool
  | _, 0 => true
  | a, n + 1 => decide (placeAt a ≠ .unmapped) && rangeMapped (a + 4) n

/-! ## Fields -/

/-- Access codes (Table 0.3). `lvu` is an LV field that its unit holds: a write acts, a read returns the unit's state. -/
inductive Acc where
  | rw | ro | wo | st | lv | lvu
deriving DecidableEq, Repr

/-- One field of a register: low bit, width, access code and reset value. -/
structure FieldD where
  lo : Nat
  width : Nat
  acc : Acc
  rst : Nat := 0
deriving DecidableEq, Repr

/-- The reset value of SRC_CFG (Table 14.4, R340). -/
def srcPrioReset (s : Nat) : Nat := if s = 1 then 15 else if isFaultSource s then 1 else 0
def srcMaskReset (s : Nat) : Nat := if s = 1 ∨ isFaultSource s then 0x10000 else 0

/-- The fields of each register, as the field maps list them. RO registers are listed as one RO field. -/
def Reg.fields : Reg → List FieldD
  | .ident _ => [⟨0, 32, .ro, 0⟩]
  | .cgStat _ => [⟨0, 32, .ro, 0⟩]
  | .cgBndLo _ => [⟨0, 32, .ro, 0⟩]
  | .cgBndHi _ => [⟨0, 32, .ro, 0⟩]
  | .tbCtrl => [⟨0, 1, .wo, 0⟩]
  | .tbStatus => [⟨0, 32, .ro, 0⟩]
  | .frameNext => [⟨0, 23, .rw, 0⟩]
  | .tsLo => [⟨0, 32, .ro, 0⟩]
  | .tsHi => [⟨0, 32, .ro, 0⟩]
  | .slack0 => [⟨0, 32, .ro, 0⟩]
  | .slack1 => [⟨0, 32, .ro, 0⟩]
  | .slackCfg => [⟨0, 8, .rw, 72⟩, ⟨8, 8, .rw, 80⟩]
  | .tbAlign => [⟨0, 8, .ro, 0⟩, ⟨8, 8, .rw, 2⟩, ⟨16, 16, .ro, 0⟩]
  | .btCtrl _ => [⟨0, 10, .st, 1⟩, ⟨12, 3, .st, 5⟩]
  | .btEntry _ _ => [⟨0, 25, .st, 0⟩, ⟨30, 2, .st, 2⟩]
  | .srcCfg s => [⟨0, 20, .st, srcMaskReset s⟩, ⟨24, 4, .st, srcPrioReset s⟩]
  | .enW _ => [⟨0, 32, .lvu, 0⟩]
  | .enSet => [⟨0, 9, .wo, 0⟩]
  | .enClr => [⟨0, 9, .wo, 0⟩]
  | .pendW _ => [⟨0, 32, .lvu, 0⟩]
  | .pendSet => [⟨0, 9, .wo, 0⟩]
  | .pendClr => [⟨0, 9, .wo, 0⟩]
  | .actW _ => [⟨0, 32, .lvu, 0⟩]
  | .srcQ _ => [⟨0, 32, .ro, 0⟩]
  | .tgt _ k =>
    match k with
    | 0 => [⟨0, 4, .st, 0⟩]
    | 1 => [⟨0, 10, .lvu, 0⟩]
    | 2 => [⟨0, 9, .wo, 0⟩]
    | _ => [⟨0, 32, .ro, 0⟩]
  | .dmaR _ k =>
    match k with
    | 0 => [⟨0, 32, .lv, 0⟩]
    | 1 => [⟨0, 32, .lv, 0⟩]
    | 2 => [⟨0, 24, .lv, 0⟩]
    | 3 => [⟨0, 1, .lvu, 0⟩, ⟨2, 1, .wo, 0⟩, ⟨3, 1, .wo, 0⟩, ⟨4, 1, .lv, 0⟩, ⟨8, 1, .lv, 0⟩, ⟨9, 1, .lv, 0⟩,
            ⟨12, 1, .lv, 0⟩, ⟨16, 7, .lv, 64⟩, ⟨27, 1, .lv, 0⟩, ⟨28, 4, .lv, 3⟩]
    | 4 => [⟨0, 13, .lv, 0⟩, ⟨14, 13, .lv, 0⟩, ⟨27, 5, .lv, 0⟩]
    | _ => [⟨0, 32, .ro, 0⟩]
  | .pqLevel _ _ => [⟨0, 16, .lv, 0⟩]
  | .pqAdd _ _ => [⟨0, 16, .wo, 0⟩]
  | .pwrStat => [⟨0, 32, .ro, 0⟩]
  | .pmCfg => [⟨0, 8, .st, 2⟩, ⟨8, 8, .st, 110⟩]
  | .plMin => [⟨0, 3, .lv, 0⟩]
  | .psReq => [⟨0, 9, .wo, 0⟩, ⟨31, 1, .wo, 0⟩]
  | .psStat _ => [⟨0, 32, .ro, 0⟩]
  | .hkGov => [⟨0, 32, .ro, 0⟩]
  | .hkTemp _ => [⟨0, 32, .ro, 0⟩]
  | .hkSup _ => [⟨0, 32, .ro, 0⟩]
  | .hkAux _ => [⟨0, 32, .ro, 0⟩]
  | .auxLim _ => [⟨0, 16, .st, 0⟩, ⟨16, 16, .st, 0xFFFF⟩]
  | .plStep _ => [⟨0, 7, .st, 64⟩, ⟨8, 6, .st, 32⟩, ⟨16, 2, .st, 2⟩, ⟨24, 6, .st, 60⟩]
  | .fabV0 => [⟨0, 32, .ro, 0⟩]
  | .fabV1 => [⟨0, 32, .ro, 0⟩]
  | .lgCfg g => [⟨0, 16, .st, if g = 0 then 0xFF else 0⟩, ⟨16, 2, .st, 0⟩, ⟨31, 1, .st, if g = 0 then 1 else 0⟩]
  | .lgStat _ => [⟨0, 32, .ro, 0⟩]
  | .lgMask _ => [⟨0, 32, .ro, 0⟩]
  | .lgPeer _ => [⟨0, 32, .ro, 0⟩]
  | .lgPeerId _ => [⟨0, 32, .ro, 0⟩]
  | .lgShed _ => [⟨0, 32, .ro, 0⟩]
  | .laneCtrl _ => [⟨0, 3, .st, 0⟩, ⟨4, 4, .st, 4⟩, ⟨8, 1, .st, 0⟩, ⟨9, 1, .st, 0⟩]
  | .laneStat _ => [⟨0, 32, .ro, 0⟩]
  | .laneDfe _ _ => [⟨0, 32, .ro, 0⟩]
  | .vcChk _ => [⟨0, 2, .st, 0⟩, ⟨4, 2, .st, 0⟩]
  | .pktStat => [⟨0, 32, .ro, 0⟩]
  | .cuCfg _ => [⟨0, 2, .rw, 0⟩, ⟨16, 5, .rw, 16⟩]
  | .cuInit _ => [⟨0, 1, .wo, 0⟩]
  | .cuVal _ => [⟨0, 32, .lv, 0xFFFFFFFF⟩]
  | .cuFeed _ => [⟨0, 32, .wo, 0⟩]
  | .cuFeed8 _ => [⟨0, 8, .wo, 0⟩]
  | .cuRes _ => [⟨0, 32, .ro, 0⟩]
  | .latCfg => [⟨0, 2, .st, 0⟩, ⟨4, 3, .st, 0⟩, ⟨8, 3, .st, 0⟩]
  | .chordStat => [⟨0, 32, .ro, 0⟩]
  | .feBudget => [⟨0, 7, .st, 8⟩]
  | .fePaLead => [⟨0, 14, .st, 2048⟩]
  | .fePaLag => [⟨0, 12, .st, 0⟩]
  | .feTrLead => [⟨0, 12, .st, 394⟩]
  | .feTrLag => [⟨0, 12, .st, 197⟩]
  | .feMode _ => [⟨0, 1, .st, 0⟩, ⟨1, 1, .st, 0⟩, ⟨2, 1, .st, 0⟩]
  | .feAux _ => [⟨0, 2, .st, 0⟩, ⟨4, 1, .st, 0⟩]
  | .fePaPins _ => [⟨0, 32, .ro, 0⟩]
  | .feTrPins _ => [⟨0, 32, .ro, 0⟩]
  | .feAuxPins => [⟨0, 32, .ro, 0⟩]
  | .synFreq _ => [⟨0, 24, .st, 0⟩]
  | .synCtrl _ => [⟨0, 1, .st, 0⟩]
  | .synStat _ => [⟨0, 32, .ro, 0⟩]
  | .synPhase _ => [⟨0, 32, .ro, 0⟩]
  | .ctxCfg _ => [⟨0, 3, .st, 0⟩, ⟨8, 2, .st, 0⟩, ⟨12, 2, .st, 0⟩, ⟨16, 6, .st, 0⟩, ⟨24, 3, .st, 0⟩, ⟨27, 1, .st, 0⟩,
                  ⟨28, 2, .st, 0⟩, ⟨30, 1, .st, 0⟩, ⟨31, 1, .st, 0⟩]
  | .ctxLo _ => [⟨0, 32, .st, 0⟩]
  | .ctxHi _ => [⟨0, 32, .st, 0⟩]
  | .ctxStat _ => [⟨0, 32, .ro, 0⟩]
  | .ctxEntry _ => [⟨0, 32, .ro, 0⟩]
  | .ctxScnt _ => [⟨0, 32, .ro, 0⟩]
  | .sched _ _ _ => [⟨0, 32, .ro, 0⟩]
  | .pathCfg _ => [⟨0, 2, .st, 0⟩]
  | .cfrCfg _ => [⟨0, 6, .st, 32⟩, ⟨8, 8, .st, 0xD0⟩, ⟨16, 2, .st, 0⟩, ⟨24, 1, .st, 0⟩, ⟨31, 1, .st, 0⟩]
  | .dpdCfg _ => [⟨0, 2, .st, 0⟩, ⟨8, 3, .st, 0⟩]
  | .dpdGrd _ => [⟨0, 6, .st, 4⟩, ⟨8, 8, .st, 16⟩, ⟨16, 4, .st, 8⟩, ⟨31, 1, .st, 1⟩]
  | .dpdSwap _ => [⟨0, 1, .lv, 0⟩, ⟨31, 1, .lvu, 0⟩]
  | .dpdStat _ => [⟨0, 32, .ro, 0⟩]
  | .ppStat _ => [⟨0, 32, .ro, 0⟩]
  | .pulseLen _ _ => [⟨0, 8, .st, 1⟩]
  | .pulseTap _ _ i => [⟨0, 32, .st, if i = 0 then 0x4000 else 0⟩]
  | .calCtrl _ => [⟨0, 7, .st, 0x7F⟩, ⟨31, 1, .st, 0⟩]
  | .calBgper _ => [⟨0, 16, .st, 1000⟩]
  | .calStat _ => [⟨0, 32, .ro, 0⟩]
  | .calBgnow _ => [⟨0, 32, .ro, 0⟩]
  | .calClass _ => [⟨0, 8, .st, 0⟩, ⟨8, 8, .st, 0⟩]
  | .calPts _ => [⟨0, 32, .ro, 0⟩]
  | .calPtsOrx _ => [⟨0, 32, .ro, 0⟩]
  | .calMatch _ => [⟨0, 32, .ro, 0⟩]
  | .divCtrl _ => [⟨0, 11, .st, 64⟩, ⟨24, 3, .st, 0⟩, ⟨31, 1, .st, 0⟩]
  | .divDet _ => [⟨0, 8, .st, 4⟩, ⟨8, 8, .st, 128⟩, ⟨16, 16, .st, 1024⟩]
  | .divStat _ => [⟨0, 32, .ro, 0⟩]
  | .divSeq _ _ => [⟨0, 8, .st, 0⟩, ⟨8, 8, .st, 0⟩, ⟨16, 8, .st, 0⟩, ⟨24, 8, .st, 0⟩]
  | .orxCtrl _ => [⟨0, 1, .st, 0⟩]
  | .orxAtt _ => [⟨0, 16, .st, 0xFFFF⟩, ⟨16, 4, .st, 15⟩]
  | .orxStat _ => [⟨0, 32, .ro, 0⟩]
  | .rffeCfg _ => [⟨0, 8, .st, 38⟩, ⟨8, 8, .st, 76⟩]
  | .rffeStat _ => [⟨0, 32, .ro, 0⟩]
  | .txn _ _ => [⟨2, 30, .rw, 0⟩]
  | .txData _ _ _ => [⟨0, 32, .rw, 0⟩]
  | .txCtl _ _ => [⟨0, 1, .lvu, 0⟩, ⟨8, 2, .ro, 0⟩]
  | .timed _ _ k =>
    if k = 2 then [⟨0, 16, .st, 0⟩, ⟨24, 1, .st, 0⟩, ⟨25, 2, .st, 0⟩, ⟨27, 2, .st, 0⟩]
    else if k = 0 then [⟨2, 30, .st, 0⟩] else [⟨0, 32, .st, 0⟩]
  | .capMap _ => [⟨0, 32, .ro, 0⟩]
  | .capRel _ => [⟨0, 8, .lvu, 0⟩]
  | .creq _ _ k =>
    match k with
    | 0 => [⟨0, 15, .rw, 0⟩, ⟨16, 1, .rw, 0⟩, ⟨18, 2, .rw, 0⟩, ⟨20, 2, .rw, 0⟩, ⟨24, 4, .rw, 0⟩, ⟨28, 3, .rw, 0⟩,
            ⟨31, 1, .rw, 0⟩]
    | 1 => [⟨0, 32, .rw, 0⟩]
    | _ => [⟨0, 16, .rw, 0⟩]
  | .cctl _ _ => [⟨0, 1, .lvu, 0⟩, ⟨8, 2, .ro, 0⟩, ⟨12, 3, .ro, 0⟩, ⟨16, 8, .ro, 0⟩]
  | .cellLo _ => [⟨0, 1, .st, 0⟩]
  | .winCtrl _ => [⟨0, 6, .st, 0⟩, ⟨12, 3, .st, 5⟩]
  | .cellSeq _ => [⟨0, 32, .ro, 0⟩]
  | .winStart _ _ => [⟨0, 25, .st, 0⟩]
  | .winLen _ _ => [⟨0, 25, .st, 0⟩]
  | .convCfg c => if c < 64 then [⟨0, 2, .st, 0⟩] else [⟨0, 1, .st, 0⟩]
  | .convStat _ => [⟨0, 32, .ro, 0⟩]
  | .chainCfg c => if c < 64 then [⟨8, 8, .st, 0⟩] else [⟨0, 5, .st, 0⟩, ⟨8, 8, .st, 0⟩, ⟨16, 12, .st, 0⟩]
  | .carrCfg _ _ => [⟨8, 1, .st, 1⟩, ⟨16, 4, .st, 0⟩, ⟨24, 3, .st, 0⟩, ⟨31, 1, .st, 0⟩]
  | .carrBridge _ _ => [⟨0, 16, .st, 255⟩]
  | .carrNco _ _ => [⟨0, 24, .st, 0⟩]
  | .carrPhase _ _ => [⟨0, 16, .st, 0⟩]
  | .carrGain _ _ => [⟨0, 8, .st, 0⟩]
  | .carrStat _ _ => [⟨0, 32, .ro, 0⟩]

/-- The bits of a field. -/
def FieldD.mask (f : FieldD) : Nat := (2 ^ f.width - 1) * 2 ^ f.lo

/-- The reset word of a register (R5). -/
def Reg.reset (r : Reg) : Word := mkw (r.fields.foldl (fun n f => n + f.rst * 2 ^ f.lo) 0)

/-- The bits whose access code satisfies `p`. -/
def Reg.bits (r : Reg) (p : Acc → Bool) : Nat :=
  r.fields.foldl (fun n f => if p f.acc then n ||| f.mask else n) 0

/-- The bits that the register itself stores: RW, LV and the live values of ST fields. -/
def Reg.stored (r : Reg) : Nat := r.bits fun a => a == .rw || a == .lv || a == .st

/-- The reset word stored at a register's address; 0 where no register lies. -/
def regReset (a : Nat) : Word :=
  match placeAt a with
  | .reg r => mkw (r.reset.toNat &&& r.stored)
  | _ => 0

/-- The stored word of a register: RW and LV values and live ST values. -/
def Dev.reg (d : Dev) (r : Reg) : Word := Tbl.get regReset d.regs r.addr

/-- Set the stored word of a register. -/
def Dev.setReg (d : Dev) (r : Reg) (w : Word) : Dev := { d with regs := Tbl.set regReset d.regs r.addr w }

/-- A field of a stored register as a number. -/
def Dev.f (d : Dev) (r : Reg) (hi lo : Nat) : Nat := fld (d.reg r) hi lo

/-- A one-bit field of a stored register. -/
def Dev.fb (d : Dev) (r : Reg) (i : Nat) : Bool := bitOf (d.reg r) i

/-- Replace the bits `mask` of a stored register. -/
def Dev.setBits (d : Dev) (r : Reg) (mask val : Nat) : Dev :=
  d.setReg r (mkw (((d.reg r).toNat &&& (0xFFFFFFFF ^^^ mask)) ||| (val &&& mask)))

end Sys2Proof.Machine
end

