-- ==== Sys2Proof/Machine/Hub.lean ====
section
/-! DEFINITION. The event hub: firing, request lines, claims, completions, event packets, and the fault reports of every
level (R34–R37, R331–R344). -/

namespace Sys2Proof.Machine

/-! ## Lattice role and locations -/

/-- LAT_CFG.ROLE: 0 single, 1 head, 2 member, 3 tail (Table 16.3). -/
def Dev.role (d : Dev) : Nat := d.f .latCfg 1 0
def Dev.chipNo (d : Dev) : Nat := d.f .latCfg 6 4
def Dev.last (d : Dev) : Nat := d.f .latCfg 10 8

/-- A single chip or the head: the group that faces the host is H. -/
def Dev.hostSide (d : Dev) : Bool := decide (d.role ≤ 1)

/-- The group toward the host: H on a single chip or head, U on a member or tail. -/
def Dev.upGroup (d : Dev) : Nat := if d.hostSide then 0 else 1

/-- A TARGET word (R77). -/
def tgtWord (chip level index : Nat) : BitVec 16 := BitVec.ofNat 16 (chip * 0x2000 + level * 0x400 + index)

/-- The TARGET form of a unit of this chip. -/
def Dev.locOf (d : Dev) (level index : Nat) : BitVec 16 := tgtWord d.chipNo level index

/-! ## Egress -/

/-- The egress queue of virtual channel `vc` of group `g`. -/
def Dev.queueOf (d : Dev) (g vc : Nat) : List Pkt := d.egress (8 * g + vc)

/-- Put a packet in the egress queue of its virtual channel (R26). -/
def Dev.push (d : Dev) (g vc : Nat) (p : Pkt) : Dev := d.setEgress (8 * g + vc) (d.queueOf g vc ++ [p])

/-- Group `g` is in RUN (R253). -/
def Dev.groupRun (d : Dev) (g : Nat) : Bool := (d.lg g).st == .run

/-! ## JTAG outbound queue (R99) -/

/-- Bytes in the outbound queue, framing words included. -/
def Jtag.held (j : Jtag) : Nat := (j.out.map fun p => 4 * p.words.length).foldl (· + ·) 0

/-- The framing word of a packet. -/
def frameWord (kind bytes : Nat) : Word := mkw (kind * 0x1000000 + bytes)

/-- The queue has room for a packet of `bytes` bytes and its framing word. -/
def Jtag.room (j : Jtag) (bytes : Nat) : Bool := decide (j.held + bytes + 4 ≤ 4096)

/-- Put a packet in the outbound queue. -/
def Jtag.enqueue (j : Jtag) (kind : Nat) (bs : List Byte) (fin : Option (BitVec 8) := none) : Jtag :=
  { j with out := j.out ++ [{ kind := kind, words := frameWord kind bs.length :: bytesWords bs, fin := fin }] }

/-! ## Packets as bytes -/

/-- Close a byte string with its CRC-32C (R68). -/
def withCrc (bs : List Byte) : List Byte := bs ++ natBytes 4 (crcOf 0 bs)

/-- The bytes of a reply packet (Table 3.3). -/
def replyBytes (r : Reply) : List Byte :=
  withCrc (natBytes 2 r.opc ++ [r.tag, BitVec.ofNat 8 r.status] ++ natBytes 2 r.target.toNat ++
    [BitVec.ofNat 8 (b2n r.final + 2 * b2n r.dup), 0] ++ natBytes 2 (4 * r.result.length) ++
    natBytes 6 r.ts.toNat ++ wordsBytes r.result)

/-- The bytes of an event packet (Table 11.4). -/
def eventBytes (e : EventPkt) : List Byte :=
  withCrc (natBytes 2 e.source ++ [BitVec.ofNat 8 (e.chan + 128 * b2n e.lost), 0] ++
    natBytes 2 e.rec_.cause.toNat ++ natBytes 2 e.rec_.loc.toNat ++ natBytes 2 e.rec_.detail.toNat ++
    natBytes 6 e.rec_.ts.toNat)

/-! ## Sources and targets -/

/-- A source number of the hub. -/
def isSource (s : Nat) : Bool := decide (1 ≤ s) && decide (s ≤ 511)

/-- A SRC_CFG or TGT_THR register as the lines are judged by it: a commit that falls at this tick counts once the firings of the
tick are entered (R337). -/
def Dev.hubWord (d : Dev) (r : Reg) : Word := Tbl.get (fun _ => d.reg r) d.hub.held r.addr

/-- PRIO and TMASK in force, and THRESH of a target. -/
def Dev.prio (d : Dev) (s : Nat) : Nat := fld (d.hubWord (.srcCfg s)) 27 24
def Dev.routed (d : Dev) (s t : Nat) : Bool := bitOf (d.hubWord (.srcCfg s)) t
def Dev.thresh (d : Dev) (t : Nat) : Nat := fld (d.hubWord (.tgt t 0)) 3 0

/-- Source `s` is deliverable to target `t` (R334). -/
def Dev.deliverable (d : Dev) (t s : Nat) : Bool :=
  let x := d.src s
  isSource s && x.en && !x.q.isEmpty && !x.act && d.routed s t && decide (d.thresh t < d.prio s)

/-- The deliverable source of highest PRIO, of two equal ones the lower number; 0 for none (R335). -/
def Dev.best (d : Dev) (t : Nat) : Nat :=
  d.hub.src.foldl (fun b e => if d.deliverable t e.1 ∧ (b = 0 ∨ d.prio b < d.prio e.1) then e.1 else b) 0

/-- Re-evaluate the line of target `t`; a rising edge records ANNOUNCED, sets EVL of an engine (R308) and makes a host
channel claim (R334, R338). -/
def Dev.reline (d : Dev) (t : Nat) : Dev :=
  let x := d.tgt t
  let b := d.best t
  let up := decide (b ≠ 0) && decide (x.claims.length < 4)
  if up && !x.line then
    let d := d.setTgt t { x with line := true, ann := b, taken := false, edge := if t < 16 then x.edge else true }
    if t < 16 then d.setEng t { d.eng t with evl := true } else d
  else d.setTgt t { x with line := up }

/-- Re-evaluate every line. -/
def Dev.relines (d : Dev) : Dev := (List.range 20).foldl Dev.reline d

/-- Some registers of the hub change at this tick by a commit: the lines follow once the firings of the tick are entered (R337,
R341). -/
def Dev.holdHub (d : Dev) (l : List Nat) : Dev :=
  let held := l.foldl (fun t a =>
    match placeAt a with
    | .reg (.srcCfg s) => if t.any (·.1 == a) then t else t ++ [(a, d.reg (.srcCfg s))]
    | .reg (.tgt u 0) => if t.any (·.1 == a) then t else t ++ [(a, d.reg (.tgt u 0))]
    | _ => t) d.hub.held
  { d with hub := { d.hub with held := held } }

/-- The commits of this tick reach the lines (R337). -/
def Dev.settleHub (d : Dev) : Dev := ({ d with hub := { d.hub with held := [] } } : Dev).relines

/-- Append a record, or set LOST when eight are queued; a disabled source discards (R333). -/
def Src.append (x : Src) (r : Rec) : Src :=
  if x.en then (if x.q.length < 8 then { x with q := x.q ++ [r] } else { x with lost := true }) else x

/-- A record enters the queue of source `s`. -/
def Dev.enter (d : Dev) (s : Nat) (r : Rec) : Dev := d.setSrc s ((d.src s).append r)

/-- Source `s` fires with a record (R333, R334). -/
def Dev.fire (d : Dev) (s : Nat) (r : Rec) : Dev := if isSource s then (d.enter s r).relines else d

/-- The record of a claim: the oldest one, with LOST (R335). -/
def Dev.claim (d : Dev) (t : Nat) : Dev × Option (Nat × Rec × Bool) :=
  let x := d.tgt t
  let s := d.best t
  if x.claims.length < 4 ∧ s ≠ 0 then
    let y := d.src s
    match y.q with
    | [] => (d, none)
    | r :: rest =>
      let d := d.setSrc s { y with q := rest, lost := false, act := true, owner := t }
      let d := (List.range 20).foldl
        (fun d u => if u ≠ t ∧ (d.tgt u).ann = s then d.setTgt u { d.tgt u with taken := true } else d) d
      let d := d.setTgt t { x with claims := x.claims ++ [s], info := some (s, r, y.lost), ann := 0, taken := false,
                                   line := if t < 16 then x.line else false }
      (d.relines, some (s, r, y.lost))
  else (d.setTgt t { x with ann := 0, taken := false }, none)

/-- What a read of TGT_CLAIM returns, before the read acts (R335, R338). -/
def Dev.claimValue (d : Dev) (t : Nat) : Nat :=
  let x := d.tgt t
  if 16 ≤ t then 0
  else if 4 ≤ x.claims.length then 0
  else if d.best t ≠ 0 then d.best t
  else if x.ann = 0 then 0
  else if x.taken then 1023 else 1022

/-- The effect of a read of TGT_CLAIM: an engine target claims, a host channel's read claims nothing (R335, R338). -/
def Dev.claimRead (d : Dev) (t : Nat) : Dev :=
  if 16 ≤ t then d.setTgt t { d.tgt t with ann := 0, taken := false } else (d.claim t).1

/-- Source `s` is no longer active: its claim record goes (R336). -/
def Dev.dropClaim (d : Dev) (s : Nat) : Dev :=
  let y := d.src s
  if y.act then
    let t := y.owner
    let x := d.tgt t
    (d.setSrc s { y with act := false, owner := 31 }).setTgt t
      { x with claims := x.claims.filter (· != s),
               info := match x.info with
                 | some i => if i.1 = s then none else some i
                 | none => none }
  else d

/-- End the activity of source `s` (R336, Table 14.2). -/
def Dev.endActivity (d : Dev) (s : Nat) : Dev := if (d.src s).act then (d.dropClaim s).relines else d

/-- A completion by target `t` (R336). -/
def Dev.complete (d : Dev) (t s : Nat) : Dev :=
  if isSource s ∧ (d.src s).act ∧ (d.src s).owner = t then d.endActivity s else d

/-- The zero record of PEND_SET (Table 14.2). -/
def Dev.zeroRec (d : Dev) : Rec := { cause := 0, loc := 0, detail := 0, ts := d.ts }

/-- PEND_SET: the source fires if it is not pending. -/
def Dev.pendSet (d : Dev) (s : Nat) : Dev :=
  if isSource s ∧ (d.src s).q.isEmpty then d.fire s d.zeroRec else d

/-- PEND_CLR: the queue empties and LOST clears. -/
def Dev.pendClr (d : Dev) (s : Nat) : Dev :=
  if isSource s then (d.setSrc s { d.src s with q := [], lost := false }).relines else d

/-- EN_SET and EN_CLR; queued records stay. -/
def Dev.setEn (d : Dev) (s : Nat) (on : Bool) : Dev :=
  if isSource s then (d.setSrc s { d.src s with en := on }).relines else d

/-- One bit of a write to an EN, PEND or ACT word (Table 14.2). -/
def Dev.enBit (d : Dev) (s : Nat) (b : Bool) : Dev := if isSource s then d.setSrc s { d.src s with en := b } else d
def Dev.pendBit (d : Dev) (s : Nat) (b : Bool) : Dev :=
  if !isSource s then d
  else if b then (if (d.src s).q.isEmpty then d.enter s d.zeroRec else d)
  else d.setSrc s { d.src s with q := [], lost := false }
def Dev.actBit (d : Dev) (s : Nat) (b : Bool) : Dev := if b ∨ !isSource s then d else d.dropClaim s

/-- A write of an array word: its bits change at one instant, and the lines follow the whole word (R343, R337). -/
def arrayWrite (f : Dev → Nat → Bool → Dev) (d : Dev) (w : Nat) (v : Word) : Dev :=
  ((List.range 32).foldl (fun d i => f d (32 * w + i) (bitOf v i)) d).relines

/-- An array word. Bit 0 of word 0 reads 0. -/
def Dev.arrayWord (d : Dev) (p : Src → Bool) (w : Nat) : Word :=
  mkw ((List.range 32).foldl (fun n i => n + b2n (isSource (32 * w + i) && p (d.src (32 * w + i))) * 2 ^ i) 0)

/-! ## Host channels (R338–R340) -/

/-- Where an event packet would go, and whether that path has room. -/
inductive EventWay where
  | lane (g vc : Nat)
  | jtag
  | wait
deriving DecidableEq, Repr

/-- The way of R339. An event enters the JTAG queue when it has room for it, also ahead of replies that wait for more room: R99
does not order the two (DESIGN CHOICE, log entry 40). -/
def Dev.eventWay (d : Dev) : EventWay :=
  if d.hostSide then
    (if d.groupRun 0 then .lane 0 0 else if d.jtag.room 20 then .jtag else .wait)
  else if d.groupRun 1 then .lane 1 1 else .wait

/-- Send an event packet on the way of R339. -/
def Dev.sendEvent (d : Dev) (e : EventPkt) : Dev :=
  match d.eventWay with
  | .lane g vc => d.push g vc (.event e)
  | .jtag => { d with jtag := d.jtag.enqueue 2 (eventBytes e) }
  | .wait => d

/-- EVENTn is driven low (R340). -/
def Dev.eventnLow (d : Dev) : Bool :=
  d.hostSide && (d.jtag.out.any (fun p => p.kind == 2) ||
    (!d.groupRun 0 && !d.jtag.room 20 && (List.range 4).any fun c => (d.tgt (16 + c)).edge))

/-- A host channel claims at a rising edge of its line, or defers while its path has no room (R338, R339). -/
def Dev.channelClaim (d : Dev) (c : Nat) : Dev :=
  let t := 16 + c
  if (d.tgt t).edge then
    match d.eventWay with
    | .wait => d
    | _ =>
      let d := d.setTgt t { d.tgt t with edge := false }
      match d.claim t with
      | (d, some (s, r, lost)) => d.sendEvent { source := s, chan := c, lost := lost, rec_ := r }
      | (d, none) => d
  else d

/-! ## Fault reports (R34–R37, Table 14.1) -/

/-- The source of a fault by its cause code and the quadrant that caught it. -/
def faultSource (cause q : Nat) : Nat :=
  if cause = 0x0101 then 48 + 8 * q
  else if cause = 0x0102 then 49 + 8 * q
  else if cause = 0x0104 then 50 + 8 * q
  else if cause = 0x0201 then 51 + 8 * q
  else if cause = 0x0202 then 52 + 8 * q
  else if 0x0301 ≤ cause ∧ cause ≤ 0x0307 then 16 + 8 * q + (cause - 0x0301)
  else if 0x0401 ≤ cause ∧ cause ≤ 0x0407 then 2 + (cause - 0x0401)
  else if 0x0501 ≤ cause ∧ cause ≤ 0x0504 then 9 + (cause - 0x0501)
  else 0

/-- Report a fault once (R34). -/
def Dev.faultAt (d : Dev) (cause q : Nat) (loc : BitVec 16) (detail : Nat) (ts : BitVec 48) : Dev :=
  d.fire (faultSource cause q)
    { cause := BitVec.ofNat 16 cause, loc := loc, detail := BitVec.ofNat 16 detail, ts := ts }

/-- Report a fault caught now. -/
def Dev.fault (d : Dev) (cause q : Nat) (loc : BitVec 16) (detail : Nat) : Dev := d.faultAt cause q loc detail d.ts

/-- A source that is no fault fires: CAUSE 0. -/
def Dev.event (d : Dev) (s : Nat) (loc : BitVec 16) (detail : Nat) : Dev :=
  d.fire s { cause := 0, loc := loc, detail := BitVec.ofNat 16 detail, ts := d.ts }

/-- A record that Table 14.1 gives a hardware source; no other source fires from hardware (R332). -/
def Dev.sourceRec (d : Dev) (s : Nat) (r : Rec) : Bool :=
  let loc := r.loc.toNat
  let here := loc / 0x2000 == d.chipNo
  let unit (level first count : Nat) :=
    here && loc / 0x400 % 8 == level && decide (first ≤ loc % 0x400) && decide (loc % 0x400 < first + count)
  let cause (c : Nat) := r.cause.toNat == c
  if s = 1 then cause 0x0408 && unit 0 0 1
  else if 2 ≤ s ∧ s ≤ 8 then cause (0x0401 + (s - 2)) && here
  else if 9 ≤ s ∧ s ≤ 12 then cause (0x0501 + (s - 9)) && loc % 0x2000 == 0
  else if 16 ≤ s ∧ s < 48 then decide (s % 8 < 7) && cause (0x0301 + s % 8) && here
  else if 48 ≤ s ∧ s < 80 then r.detail == 0 && (match s % 8 with
    | 0 => cause 0x0101 && unit 3 0 64
    | 1 => cause 0x0102 && unit 3 64 64
    | 2 => cause 0x0104 && unit 3 0 64
    | 3 => cause 0x0201 && unit 2 0 16
    | 4 => cause 0x0202 && unit 2 0 16
    | _ => false)
  else cause 0 &&
    (if 80 ≤ s ∧ s < 88 then unit 6 (64 + (s - 80)) 1 && r.detail == 0
     else if 88 ≤ s ∧ s < 92 then unit 1 (s - 88) 1
     else if 96 ≤ s ∧ s < 100 then here
     else if 100 ≤ s ∧ s < 103 then unit 5 16 16
     else if 112 ≤ s ∧ s < 128 then unit 2 (s - 112) 1
     else if 128 ≤ s ∧ s < 176 then unit 6 (16 + (s - 128)) 1
     else (s == 92 || s == 176 || s == 177 || s == 178) && unit 0 0 1)

end Sys2Proof.Machine
end

