-- ==== Sys2Proof/Machine/Reply.lean ====
section
/-! DEFINITION. Replies and commands in flight (R70–R79). -/

namespace Sys2Proof.Machine

/-! ## Status codes (Table 3.4) -/

abbrev sOk : Nat := 0x00
abbrev sAccepted : Nat := 0x01
abbrev sBadOpcode : Nat := 0x10
abbrev sBadParam : Nat := 0x11
abbrev sBadTarget : Nat := 0x12
abbrev sBusy : Nat := 0x20
abbrev sLate : Nat := 0x21
abbrev sHeld : Nat := 0x22
abbrev sAborted : Nat := 0x23
abbrev sMismatch : Nat := 0x30
abbrev sPrecondition : Nat := 0x40
abbrev sCalFail : Nat := 0x41
abbrev sTempRange : Nat := 0x42
abbrev sThermal : Nat := 0x50
abbrev sLink : Nat := 0x60
abbrev sResource : Nat := 0x70
abbrev sInternal : Nat := 0xFF

/-- A result without detail. -/
def plain (status : Nat) : Res := { status := status }

/-- A refusal with DETAIL and AUX (Table 3.4a). -/
def refusal (status detail : Nat) (aux : Nat := 0) : Res := { status := status, detail := detail, aux := aux }

/-- OK with result words. -/
def okWords (ws : List Word) : Res := { status := sOk, words := ws }

/-- BAD_PARAM that names parameter word `i`. -/
def badWord (i : Nat) : Res := refusal sBadParam (4 * i)

/-- BAD_PARAM that names a header field. -/
def badHeader : Res := refusal sBadParam 0xFFFF

/-! ## Sending -/

/-- The result words of a status (R74). -/
def resultWords (r : Res) : List Word :=
  if r.status = sOk ∨ r.status = sAccepted ∨ r.status = sHeld then r.words else [mkw (r.detail + 65536 * r.aux)]

/-- The tag of which a packet is the final reply. -/
def Reply.finalOf (r : Reply) : Option (BitVec 8) := if r.final && !r.dup then some r.tag else none

/-- Send a reply on the path its command came by (R75, R99). A chip in the boot state answers VC1 on group H (R243). -/
def Dev.route (d : Dev) (p : Path) (r : Reply) : Dev :=
  match p with
  | .vc0 => d.push 0 0 (.reply r)
  | .vc1 => d.push d.upGroup 1 (.reply r)
  | .jtag =>
    if d.jtag.wait.isEmpty && d.jtag.room (replyBytes r).length then
      { d with jtag := d.jtag.enqueue 1 (replyBytes r) r.finalOf }
    else { d with jtag := { d.jtag with wait := d.jtag.wait ++ [r] } }

/-- A reply packet of a command. -/
def mkReply (opc : Nat) (h : Hdr) (r : Res) (final dup : Bool) (ts : BitVec 48) : Reply :=
  { opc := opc, tag := h.tag, status := r.status, target := h.target, final := final, dup := dup, ts := ts,
    result := resultWords r }

/-- Send a final reply with a given TS: an OK only when REPLY_REQ asks for it (R72). -/
def Dev.finalAt (d : Dev) (opc : Nat) (h : Hdr) (r : Res) (ts : BitVec 48) : Dev :=
  if r.status = sOk ∧ h.rr = false then d else d.route h.path (mkReply opc h r true false ts)

/-- Send a final reply now. -/
def Dev.final (d : Dev) (opc : Nat) (h : Hdr) (r : Res) : Dev := d.finalAt opc h r d.ts

/-- Refuse a command that reuses a tag in flight (R70 step 2). -/
def Dev.refuseDup (d : Dev) (opc : Nat) (h : Hdr) : Dev :=
  d.route h.path (mkReply opc h (refusal sBusy 0) true true d.ts)

/-! ## Flights -/

/-- The flight of a tag. -/
def Dev.flightOf (d : Dev) (tag : BitVec 8) : Option Flight := d.cmd.flight.find? fun f => f.hdr.tag == tag

/-- TAG is in flight (R75). -/
def Dev.inFlight (d : Dev) (tag : BitVec 8) : Bool := d.cmd.flight.any fun f => f.hdr.tag == tag

/-- Replace the list of flights. -/
def Dev.setFlight (d : Dev) (l : List Flight) : Dev := { d with cmd := { d.cmd with flight := l } }

/-- Put a command in flight with its parts. -/
def Dev.launch (d : Dev) (opc : Nat) (h : Hdr) (ps : List Word) (units : List Nat) : Dev :=
  d.setFlight (d.cmd.flight ++
    [{ opc := opc, hdr := h, params := ps, parts := units.map fun u => { unit := u } }])

/-- Change the flight of a tag. -/
def Dev.updFlight (d : Dev) (tag : BitVec 8) (f : Flight → Flight) : Dev :=
  d.setFlight (d.cmd.flight.map fun x => if x.hdr.tag = tag then f x else x)

/-- Take a tag out of flight. -/
def Dev.land (d : Dev) (tag : BitVec 8) : Dev := d.setFlight (d.cmd.flight.filter fun f => !(f.hdr.tag == tag))

/-- Send a non-final ACCEPTED or HELD once, when replies are asked for, with a given TS (R72). -/
def Dev.noteAt (d : Dev) (tag : BitVec 8) (status : Nat) (ts : BitVec 48) : Dev :=
  match d.flightOf tag with
  | some f =>
    if f.hdr.rr ∧ ¬ (if status = sHeld then f.held else f.accepted) then
      (d.updFlight tag fun f => if status = sHeld then { f with held := true } else { f with accepted := true }).route
        f.hdr.path (mkReply f.opc f.hdr (plain status) false false ts)
    else d.updFlight tag fun f => if status = sHeld then { f with held := true } else f
  | none => d

/-- Send a non-final reply now. -/
def Dev.note (d : Dev) (tag : BitVec 8) (status : Nat) : Dev := d.noteAt tag status d.ts

/-- The command addresses more than one unit: INDEX 0x3FF (R78). -/
def hdrMany (h : Hdr) : Bool := h.target.toNat % 0x400 == 0x3FF

/-- The result of a whole command: the first status other than OK in ascending order, with AUX naming its unit when the
command addressed several (R78). -/
def wholeResult (h : Hdr) : List Part → Res
  | [] => plain sOk
  | p :: ps =>
    match p.res with
    | some r => if r.status = sOk then (if ps.isEmpty then (if hdrMany h then plain sOk else r) else wholeResult h ps)
                else if hdrMany h ∧ p.unit ≠ h.target.toNat then { r with aux := p.unit } else r
    | none => wholeResult h ps

/-- Every part has its result. -/
def partsDone (l : List Part) : Bool := l.all fun p => p.res.isSome

/-- End one part of a command; the last one sends the final reply (R72, R78). -/
def Dev.finishPartAt (d : Dev) (tag : BitVec 8) (unit : Nat) (r : Res) (ts : BitVec 48) : Dev :=
  match d.flightOf tag with
  | none => d
  | some f =>
    let parts := f.parts.map fun p => if p.unit = unit ∧ p.res.isNone then { p with res := some r } else p
    if partsDone parts then (d.land tag).finalAt f.opc f.hdr (wholeResult f.hdr parts) ts
    else d.updFlight tag fun f => { f with parts := parts }

/-- End one part of a command now. -/
def Dev.finishPart (d : Dev) (tag : BitVec 8) (unit : Nat) (r : Res) : Dev := d.finishPartAt tag unit r d.ts

/-- End every part of a command that has none. -/
def Dev.finishAll (d : Dev) (tag : BitVec 8) (r : Res) : Dev :=
  match d.flightOf tag with
  | none => d
  | some f => (f.parts.filter fun p => p.res.isNone).foldl (fun d p => d.finishPart tag p.unit r) d

/-- Let the replies that wait for room in the JTAG queue enter it, in order (R99). -/
def Dev.jtagRefill (d : Dev) : Nat → Dev
  | 0 => d
  | n + 1 =>
    match d.jtag.wait with
    | [] => d
    | r :: rest =>
      if d.jtag.room (replyBytes r).length then
        Dev.jtagRefill { d with jtag := { d.jtag.enqueue 1 (replyBytes r) r.finalOf with wait := rest } } n
      else d

end Sys2Proof.Machine
end

