-- ==== Sys2Proof/Machine/Boundary.lean ====
section
/-! DEFINITION. Boundary tables and boundaries (R55–R58, R90). -/

namespace Sys2Proof.Machine

/-- The ticks of a PERIOD code (Table 2.7); reserved codes give 0. -/
def periodTicks (code : Nat) : Nat :=
  match code with
  | 0 => 245760
  | 1 => 491520
  | 2 => 983040
  | 3 => 1966080
  | 4 => 9830400
  | 5 => 19660800
  | _ => 0

/-- PERIOD and COUNT of a boundary table, and TICK and KIND of an entry. -/
def Dev.btPeriod (d : Dev) (t : Nat) : Nat := periodTicks (d.f (.btCtrl t) 14 12)
def Dev.btCount (d : Dev) (t : Nat) : Nat := d.f (.btCtrl t) 9 0
def Dev.btTick (d : Dev) (t e : Nat) : Nat := d.f (.btEntry t e) 24 0
def Dev.btKind (d : Dev) (t e : Nat) : Nat := d.f (.btEntry t e) 31 30

/-- The ticks within the period of a table's boundaries: all of them, or the slot starts only. -/
def Dev.btTicks (d : Dev) (t : Nat) (slots : Bool) : List Nat :=
  ((List.range (d.btCount t)).filter fun e => !slots || d.btKind t e == 2).map fun e => d.btTick t e

/-- The first chip tick at or after `t` that lies on one of `ticks` of a period of `p` ticks. -/
def Dev.nextOf (d : Dev) (p : Nat) (ticks : List Nat) (t : Nat) : Option Nat :=
  if p = 0 then none else
  let base := d.tb.t0 + (t - d.tb.t0) / p * p
  match ticks.find? fun x => decide (t ≤ base + x) with
  | some x => some (base + x)
  | none => ticks.head?.map fun x => base + p + x

/-- The first symbol or slot boundary of table `bt` at or after chip tick `t` (R56, R57). -/
def Dev.nextBoundary (d : Dev) (bt : Nat) (slots : Bool) (t : Nat) : Option Nat :=
  d.nextOf (d.btPeriod bt) (d.btTicks bt slots) t

/-- The first frame start at or after chip tick `t`. -/
def Dev.nextFrameStart (d : Dev) (t : Nat) : Nat := d.alignUp Config.frameTicks t

/-- A BOUNDARY code or a BTS that a command uses is invalid (R70 step 6, R41). -/
def badBoundary (h : Hdr) : Bool := decide (5 ≤ h.bnd.toNat) || (h.bnd == 4 && !tsValid h.bts)

/-- The boundary that a header names, fixed at receipt with a lead (R56, R58, R88 step 1): a chip tick, or none for an
immediate boundary outside RUN. -/
def Dev.fixBoundary (d : Dev) (h : Hdr) : Except Res (Option Nat) :=
  if d.running then
    match h.bnd.toNat with
    | 0 => .ok (some (d.now + Config.commitLead))
    | 1 => match d.nextBoundary h.btable.toNat false (d.now + Config.commitLead) with
           | some t => .ok (some t)
           | none => .error (plain sPrecondition)
    | 2 => match d.nextBoundary h.btable.toNat true (d.now + Config.commitLead) with
           | some t => .ok (some t)
           | none => .error (plain sPrecondition)
    | 3 => .ok (some (d.nextFrameStart (d.now + Config.commitLead)))
    | _ => match d.ahead h.bts with
           | some x => if Config.commitLead ≤ x then .ok (some (d.now + x)) else .error (plain sLate)
           | none => .error (plain sLate)
  else if h.bnd = 0 then .ok none
  else .error (plain sPrecondition)

end Sys2Proof.Machine
end

