-- ==== Sys2Proof/Machine/Project.lean ====
section
/-! DEFINITION. Staged fields as values, the projected state of an instant to come, and the settings of an instant past
(R55, R86, R89). -/

namespace Sys2Proof.Machine

/-- The ST fields of a register. -/
def Reg.stFields (r : Reg) : List FieldD := r.fields.filter fun f => f.acc == .st

/-- The stored word at a register address, and setting it. -/
def Dev.atAddr (d : Dev) (a : Nat) : Word := Tbl.get regReset d.regs a
def Dev.setAddr (d : Dev) (a : Nat) (w : Word) : Dev := { d with regs := Tbl.set regReset d.regs a w }

/-- Replace the bits of one field in a word. -/
def withField (w : Word) (lo width val : Nat) : Word :=
  let m := (2 ^ width - 1) * 2 ^ lo
  mkw ((w.toNat &&& (0xFFFFFFFF ^^^ m)) ||| ((val % 2 ^ width) * 2 ^ lo))

/-- A staged field becomes live. -/
def Dev.applyField (d : Dev) (f : SField) : Dev := d.setAddr f.addr (withField (d.atAddr f.addr) f.lo f.width f.val)

/-- Some staged fields applied to the registers alone. -/
def Dev.overlay (d : Dev) (l : List SField) : Dev := l.foldl Dev.applyField d

/-- The staged copy of a field, if it is staged. -/
def Dev.stagedOf (d : Dev) (a lo : Nat) : Option SField := d.cmd.staged.find? fun f => f.addr == a && f.lo == lo

/-- The fields of a group. -/
def Dev.fieldsOf (d : Dev) (g : Nat) : List SField := d.cmd.staged.filter fun f => f.grp == g

/-! ## Projection (R89) -/

/-- A group comes before another: by boundary, then by acceptance. -/
def grpBefore (a b : Nat × Grp) : Bool := decide (a.2.bnd < b.2.bnd) || (a.2.bnd == b.2.bnd && decide (a.2.seq < b.2.seq))

/-- Insert a group in that order. -/
def grpInsert (a : Nat × Grp) : List (Nat × Grp) → List (Nat × Grp)
  | [] => [a]
  | x :: xs => if grpBefore a x then a :: x :: xs else x :: grpInsert a xs

/-- The ACCEPTED groups in boundary order. -/
def Dev.acceptedGroups (d : Dev) : List (Nat × Grp) :=
  (d.cmd.groups.filter fun e => e.2.st == .accepted).foldl (fun l e => grpInsert e l) []

/-- The projected state with every ACCEPTED group applied (R350). -/
def Dev.projectAll (d : Dev) : Dev := d.acceptedGroups.foldl (fun p e => p.overlay (d.fieldsOf e.1)) d

/-- The projected state at boundary `t`, with the fields `own` of one more group in its place at `own`'s boundary `u` when
that lies at or before `t` (R89). -/
def Dev.projectAt (d : Dev) (t : Nat) (own : List SField) (u : Nat) : Dev :=
  let l := d.acceptedGroups.filter fun e => decide (e.2.bnd ≤ t)
  let p := (l.filter fun e => decide (e.2.bnd ≤ u)).foldl (fun p e => p.overlay (d.fieldsOf e.1)) d
  let p := if u ≤ t then p.overlay own else p
  (l.filter fun e => decide (u < e.2.bnd)).foldl (fun p e => p.overlay (d.fieldsOf e.1)) p

/-! ## Settings of a TIMESTAMP (R55) -/

/-- How long settings and intervals are kept: longer than any block or capture takes to complete (log entry 11). -/
abbrev keepTicks : Nat := 131072

/-- The block with the settings in force for the sample of chip tick `t`: recent commits undone, or ACCEPTED ones applied.
Only registers differ. -/
def Dev.cfgAt (d : Dev) (t : Nat) : Dev :=
  if d.now < t then d.projectAt t [] t
  else d.past.foldl (fun d e => if t < e.1 then d.setAddr e.2.1 e.2.2 else d) d

/-- Note the words that a commit is about to change at this tick. -/
def Dev.notePast (d : Dev) (addrs : List Nat) : Dev :=
  { d with past := addrs.map (fun a => (d.now, a, d.atAddr a)) ++ d.past.filter fun e => decide (d.now ≤ e.1 + keepTicks) }

end Sys2Proof.Machine
end

