-- ==== Sys2Proof/Machine/Windows.lean ====
section
/-! DEFINITION. Windows, bursts, active intervals and gaps of the cells; the synthesiser that a cell selects; the levels
of the front-end pins (R108–R112, R116, R117, R123, R130, R131). Cells are numbered by their TARGET index: TX p at p,
RX p at 64 + p. -/

namespace Sys2Proof.Machine

/-- A power domain is asleep or still waking: what sleeps with it does not work (R349). -/
def Dev.domDown (d : Dev) (n : Nat) : Bool := (d.dom n).st == .asleep || (d.dom n).st == .waking

/-- The pair of path `p` is a diversity pair (R123). -/
def Dev.paired (d : Dev) (p : Nat) : Bool := d.fb (.divCtrl (p / 2)) 31

/-- The cell whose tables, bursts, LO_SEL and KEEP a cell uses: the even one of an enabled diversity pair (R123). -/
def Dev.tableCell (d : Dev) (c : Nat) : Nat := if d.paired (c % 64) then c / 2 * 2 else c

/-- The synthesiser that a cell selects (Table 1.2, R108). -/
def Dev.synOf (d : Dev) (c : Nat) : Nat :=
  2 * (c % 64 / 16) + d.f (.cellLo (d.tableCell c)) 0 0

/-- The synthesiser of a cell is READY. -/
def Dev.loReady (d : Dev) (c : Nat) : Bool := (d.syn (d.synOf c)).st == .ready

/-- A path is FDD; a diversity pair takes the duplex of its even path (Table 16.2). -/
def Dev.fdd (d : Dev) (p : Nat) : Bool := d.fb (.feMode (d.tableCell p)) 0

/-- KEEP of an RX cell. -/
def Dev.keep (d : Dev) (c : Nat) : Bool := d.fb (.convCfg c) 0

/-- Pin timing in force (Table 4.9). -/
def Dev.paLead (d : Dev) : Nat := d.f .fePaLead 13 0
def Dev.paLag (d : Dev) : Nat := d.f .fePaLag 11 0
def Dev.trLead (d : Dev) : Nat := d.f .feTrLead 11 0
def Dev.trLag (d : Dev) : Nat := d.f .feTrLag 11 0

/-- How long before START the active interval of a cell begins, and how long after its end it ends (R110, R131). -/
def Dev.leadOf (d : Dev) (c : Nat) : Nat :=
  if c < 64 then d.paLead + d.trLead else if d.keep (d.tableCell c) then 0 else Config.rxLead
def Dev.lagOf (d : Dev) (c : Nat) : Nat := if c < 64 then d.paLag + d.trLag else 0

/-- The period and the windows in use of a cell's own table, as START and LEN (R109). -/
def Dev.winPeriod (d : Dev) (c : Nat) : Nat := periodTicks (d.f (.winCtrl c) 14 12)
def Dev.winList (d : Dev) (c : Nat) : List (Nat × Nat) :=
  (List.range (d.f (.winCtrl c) 5 0)).map fun w => (d.f (.winStart c w) 24 0, d.f (.winLen c w) 24 0)

/-- The first occurrence of a table window whose active interval begins at or after chip tick `t`. -/
def Dev.occur (d : Dev) (c p t : Nat) (w : Nat × Nat) : Win :=
  let from0 := t + d.leadOf c - d.tb.t0 - w.1
  let start := d.tb.t0 + ceilTo p from0 + w.1
  { start := start, stop := start + w.2, activeEnd := start + w.2 + d.lagOf c }

/-- The window of a burst. -/
def Dev.burstWin (d : Dev) (c : Nat) (b : Burst) : Win :=
  { start := b.start, stop := b.start + b.len, activeEnd := b.start + b.len + d.lagOf c, burst := some b.tag }

/-- The earlier of two windows. -/
def earlier (a : Option Win) (b : Win) : Option Win :=
  match a with
  | none => some b
  | some x => if b.start < x.start then some b else some x

/-- The next window of a cell, table or burst, whose active interval begins at or after chip tick `t`. -/
def Dev.nextWin (d : Dev) (c t : Nat) : Option Win :=
  if !d.running then none else
  let tc := d.tableCell c
  let p := d.winPeriod tc
  let a := if p = 0 then none else (d.winList tc).foldl (fun a w => earlier a (d.occur c p t w)) none
  (d.bursts tc).foldl (fun a b =>
    if t + d.leadOf c ≤ b.start then earlier a (d.burstWin c b) else a) a

/-- The TX cell of a diversity pair that is selected; every other TX cell is its own (R125). -/
def Dev.txSelected (d : Dev) (p : Nat) : Bool := !d.paired p || decide (p % 2 = (d.divp (p / 2)).sel)

/-- A cell has windows in use, a pending burst or an enabled carrier (R366). -/
def Dev.windowsInUse (d : Dev) (c : Nat) : Bool := decide (d.f (.winCtrl c) 5 0 ≠ 0)
def Dev.anyCarrier (d : Dev) (c : Nat) : Bool := (List.range 8).any fun k => d.fb (.carrCfg c k) 31
def Dev.cellUsed (d : Dev) (c : Nat) : Bool :=
  d.windowsInUse (d.tableCell c) || !(d.bursts (d.tableCell c)).isEmpty || d.anyCarrier c

/-! ## Active intervals and gaps -/

/-- A cell's active interval, present or scheduled, meets the interval from `a` to `b` (last tick excluded). -/
def Dev.busyIn (d : Dev) (c a b : Nat) : Bool :=
  let cur := if c < 64 then (d.tx c).cur else (d.rx (c - 64)).cur
  let now := match cur with
    | some w => decide (w.start - d.leadOf c < b) && decide (a < w.activeEnd)
    | none => false
  let tc := d.tableCell c
  let p := d.winPeriod tc
  let hit (w : Win) : Bool := decide (w.start < b + d.leadOf c) && decide (a < w.activeEnd)
  let tab := decide (p ≠ 0) && d.running && (d.winList tc).any fun w =>
    hit (d.occur c p (a - (w.2 + d.lagOf c + d.leadOf c) + 1) w)
  now || tab || (d.bursts tc).any fun x => hit (d.burstWin c x)

/-- Path `p` has a gap from `a` to `b` (R110). -/
def Dev.gapIn (d : Dev) (p a b : Nat) : Bool := !d.busyIn p a b && !d.busyIn (64 + p) a b

/-! ## Front-end pins (R111, R112, R116, R117, R143) -/

/-- FE_PA of a path, driven level: low in boot, inactive after a trip, else the enable with PA_POL (Table 4.9). -/
def Dev.feLevel (d : Dev) (on : Bool) (p bit : Nat) : Bool :=
  if d.rf.polSet && d.fb (.feMode (if bit = 2 then d.tableCell p else p)) bit then !on else on
def Dev.fePa (d : Dev) (p : Nat) : Bool :=
  match d.boot.phase with
  | .up => d.feLevel (d.paPin p) p 1
  | .tripped | .trDone | .shutdown => d.feLevel false p 1
  | _ => false

/-- An RX window of a cell, from TR_LEAD before START to its end: the one in progress, or the next (R112). -/
def Dev.lnaOn (d : Dev) (p : Nat) : Bool :=
  match (d.rx p).cur with
  | some w => decide (w.start ≤ d.now + d.trLead) && decide (d.now < w.stop)
  | none =>
    match d.nextWin (64 + p) d.now with
    | some w => decide (w.start ≤ d.now + d.trLead)
    | none => false

/-- The logical level of FE_TR of a path: TX level on a TDD path, the LNA enable on an FDD path (R112). -/
def Dev.trLogic (d : Dev) (p : Nat) : Bool :=
  let e := d.tableCell p
  if d.fdd p then d.lnaOn e
  else if d.paired p then (d.tx e).seq != .gap || (d.tx (e + 1)).seq != .gap
  else (d.tx p).seq != .gap

/-- FE_TR of a path, driven level. -/
def Dev.feTr (d : Dev) (p : Nat) : Bool :=
  match d.boot.phase with
  | .up | .tripped => d.feLevel (d.trLogic p) p 2
  | .trDone | .shutdown => d.feLevel (d.fdd p) p 2
  | _ => false

/-- The ORX of a block drives its coupler toward the reverse direction: the second half of a mismatch job (R126, R143).
A job of N samples a direction takes N ticks and two input switches. -/
def Dev.couplerHigh (d : Dev) (b : Nat) : Bool :=
  let x := d.block b
  match x.orxJob with
  | some j =>
    (match j.who with
     | .mismatch tag =>
       (match x.mis.find? fun m => m.tag == tag with
        | some m => decide (x.orxAt + Config.orxSwitch + m.n / 2 ≤ d.now) &&
                    decide (d.now < x.orxAt + 2 * Config.orxSwitch + m.n)
        | none => false)
     | _ => false)
  | none => false

/-- FE_AUX of a block, driven level (Table 4.9). -/
def Dev.feAuxPin (d : Dev) (b : Nat) : Bool :=
  match d.boot.phase with
  | .up =>
    (match d.f (.feAux b) 1 0 with
     | 1 => d.couplerHigh b
     | 2 => (List.range 4).any fun i => (d.tx (4 * b + i)).seq == .on
     | _ => d.fb (.feAux b) 4)
  | _ => false

end Sys2Proof.Machine
end

