-- ==== Sys2Proof/Machine/Synth.lean ====
section
/-! DEFINITION. Synthesisers: relocks, phase measurements, the shared resource of a quadrant, loss of lock, and what they
do to the cells that select them (R24, R25, R100–R108, R115, R116). -/

namespace Sys2Proof.Machine

/-- The divider code for an LO frequency in kHz (R100). -/
def dividerCode (freq : Nat) : Nat :=
  if 6500000 ≤ freq then 0 else if 6500000 ≤ 2 * freq then 1 else if 6500000 ≤ 4 * freq then 2
  else if 6500000 ≤ 8 * freq then 3 else 4

/-! ## The cells of a synthesiser -/

/-- The TX paths that select synthesiser `n`. -/
def Dev.txOf (d : Dev) (n : Nat) : List Nat :=
  (List.range 16).filterMap fun i => if d.synOf (16 * (n / 2) + i) = n then some (16 * (n / 2) + i) else none

/-- Drop intervals that no block can need any more (log entry 11). -/
def prune (now : Nat) (l : List (Nat × Nat)) : List (Nat × Nat) := l.filter fun x => decide (now ≤ x.2 + keepTicks)

/-- Follow the readiness of the LO of RX path `p` (R106). -/
def Dev.markLo (d : Dev) (p : Nat) : Dev :=
  let x := d.rx p
  match d.loReady (64 + p), x.notReadyFrom with
  | true, some t => d.setRx p { x with notReadyFrom := none, dirty := prune d.now (x.dirty ++ [(t, d.now - 1)]) }
  | false, none => d.setRx p { x with notReadyFrom := some d.now }
  | _, _ => d

/-- Follow the readiness of all RX cells of a quadrant. -/
def Dev.markLos (d : Dev) (q : Nat) : Dev := (List.range 16).foldl (fun d i => d.markLo (16 * q + i)) d

/-! ## FE_PA queue (R116) -/

/-- Put a rise in the queue, ordered by join tick and then path. -/
def paJoin (e : Nat × Nat) : List (Nat × Nat) → List (Nat × Nat)
  | [] => [e]
  | x :: xs => if x.1 < e.1 ∨ (x.1 = e.1 ∧ x.2 ≤ e.2) then x :: paJoin e xs else e :: x :: xs

/-- A rise joins the chip-wide queue now. -/
def Dev.joinPa (d : Dev) (p : Nat) : Dev :=
  { d with rf := { d.rf with paQueue := paJoin (d.now, p) d.rf.paQueue } }

/-- Take a path's rise out of the queue. -/
def Dev.leavePa (d : Dev) (p : Nat) : Dev :=
  { d with rf := { d.rf with paQueue := d.rf.paQueue.filter fun x => x.2 != p } }

/-- A queued TX cell whose LO enters READY before START joins the queue (R116). -/
def Dev.rejoin (d : Dev) (p : Nat) : Dev :=
  let x := d.tx p
  match x.seq, x.cur with
  | .queued, some w =>
    if d.now < w.start ∧ ¬ (d.rf.paQueue.any fun e => e.2 == p) then d.joinPa p else d
  | _, _ => d

/-- The recent intervals of ON of a TX cell, with the one that ends now. -/
def Dev.onsOf (d : Dev) (p : Nat) : List (Nat × Nat) :=
  prune d.now (if (d.tx p).seq = .on then ((d.tx p).onFrom, d.now) :: (d.tx p).ons else (d.tx p).ons)

/-- The LO of a TX cell leaves READY: a queued rise is removed, and a cell in ON goes DARK at once (R115, R116). -/
def Dev.darken (d : Dev) (p : Nat) : Dev :=
  let d := d.leavePa p
  let x := d.tx p
  if x.seq = .on then (d.setTx p { x with seq := .dark, paFell := d.now, ons := d.onsOf p }).setPaPin p false else d

/-- What follows when synthesiser `n` leaves READY. -/
def Dev.loLeft (d : Dev) (n : Nat) : Dev := ((d.txOf n).foldl Dev.darken d).markLos (n / 2)

/-- What follows when synthesiser `n` enters READY. -/
def Dev.loEntered (d : Dev) (n : Nat) : Dev := ((d.txOf n).foldl Dev.rejoin d).markLos (n / 2)

/-! ## Operations -/

/-- The rank of an operation class (Table 1.6). -/
def OpKind.rank : OpKind → Nat
  | .recovery => 1
  | .commanded => 2
  | .measure => 3

/-- First come first served within a class, lower classes first (R24). -/
def opInsert (o : SynOp) : List SynOp → List SynOp
  | [] => [o]
  | x :: xs => if x.kind.rank ≤ o.kind.rank then x :: opInsert o xs else o :: x :: xs

/-- Queue an operation of synthesiser `n`. -/
def Dev.queueOp (d : Dev) (n : Nat) (k : OpKind) : Dev :=
  d.setRes (n / 2) { d.res (n / 2) with waiting := opInsert { syn := n, kind := k } (d.res (n / 2)).waiting }

/-- Withdraw the waiting operations of synthesiser `n`. -/
def Dev.withdrawOps (d : Dev) (n : Nat) : Dev :=
  d.setRes (n / 2) { d.res (n / 2) with waiting := (d.res (n / 2)).waiting.filter fun o => o.syn != n }

/-- An operation of synthesiser `n` holds the shared resource. -/
def Dev.holdsRes (d : Dev) (n : Nat) : Bool :=
  match (d.res (n / 2)).run with
  | some o => o.syn == n
  | none => false

/-- The result of a running measurement or calibration of `n` is dropped when it ends. -/
def Dev.dropRunning (d : Dev) (n : Nat) : Dev :=
  if d.holdsRes n then d.setSyn n { d.syn n with drop := true } else d

/-- Queue the phase measurement of a synthesiser in PHASE, if the timebase runs (R105). -/
def Dev.queuePhase (d : Dev) (n : Nat) : Dev := if d.running then d.queueOp n .measure else d

/-- Start a relock ordered by a commit (R102). -/
def Dev.relock (d : Dev) (n : Nat) : Dev :=
  match (d.syn n).st with
  | .wait | .bandcal | .settle => d.setSyn n { d.syn n with again := true, exempt := false }
  | _ =>
    let d := (d.withdrawOps n).dropRunning n
    let d := d.setSyn n { d.syn n with st := .wait, recovery := false, exempt := false, again := false,
                                       applyAt := none, tracking := false, trackDue := none }
    (d.queueOp n .commanded).loLeft n

/-- A commit of EN = 0 (R102). -/
def Dev.synOff (d : Dev) (n : Nat) : Dev :=
  let d := (d.withdrawOps n).dropRunning n
  let x := d.syn n
  (d.setSyn n { x with st := .off, lock := false, again := false, recovery := false, exempt := false,
                       applyAt := none, tracking := false, trackDue := none }).loLeft n

/-- Put synthesiser `n` in WAIT for a recovery relock (R102, R103). -/
def Dev.recover (d : Dev) (n : Nat) : Dev :=
  let d := (d.withdrawOps n).dropRunning n
  let d := d.setSyn n { d.syn n with st := .wait, lock := false, recovery := true, exempt := true,
                                     applyAt := none, tracking := false, trackDue := none }
  (d.queueOp n .recovery).loLeft n

/-- LOCK_LOST of quadrant q (Table 1.8). -/
def Dev.reportLock (d : Dev) (n : Nat) : Dev := d.fault 0x0305 (n / 2) (d.locOf 1 (n / 2)) 0

/-- The relock that waited behind a finished or failed one runs (R102). -/
def Dev.relockAgain (d : Dev) (n : Nat) : Dev :=
  (d.setSyn n { d.syn n with st := .wait, again := false, recovery := false, exempt := false }).queueOp n .commanded

/-! ## Rows -/

/-- A waiting operation is granted when the shared resource is free (R24). While a band calibration runs the detector sees
no lock (DEDUCED, log entry 12). -/
def Dev.synthGrant (d : Dev) (q : Nat) : Dev :=
  let r := d.res q
  match r.run, r.waiting with
  | none, o :: rest =>
    let d := d.setRes q { run := some o, since := d.now, waiting := rest }
    if o.kind = .measure then d
    else d.setSyn o.syn { d.syn o.syn with st := .bandcal, lock := false, calAt := d.now,
                                           div := dividerCode (d.f (.synFreq o.syn) 23 0) }
  | _, _ => d

/-- The shared resource of a quadrant is free again. -/
def Dev.freeRes (d : Dev) (q : Nat) : Dev := d.setRes q { d.res q with run := none }

/-- The end of a band calibration, 20 µs after it began (R101). -/
def Dev.bandcalEnd (d : Dev) (n : Nat) : Dev :=
  match (d.res (n / 2)).run with
  | some o =>
    if o.syn = n ∧ o.kind ≠ .measure then
      let d := (d.goTo ((d.res (n / 2)).since + us 20)).freeRes (n / 2)
      let x := d.syn n
      if x.drop then d.setSyn n { x with drop := false } else d.setSyn n { x with st := .settle }
    else d
  | none => d

/-- The lock detector asserts in SETTLE (R101, R102). -/
def Dev.synLock (d : Dev) (n : Nat) : Dev :=
  let x := d.syn n
  if x.st = .settle then
    if x.again then (d.setSyn n { x with lock := true }).relockAgain n
    else (d.setSyn n { x with st := .phase, lock := true, recovery := false }).queuePhase n
  else d

/-- A relock has not locked 60 µs after BANDCAL began (R102). -/
def Dev.relockFail (d : Dev) (n : Nat) : Dev :=
  let x := d.syn n
  if x.st = .settle then
    let d := d.goTo (x.calAt + us 60)
    if x.recovery then
      (if x.again then d.relockAgain n else d.setSyn n { x with st := .unlocked })
    else (d.reportLock n).recover n
  else d

/-- Loss of lock in PHASE or READY (R103). -/
def Dev.lockLost (d : Dev) (n : Nat) : Dev :=
  match (d.syn n).st with
  | .phase | .ready => (d.reportLock n).recover n
  | _ => d

/-- The correction that a phase measurement finds, in 1/65,536 turn (R104, R105). -/
def Dev.measured (d : Dev) (n : Nat) : Nat := (Config.loPhase n d.now).toNat

/-- A phase measurement ends 2.0 µs after it began (R105, R107). -/
def Dev.phaseEnd (d : Dev) (n : Nat) : Dev :=
  match (d.res (n / 2)).run with
  | some o =>
    if o.syn = n ∧ o.kind = .measure then
      let d := (d.goTo ((d.res (n / 2)).since + us 2)).freeRes (n / 2)
      let x := d.syn n
      if x.drop then d.setSyn n { x with drop := false }
      else if x.st = .phase then
        d.setSyn n { x with target := d.measured n, applyAt := some (d.nextPathBlock d.now) }
      else if x.st = .ready then d.setSyn n { x with target := d.measured n, tracking := true, movedAt := d.now }
      else d
    else d
  | none => d

/-- The former corrections of a synthesiser, with the one that ends now. -/
def Dev.formerCorrs (d : Dev) (n : Nat) : List (Nat × Nat) :=
  (d.now, (d.syn n).corr) :: (d.syn n).corrs.filter fun e => decide (d.now ≤ e.1 + keepTicks)

/-- The correction is applied at a path-block boundary: READY, and LO_READY fires (R105). -/
def Dev.loReadyRow (d : Dev) (n : Nat) : Dev :=
  let x := d.syn n
  match x.st, x.applyAt with
  | .phase, some t =>
    let d := d.goTo t
    let d := d.setSyn n { x with st := .ready, corr := x.target, corrs := d.formerCorrs n, applyAt := none, exempt := false,
                                 trackDue := some (d.now + ms 1) }
    (d.loEntered n).event (80 + n) (d.locOf 6 (64 + n)) 0
  | _, _ => d

/-- Every 1 ms in READY a tracking measurement is queued (R107). -/
def Dev.trackingQueue (d : Dev) (n : Nat) : Dev :=
  let x := d.syn n
  match x.st, x.trackDue with
  | .ready, some t =>
    let d := d.goTo t
    (d.setSyn n { x with trackDue := some (t + ms 1) }).queueOp n .measure
  | _, _ => d

/-- 0.5° in 1/65,536 turn, rounded down (DEDUCED, log entry 12). -/
abbrev trackLimit : Nat := 91

/-- One tracking step toward the measured correction, the shorter way round. -/
def trackStep (corr target : Nat) : Nat :=
  let up := (target + 65536 - corr) % 65536
  if up ≤ trackLimit ∨ 65536 - up ≤ trackLimit then target
  else if up < 32768 then (corr + trackLimit) % 65536 else (corr + 65536 - trackLimit) % 65536

/-- At each path-block boundary the correction moves toward the measured value (R107). -/
def Dev.trackingMove (d : Dev) (n : Nat) : Dev :=
  let x := d.syn n
  if x.st = .ready ∧ x.tracking then
    let d := d.goTo (d.alignUp 16 (max d.now (x.movedAt + 1)))
    let c := trackStep x.corr x.target
    d.setSyn n { x with corr := c, corrs := d.formerCorrs n, tracking := decide (c ≠ x.target), movedAt := d.now }
  else d

/-- The timebase stops: PHASE and READY synthesisers enter PHASE and their measurements wait (R44). -/
def Dev.synStop (d : Dev) (n : Nat) : Dev :=
  match (d.syn n).st with
  | .phase | .ready =>
    let d := (d.withdrawOps n).dropRunning n
    (d.setSyn n { d.syn n with st := .phase, applyAt := none, tracking := false, trackDue := none }).loLeft n
  | _ => d

/-- The timebase enters RUN: the measurements of synthesisers in PHASE are queued (R105). -/
def Dev.synRun (d : Dev) (n : Nat) : Dev := if (d.syn n).st = .phase then d.queueOp n .measure else d

end Sys2Proof.Machine
end

