-- ==== Sys2Proof/Machine/Cells.lean ====
section
/-! DEFINITION. The cell sequencers and converters: TX windows and FE_PA rises, RX windows, bursts, ADC and DAC pairs,
over-range, diversity (R111–R116, R123–R125, R129–R140). -/

namespace Sys2Proof.Machine

/-! ## TX windows -/

/-- Mark the pending burst of a window that begins. -/
def Dev.beginBurst (d : Dev) (c : Nat) (w : Win) : Dev :=
  match w.burst with
  | some tag => d.setBursts (d.tableCell c)
      ((d.bursts (d.tableCell c)).map fun b => if b.tag = tag ∧ b.start = w.start then { b with begun := true } else b)
  | none => d

/-- Mark the burst of a window as LATE. -/
def Dev.lateBurst (d : Dev) (c : Nat) (w : Win) : Dev :=
  match w.burst with
  | some tag => d.setBursts (d.tableCell c)
      ((d.bursts (d.tableCell c)).map fun b => if b.tag = tag ∧ b.start = w.start then { b with late := true } else b)
  | none => d

/-- The next window of a TX cell in GAP; the unselected cell of a diversity pair has none (R125). -/
def Dev.txNext (d : Dev) (p : Nat) : Option Win :=
  if (d.tx p).seq = .gap ∧ d.txSelected p then d.nextWin p d.now else none

/-- At START − PA_LEAD − TR_LEAD the cell enters PREP; FE_TR of a TDD path goes to TX level (R111). -/
def Dev.prep (d : Dev) (p : Nat) : Dev :=
  match d.txNext p with
  | some w =>
    let d := d.goTo (w.start - d.leadOf p)
    (d.setTx p { d.tx p with seq := .prep, cur := some w, undr := false }).beginBurst p w
  | none => d

/-- At START − PA_LEAD the cell enters QUEUED, and joins the queue if its LO is READY (R116). -/
def Dev.queueRise (d : Dev) (p : Nat) : Dev :=
  let x := d.tx p
  match x.seq, x.cur with
  | .prep, some w =>
    let d := d.goTo (w.start - d.paLead)
    let d := d.setTx p { x with seq := .queued }
    if d.loReady p ∧ d.now < w.start then d.joinPa p else d
  | _, _ => d

/-- The effective step budget: STEP, or the FE_STEP of the ladder step in force when lower (R116, R361). -/
def Dev.feStep (d : Dev) : Nat :=
  let s := d.f .feBudget 6 0
  if d.pwr.step = 0 then s else min s (d.f (.plStep d.pwr.step) 6 0)

/-- The first tick at or after now at which the budget admits one more rise. -/
def Dev.riseTick (d : Dev) : Nat :=
  let l := d.rf.rises.filter fun r => decide (d.now ≤ r + 1966)
  let b := d.feStep
  if l.length < b then d.now
  else match l[l.length - b]? with
    | some r => max d.now (r + 1967)
    | none => d.now

/-- The head of the queue is granted: FE_PA rises and the cell enters ON (R116). -/
def Dev.paRise (d : Dev) : Dev :=
  match d.rf.paQueue with
  | (_, p) :: rest =>
    (match (d.tx p).cur with
     | some w =>
       let t := d.riseTick
       if t < w.start ∧ d.feStep ≠ 0 then
         let d := d.goTo t
         let d := { d with rf := { d.rf with paQueue := rest,
                                             rises := (d.rf.rises.filter fun r => decide (d.now ≤ r + 1966)) ++ [d.now] } }
         (d.setTx p { d.tx p with seq := .on, onFrom := d.now }).setPaPin p true
       else d
     | none => { d with rf := { d.rf with paQueue := rest } })
  | [] => d

/-- The loss-of-lock exemption covers a cell (R115). -/
def Dev.exempt (d : Dev) (c : Nat) : Bool := (d.syn (d.synOf c)).exempt && !d.loReady c

/-- PA_LATE of a scheduled window (R115). -/
def Dev.reportPaLate (d : Dev) (p : Nat) : Dev := d.fault 0x0104 (p / 16) (d.locOf 3 p) 0

/-- A window not granted by START enters DARK; a burst is marked LATE instead of reporting (R114–R116). -/
def Dev.darkRow (d : Dev) (p : Nat) : Dev :=
  let x := d.tx p
  match x.seq, x.cur with
  | .queued, some w =>
    let d := (d.goTo w.start).leavePa p
    let d := d.setTx p { d.tx p with seq := .dark }
    if w.burst.isSome then d.lateBurst p w
    else if d.exempt p then d else d.reportPaLate p
  | _, _ => d

/-- At START + LEN + PA_LAG FE_PA falls and the cell enters TAIL (R111). -/
def Dev.tailRow (d : Dev) (p : Nat) : Dev :=
  let x := d.tx p
  match x.cur with
  | some w =>
    if x.seq = .on ∨ x.seq = .dark then
      let d := d.goTo (w.stop + d.paLag)
      (d.setTx p { d.tx p with seq := .tail, paFell := d.now, ons := d.onsOf p }).setPaPin p false
    else d
  | none => d

/-- TR_LAG later the cell returns to GAP (R111). -/
def Dev.gapRow (d : Dev) (p : Nat) : Dev :=
  let x := d.tx p
  if x.seq = .tail then
    let d := d.goTo (x.paFell + d.trLag)
    d.setTx p { d.tx p with seq := .gap, cur := none
                            wins := prune d.now ((d.tx p).wins ++ (x.cur.toList.map fun w => (w.start, w.stop))) }
  else d

/-! ## DAC pairs (R140) -/

/-- When the DAC pair of a window powers up. -/
def Dev.dacUpAt (d : Dev) (p : Nat) (w : Win) : Nat := min (w.start - d.leadOf p) (w.start - Config.dacEarly)

/-- The window whose DAC power-up is next: the one in progress, or the next. -/
def Dev.dacWin (d : Dev) (p : Nat) : Option Win :=
  match (d.tx p).cur with
  | some w => some w
  | none => if d.txSelected p then d.nextWin p d.now else none

/-- The DAC pair powers up, unless its cell sleeps (R349). -/
def Dev.dacUp (d : Dev) (p : Nat) : Dev :=
  match (d.tx p).dac, d.dacWin p with
  | .off, some w =>
    if d.domDown p then d else
    let d := d.goTo (d.dacUpAt p w)
    d.setTx p { d.tx p with dac := .starting, dacAt := d.now }
  | _, _ => d

/-- Its start-up ends 787 ticks later. -/
def Dev.dacStarted (d : Dev) (p : Nat) : Dev :=
  let x := d.tx p
  if x.dac = .starting then
    let d := d.goTo (x.dacAt + Config.dacStart)
    d.setTx p { d.tx p with dac := .powered }
  else d

/-- The next power-up falls within 1,966 ticks of `t`, or has fallen already (leads below 1,024 ticks: R140). -/
def Dev.dacSoon (d : Dev) (p t : Nat) : Bool :=
  match d.nextWin p t with
  | some w => d.txSelected p && decide (d.dacUpAt p w ≤ t + Config.stayOn)
  | none => false

/-- At the end of the active interval the pair returns to OFF, or stays at mid-scale (R140). -/
def Dev.dacDown (d : Dev) (p : Nat) : Dev :=
  let x := d.tx p
  if (x.seq = .tail ∨ x.seq = .gap) ∧ x.dac = .powered ∧ d.now ≤ x.paFell + d.trLag then
    let d := d.goTo (x.paFell + d.trLag)
    if d.dacSoon p d.now then d else d.setTx p { d.tx p with dac := .off }
  else d

/-- DAC_STAT.STATE (Table 5.5). -/
def Dev.dacState (d : Dev) (p : Nat) : Nat :=
  let x := d.tx p
  match x.dac with
  | .off => 0
  | .starting => 1
  | .powered =>
    (match x.cur with
     | some w => if w.start ≤ d.now ∧ d.now < w.stop ∧ x.seq ≠ .dark then 3 else 2
     | none => 2)

/-! ## RX windows and ADC pairs (R112, R129–R131) -/

/-- The next RX window of a path, when none is in progress. -/
def Dev.rxNext (d : Dev) (p : Nat) : Option Win :=
  match (d.rx p).cur with
  | some _ => none
  | none => d.nextWin (64 + p) d.now

/-- An RX active interval begins: the ADC pair leaves OFF (R130), that of a sleeping cell once the cell wakes (R349). -/
def Dev.rxActive (d : Dev) (p : Nat) : Dev :=
  match d.rxNext p with
  | some w =>
    let d := d.goTo (w.start - d.leadOf (64 + p))
    let x := d.rx p
    let x := if x.adc = .off ∧ !d.domDown (64 + p) then { x with adc := .starting, adcAt := d.now } else x
    (d.setRx p { x with cur := some w }).beginBurst (64 + p) w
  | none => d

/-- An RX pair that begins to convert while an over-range of a neighbour still disturbs the block is disturbed with it, until
8 ticks after that neighbour's input returns (R135). -/
def Dev.joinTail (d : Dev) (p : Nat) : Dev :=
  let tail := ((List.range 4).map fun i => if p / 4 * 4 + i = p then 0 else (d.rx (p / 4 * 4 + i)).tail).foldl max 0
  if d.now < tail then
    d.setRx p { d.rx p with nbr := true, nbrLast := tail - 9, dirty := prune d.now ((d.rx p).dirty ++ [(d.now, tail - 1)]) }
  else d

/-- 3,933 ticks after STARTING the pair enters RUN (R129). -/
def Dev.adcRun (d : Dev) (p : Nat) : Dev :=
  let x := d.rx p
  if x.adc = .starting then
    let d := d.goTo (x.adcAt + Config.adcStart)
    (d.setRx p { d.rx p with adc := .run, runFrom := some d.now }).joinTail p
  else d

/-- ADC_OVR of an RX path (Table 14.1). -/
def Dev.reportOvr (d : Dev) (p : Nat) : Dev := d.fault 0x0102 (p / 16) (d.locOf 3 (64 + p)) 0

/-- An over-range conversion of RX path `q`, outside its own windows, still disturbs a window of path `p` that starts now:
it is reported once for that window (R137). -/
def Dev.strayOvr (d : Dev) (p q : Nat) : Dev :=
  let x := d.rx q
  if q ≠ p ∧ x.ovr ∧ x.adc = .run ∧ (d.rx p).nbr ∧ d.now ≤ x.ovrLast + 8 ∧
      (x.wins.any fun w => decide (w.1 ≤ x.ovrLast) && decide (x.ovrLast < w.2)) = false then
    (d.setRx q { x with nbrTold := x.nbrTold ++ [p] }).reportOvr q
  else d

/-- At START the cell enters ON; a burst whose LO is not READY is LATE at its end (R112, R114, R137). -/
def Dev.rxStart (d : Dev) (p : Nat) : Dev :=
  let x := d.rx p
  match x.on, x.cur with
  | false, some w =>
    let d := d.goTo w.start
    let d := d.setRx p { d.rx p with on := true, ovrTold := false,
                                     wins := prune d.now ((d.rx p).wins ++ [(w.start, w.stop)]) }
    let d := (List.range 4).foldl (fun d i =>
      let n := p / 4 * 4 + i
      d.setRx n { d.rx n with nbrTold := (d.rx n).nbrTold.filter (· != p) }) d
    let d := (List.range 4).foldl (fun d i => d.strayOvr p (p / 4 * 4 + i)) d
    let d := if d.paired p then d.setDivp (p / 2) { d.divp (p / 2) with detected := false } else d
    if d.loReady (64 + p) then d else d.lateBurst (64 + p) w
  | _, _ => d

/-- The ADC pair of an RX path powers down: its interval of RUN ends. -/
def Dev.adcOff (d : Dev) (p : Nat) : Dev :=
  let x := d.rx p
  let spans := match x.runFrom with
    | some t => prune d.now (x.spans ++ [(t, d.now - 1)])
    | none => x.spans
  d.setRx p { x with adc := .off, runFrom := none, spans := spans, ovr := false, nbr := false }

/-- The next active interval of an RX cell begins within 1,966 ticks of `t` (R130). -/
def Dev.rxSoon (d : Dev) (p t : Nat) : Bool :=
  match d.nextWin (64 + p) t with
  | some w => decide (w.start ≤ t + Config.stayOn + d.leadOf (64 + p))
  | none => false

/-- At the end of an RX window the cell enters GAP and the ADC pair powers down, unless KEEP or the next interval holds it
(R130, R131). -/
def Dev.rxEnd (d : Dev) (p : Nat) : Dev :=
  let x := d.rx p
  match x.on, x.cur with
  | true, some w =>
    let d := d.goTo w.stop
    let d := d.setRx p { d.rx p with on := false, cur := none }
    if d.keep (d.tableCell (64 + p)) ∨ d.rxSoon p d.now then d else d.adcOff p
  | _, _ => d

/-- A commit changes KEEP of an RX cell (R131). -/
def Dev.keepChanged (d : Dev) (p : Nat) : Dev :=
  let x := d.rx p
  if d.keep (d.tableCell (64 + p)) then
    (if x.adc = .off then d.setRx p { x with adc := .starting, adcAt := d.now } else d)
  else if x.cur.isNone ∧ x.adc ≠ .cal then d.adcOff p else d

/-- An RX cell wakes: its pair starts up if an active interval is in progress (R349). -/
def Dev.adcWake (d : Dev) (p : Nat) : Dev :=
  let x := d.rx p
  if x.adc = .off ∧ x.cur.isSome then d.setRx p { x with adc := .starting, adcAt := d.now } else d

/-- ADC_STAT.STATE (Table 5.1). -/
def AdcSt.code : AdcSt → Nat
  | .off => 0
  | .starting => 1
  | .run => 2
  | .cal => 3

/-! ## Over-range (R133–R137) -/

/-- The neighbours of an RX path in its block that convert (R135). -/
def Dev.neighbours (d : Dev) (p : Nat) : List Nat :=
  ((List.range 4).map fun i => p / 4 * 4 + i).filter fun n => n != p && ((d.rx n).adc == .run || (d.rx n).adc == .cal)

/-- An over-range conversion now on RX path `p`. -/
def Dev.adcOvr (d : Dev) (p : Nat) : Dev :=
  let x := d.rx p
  if x.adc = .run ∨ x.adc = .cal then
    let d := d.setRx p { x with ovr := true, ovrLast := d.now, tail := d.now + 9,
                                dirty := prune d.now (x.dirty ++ [(d.now, d.now + 24)]) }
    let ns := d.neighbours p
    let d := ns.foldl (fun d n =>
      d.setRx n { d.rx n with nbr := true, nbrLast := d.now,
                              dirty := prune d.now ((d.rx n).dirty ++ [(d.now, d.now + 8)]) }) d
    if x.adc = .cal then d
    else if x.on then
      (if x.ovrTold then d else (d.setRx p { d.rx p with ovrTold := true }).reportOvr p)
    else
      ns.foldl (fun d n =>
        if (d.rx n).on ∧ ¬ (d.rx p).nbrTold.contains n then
          (d.setRx p { d.rx p with nbrTold := (d.rx p).nbrTold ++ [n] }).reportOvr p
        else d) d
  else d

/-- The first clean conversion of the cell: 25 ticks after the last over-range one (R134). -/
def Dev.ovrEnd (d : Dev) (p : Nat) : Dev :=
  let x := d.rx p
  if x.ovr then
    let d := d.goTo (x.ovrLast + 25)
    d.setRx p { d.rx p with ovr := false }
  else d

/-- The first clean conversion of a neighbour: 9 ticks after the last over-range one (R135). -/
def Dev.nbrEnd (d : Dev) (p : Nat) : Dev :=
  let x := d.rx p
  if x.nbr then
    let d := d.goTo (x.nbrLast + 9)
    d.setRx p { d.rx p with nbr := false }
  else d

/-! ## Bursts (R114) -/

/-- A TX burst that was marked LATE and has not replied: its reply is due at START. -/
def Dev.lateDue (d : Dev) (c : Nat) : Option Burst :=
  if c < 64 then (d.bursts c).find? fun b => b.late && !b.replied else none

/-- The burst of a cell whose active interval ends first. -/
def firstBurst : List Burst → Option Burst
  | [] => none
  | b :: bs => match firstBurst bs with
    | some x => if x.start < b.start then some x else some b
    | none => some b

/-- The final reply of a burst: at START when it was not granted, otherwise at the end of its active interval (R114). A
TX burst that no sequencer began is LATE too. -/
def Dev.burstEnd (d : Dev) (c : Nat) : Dev :=
  match d.lateDue c with
  | some b =>
    let d := d.goTo b.start
    let d := d.setBursts c ((d.bursts c).map fun x => if x.tag = b.tag ∧ x.start = b.start then { x with replied := true } else x)
    d.finishPart b.tag (d.locOf 3 c).toNat (plain sLate)
  | none =>
    match firstBurst (d.bursts c) with
    | some b =>
      let d := d.goTo (d.burstWin c b).activeEnd
      let d := d.setBursts c ((d.bursts c).filter fun x => !(x.tag == b.tag && x.start == b.start))
      if b.replied then d
      else d.finishPart b.tag (d.locOf 3 c).toNat (if b.late ∨ b.begun = false then plain sLate else plain sOk)
    | none => d

end Sys2Proof.Machine
end

