-- ==== Sys2Proof/Machine/Blocks.lean ====
section
/-! DEFINITION. Blocks: the ORX and RFFE arbiters, RFFE mailboxes and timed entries, mismatch measurements and capture
mailboxes (R15–R19, R118–R122, R126, R141–R145, R210–R214). -/

namespace Sys2Proof.Machine

/-! ## Arbitration -/

/-- How far a position lies from the rotation pointer (R17). -/
def rotation (ptr pos : Nat) : Nat := (pos + 4 - ptr) % 4

/-- The winning request by class and then rotation; an earlier one wins ties. `key` gives class and position. -/
def arbitrate {α : Type} (key : α → Nat × Nat) (ptr : Nat) (ok : α → Bool) : List α → Option α
  | [] => none
  | x :: xs =>
    match arbitrate key ptr ok xs with
    | none => if ok x then some x else none
    | some y =>
      let kx := 4 * (key x).1 + rotation ptr (key x).2
      let ky := 4 * (key y).1 + rotation ptr (key y).2
      if ok x ∧ kx ≤ ky then some x else some y

/-- Remove the first element equal to `x`. -/
def dropOne {α : Type} [DecidableEq α] (x : α) : List α → List α
  | [] => []
  | y :: ys => if x = y then ys else y :: dropOne x ys

/-- 2 ms, after which a request is raised one class (R18). -/
abbrev raiseAfter : Nat := 2 * Config.msTicks

/-- When a request is next raised; a class-1 request never is. -/
def raiseDue (cls since raised : Nat) : Option Nat := if 2 ≤ cls then some (since + raiseAfter * (raised + 1)) else none

/-- The earlier of two ticks. -/
def minDue (a b : Option Nat) : Option Nat :=
  match a, b with
  | some x, some y => some (min x y)
  | some x, none => some x
  | none, y => y

/-- The first raise due in a block. -/
def Blk.raiseAt (x : Blk) : Option Nat :=
  minDue ((x.orxQ.map fun j => raiseDue j.cls j.since j.raised).foldl minDue none)
    ((x.rffeQ.map fun j => raiseDue j.cls j.since j.raised).foldl minDue none)

/-- Every request of a block whose raise is due by `t` goes up one class (R18). -/
def Blk.raise (x : Blk) (t : Nat) : Blk :=
  { x with
    orxQ := x.orxQ.map fun j => match raiseDue j.cls j.since j.raised with
      | some u => if u ≤ t then { j with cls := j.cls - 1, raised := j.raised + 1 } else j
      | none => j
    rffeQ := x.rffeQ.map fun j => match raiseDue j.cls j.since j.raised with
      | some u => if u ≤ t then { j with cls := j.cls - 1, raised := j.raised + 1 } else j
      | none => j }

/-- A block request that has waited 2 ms is raised. -/
def Dev.raiseRow (d : Dev) (b : Nat) : Dev :=
  match (d.block b).raiseAt with
  | some t => let d := d.goTo t
              d.setBlock b ((d.block b).raise t)
  | none => d

/-! ## Captures: fields of CREQ0 (Table 8.7) -/

def capL (w : Word) : Nat := fld w 14 0
def capTrig (w : Word) : Bool := bitOf w 16
def capClass (w : Word) : Nat := fld w 19 18
def capRef (w : Word) : Nat := fld w 21 20
def capMask (w : Word) : Nat := fld w 27 24
def capSrc (w : Word) : Nat := fld w 30 28
def capOrx (w : Word) : Bool := bitOf w 31

/-- The rotation position of a capture: that of the lowest path it names, by SRC or by REFMASK (R17). -/
def capPos (w : Word) : Nat := (List.range 4).find? (fun i => decide (capSrc w % 4 = i) || nbit (capMask w) i) |>.getD 0

/-- The capture path of a block (R212). -/
def capPath (b : Nat) (w : Word) : Nat := 4 * b + capSrc w % 4

/-- The size of a capture in words (R211). -/
def capWords (w : Word) : Nat := 264 + 2 * capL w * b2n (capOrx w) + capL w * popcount 4 (capMask w)

/-- The slot of a block. -/
def Dev.slot (d : Dev) (b s : Nat) : CapSlot := Tbl.get (fun _ => {}) (d.block b).slots s
def Dev.setSlot (d : Dev) (b s : Nat) (x : CapSlot) : Dev :=
  d.setBlock b { d.block b with slots := Tbl.set (fun _ => {}) (d.block b).slots s x }

/-- The state of a region: 0 free, 1 FILLING, 2 DONE. -/
def Dev.region (d : Dev) (b r : Nat) : Nat := Tbl.get (fun _ => 0) (d.block b).regions r
def Dev.setRegion (d : Dev) (b r v : Nat) : Dev :=
  d.setBlock b { d.block b with regions := Tbl.set (fun _ => 0) (d.block b).regions r v }
def Dev.setRegions (d : Dev) (b first count v : Nat) : Dev :=
  (List.range count).foldl (fun d i => d.setRegion b (first + i) v) d

/-- The lowest run of `n` free regions (R211). -/
def Dev.freeRun (d : Dev) (b n : Nat) : Option Nat :=
  (List.range 8).find? fun r => decide (r + n ≤ 8) && (List.range n).all fun i => d.region b (r + i) == 0

/-! ## ORX jobs -/

/-- Put an ORX job in the queue of its block (R15). -/
def Dev.orxEnqueue (d : Dev) (b : Nat) (j : OrxJob) : Dev :=
  d.setBlock b { d.block b with orxQ := (d.block b).orxQ ++ [j] }

/-- First multiple of 16 at which an untriggered capture could start: after the switch of an ORX job granted at `g`. -/
def Dev.capT0 (d : Dev) (w : Word) (g : Option Nat) : Nat :=
  match g with
  | some t => d.alignUp 16 (max d.now (if capOrx w then t + Config.orxSwitch else t))
  | none => d.alignUp 16 d.now

/-- The TX cell of a path is in ON, and its window holds the `n` ticks from `t` (R126). -/
def Dev.onFor (d : Dev) (p t n : Nat) : Bool :=
  (d.tx p).seq == .on &&
  match (d.tx p).cur with
  | some w => decide (w.start ≤ t) && decide (t + n ≤ w.stop)
  | none => false

/-- The TX cell of a path is in ON at `t`, from the rise of its FE_PA on, with at least `n` ticks of its window remaining (Table
4.5, R212). -/
def Dev.onWith (d : Dev) (p t n : Nat) : Bool :=
  (d.tx p).seq == .on &&
  match (d.tx p).cur with
  | some w => decide (max t w.start + n ≤ w.stop) && decide (t < w.stop)
  | none => false

/-- The longest that a job with one input switch may hold the ORX: 200 ns and 16,384 ticks (R16). -/
abbrev orxHold : Nat := Config.orxSwitch + 16384

/-- A job may start now: a mismatch job needs a window that covers it (R126), an untriggered capture a window that covers it
after its switch, and a triggered capture is not granted so early that it would hold the ORX for longer than R16 allows. Until
then the job waits in its queue while others are granted, also beyond the bound of its class in R19, which does not say how
a job that waits for a window counts (DESIGN CHOICE, log entry 30). A triggered capture that the bound of R16 holds back is
granted in time: its T comes within the bound. -/
def Dev.jobReady (d : Dev) (b : Nat) (j : OrxJob) : Bool :=
  match j.who with
  | .mismatch tag =>
    (match (d.block b).mis.find? fun m => m.tag == tag with
     | some m => d.onFor m.path d.now (m.n + 2 * Config.orxSwitch)
     | none => false)
  | .capture s =>
    (match (d.slot b s).cap with
     | some c =>
       if capTrig c.w0 then decide (c.t + capL c.w0 ≤ d.now + orxHold)
       else d.onWith (capPath b c.w0) (d.capT0 c.w0 (some d.now)) (capL c.w0)
     | none => false)
  | .cal _ _ => true

/-- The ORX is granted to the winning job that may start; the job begins with its input switch (R16, R17, R142). -/
def Dev.orxGrant (d : Dev) (b : Nat) : Dev :=
  let x := d.block b
  if x.orx = .idle then
    match arbitrate (fun j => (j.cls, j.pos)) x.orxPtr (fun j => d.jobReady b j) x.orxQ with
    | some j =>
      let d := d.setBlock b { x with orx := .busy, orxAt := d.now, orxJob := some j, orxQ := dropOne j x.orxQ,
                                     orxPtr := (j.pos + 1) % 4 }
      (match j.who with
       | .capture s =>
         (match (d.slot b s).cap with
          | some c => d.setSlot b s { d.slot b s with cap := some { c with granted := some d.now } }
          | none => d)
       | _ => d)
    | none => d
  else d

/-- The ORX is free: it idles, or powers down when EN has been cleared (R144). -/
def Blk.orxFree (x : Blk) : Blk :=
  { x with orx := if x.stop then .off else .idle, orxJob := none }

/-- 19,661 ticks after EN = 1 the ORX enters IDLE (R144). -/
def Dev.orxStarted (d : Dev) (b : Nat) : Dev :=
  let x := d.block b
  if x.orx = .starting then
    let d := d.goTo (x.orxAt + Config.orxStart)
    d.setBlock b { d.block b with orx := .idle }
  else d

/-! ## Captures -/

/-- End a capture in failure: its regions are free, RESULT 0b10 (R212). A command's capture takes the status. -/
def Dev.capFail (d : Dev) (b s status : Nat) : Dev :=
  let x := d.slot b s
  match x.cap with
  | some c =>
    let d := d.setRegions b c.first c.count 0
    let d := d.setSlot b s { x with result := 2, status := status, cap := none }
    d.setBlock b { d.block b with orxQ := (d.block b).orxQ.filter fun j => j.who != .capture s }
  | none => d

/-- The command that waits for slot 0 of a block. -/
def Dev.slotTag (d : Dev) (b : Nat) : Option (BitVec 8 × Nat) :=
  (d.cmd.flight.find? fun f => f.opc == 0x0720 && f.hdr.target.toNat / 0x2000 == d.chipNo &&
    (f.hdr.target.toNat % 0x400) / 4 == b).map
    fun f => (f.hdr.tag, f.hdr.target.toNat)

/-- End the command of slot 0, if one waits (R218). -/
def Dev.slotReply (d : Dev) (b s : Nat) (r : Res) : Dev :=
  if s = 0 then match d.slotTag b with
    | some (tag, unit) => d.finishPart tag unit r
    | none => d
  else d

/-- A queued job ends with PRECONDITION for its requester: the ORX powers down (R144). A calibration step that loses its
job is placed again (R224). -/
def Dev.orxRefuse (d : Dev) (b : Nat) (j : OrxJob) : Dev :=
  match j.who with
  | .capture s => (d.capFail b s sPrecondition).slotReply b s (plain sPrecondition)
  | .mismatch tag =>
    (match (d.block b).mis.find? fun m => m.tag == tag with
     | some m =>
       (d.setBlock b { d.block b with mis := (d.block b).mis.filter fun m => m.tag != tag }).finishPart tag
         (d.locOf 3 m.path).toNat (plain sPrecondition)
     | none => d)
  | .cal _ _ => d

/-- Every queued job of an ORX that is OFF ends with PRECONDITION. -/
def Dev.orxFlush (d : Dev) (b : Nat) : Dev :=
  let l := (d.block b).orxQ
  l.foldl (fun d j => d.orxRefuse b j) (d.setBlock b { d.block b with orxQ := [] })

/-- The ORX becomes free; one that is to power down does so. -/
def Dev.orxRelease (d : Dev) (b : Nat) : Dev :=
  let stop := (d.block b).stop
  let d := d.setBlock b (d.block b).orxFree
  if stop then (d.setBlock b { d.block b with stop := false }).orxFlush b else d

/-- A TIMESTAMP lies less than `n` ticks ahead, or cannot be placed. -/
def Dev.tooSoon (d : Dev) (t : BitVec 48) (n : Nat) : Bool :=
  match d.ahead t with
  | some x => !d.running || decide (x < n)
  | none => true

/-- A bad value in CREQ0 (R211). -/
def capBad (w0 : Word) : Bool :=
  let l := capL w0
  decide (l % 16 ≠ 0) || decide (l < 16) || decide (16384 < l) ||
  (capOrx w0 && capClass w0 != 1 && capClass w0 != 3) || (!capOrx w0 && capRef w0 == 0) || decide (32768 < capWords w0)

/-- The first failing check of a capture request, or the run of regions it takes (R211). -/
def Dev.capCheck (d : Dev) (b : Nat) (w0 : Word) (t : BitVec 48) : Except Nat Nat :=
  if capBad w0 ∨ (t.toNat % 2 ^ 25) % 16 ≠ 0 ∨ !tsValid t then .error sBadParam
  else if capTrig w0 ∧ d.tooSoon t 4096 then .error sLate
  else if capOrx w0 ∧ (d.block b).orx = .off then .error sPrecondition
  else match d.freeRun b ((capWords w0 + 4095) / 4096) with
    | some r => .ok r
    | none => .error sResource

/-- A write of 1 to CCTL.GO (R211). -/
def Dev.capGo (d : Dev) (b s : Nat) : Dev :=
  if (d.slot b s).result = 1 then d else
  let w0 := d.reg (.creq b s 0)
  let ts := BitVec.ofNat 48 ((d.reg (.creq b s 1)).toNat + (d.f (.creq b s 2) 15 0) * 2 ^ 32)
  match d.capCheck b w0 ts with
  | .error st =>
    (d.setSlot b s { d.slot b s with result := 3, status := st }).slotReply b s
      (if st = sResource then refusal st 0x0203 (d.locOf 2 b).toNat
       else if st = sBadParam then badWord (if capBad w0 then 0 else 1) else plain st)
  | .ok r =>
    let n := (capWords w0 + 4095) / 4096
    let d := d.setRegions b r n 1
    let c : Cap := { w0 := w0, t := if capTrig w0 then d.tickOf ts else 0, first := r, count := n, goAt := d.now }
    let d := d.setSlot b s { d.slot b s with result := 1, status := 0, cap := some c }
    if capOrx w0 ∧ !capTrig w0 then
      d.orxEnqueue b { who := .capture s, cls := capClass w0, pos := capPos w0, src := capSrc w0, since := d.now }
    else d

/-- At T − 2,048 the ORX job of a triggered capture enters its queue (R212). -/
def Dev.capJobQueued (d : Dev) (b s : Nat) : Dev :=
  match (d.slot b s).cap with
  | some c =>
    if capTrig c.w0 ∧ capOrx c.w0 ∧ !c.queued then
      let d := d.goTo (c.t - 2048)
      let d := d.setSlot b s { d.slot b s with cap := some { c with queued := true } }
      if (d.block b).orx = .off then (d.capFail b s sPrecondition).slotReply b s (plain sPrecondition) else
      d.orxEnqueue b { who := .capture s, cls := capClass c.w0, pos := capPos c.w0, src := capSrc c.w0,
                       since := d.now }
    else d
  | none => d

/-- A capture that was not granted by T − 394, or found no window within 20 ms, ends with LATE (R212). -/
def Dev.capLate (d : Dev) (b s : Nat) : Dev :=
  match (d.slot b s).cap with
  | some c =>
    if c.t0.isSome then d
    else if capTrig c.w0 then
      (if capOrx c.w0 ∧ c.granted.isNone then
        let d := d.goTo (c.t - Config.orxSwitch)
        (d.capFail b s sLate).slotReply b s (plain sLate)
       else d)
    else
      let d := d.goTo (c.goAt + Config.windowWait)
      let d := if c.granted.isSome then d.orxRelease b else d
      (d.capFail b s sLate).slotReply b s (plain sLate)
  | none => d

/-- A write of 1s to CAP_REL frees DONE regions (R214). -/
def Dev.capRelease (d : Dev) (b mask : Nat) : Dev :=
  (bitList 8 mask).foldl (fun d r => if d.region b r = 2 then d.setRegion b r 0 else d) d

/-! ## RFFE (R118–R122) -/

/-- Fields of a TXN word (Table 4.11). -/
def txKind (w : Word) : Nat := fld w 31 28
def txUsid (w : Word) : Nat := fld w 27 24
def txAddr (w : Word) : Nat := fld w 23 8
def txN (w : Word) : Nat := fld w 7 4 + 1
def txClass (w : Word) : Nat := fld w 3 2
def txRead (w : Word) : Bool := txKind w == 3 || txKind w == 5 || txKind w == 7

/-- The sequence is one of Table 4.10 with its byte count and address range, and no read goes to USID 0 (R118). -/
def txLegal (w : Word) : Bool :=
  (match txKind w with
   | 1 => true
   | 2 => decide (txAddr w ≤ 31) && decide (txN w = 1)
   | 3 => decide (txAddr w ≤ 31) && decide (txN w = 1)
   | 4 => decide (txAddr w ≤ 255)
   | 5 => decide (txAddr w ≤ 255)
   | 6 => decide (txN w ≤ 8)
   | 7 => decide (txN w ≤ 8)
   | _ => false) && !(txRead w && txUsid w == 0)

/-- SCLK periods of a sequence (Table 4.10). -/
def txPeriods (w : Word) : Nat :=
  match txKind w with
  | 1 => 16
  | 2 => 25
  | 3 => 26
  | 4 => 25 + 9 * txN w
  | 5 => 26 + 9 * txN w
  | 6 => 34 + 9 * txN w
  | _ => 35 + 9 * txN w

/-- Ticks of a transaction: an SCLK period is 2 × DIV ticks, read periods run at RD_DIV (R119). -/
def Dev.txTicks (d : Dev) (b : Nat) (w : Word) : Nat :=
  txPeriods w * 2 * (if txRead w then d.f (.rffeCfg b) 15 8 else d.f (.rffeCfg b) 7 0)

/-- The housekeeping round reads VDD_FE (channel 28) at 3.3 V (R119). -/
def Dev.fe33 (d : Dev) : Bool := (Tbl.get (fun _ => ({} : Supply)) d.pwr.sup 4).nom33

def Dev.rffeRes (d : Dev) (b s : Nat) : Nat := Tbl.get (fun _ => 0) (d.block b).rffeRes s
def Dev.setRffeRes (d : Dev) (b s v : Nat) : Dev :=
  d.setBlock b { d.block b with rffeRes := Tbl.set (fun _ => 0) (d.block b).rffeRes s v }

/-- Put an RFFE job in the queue of its block. -/
def Dev.rffeEnqueue (d : Dev) (b : Nat) (j : RffeJob) : Dev :=
  d.setBlock b { d.block b with rffeQ := (d.block b).rffeQ ++ [j] }

/-- A write of 1 to GO of a mailbox (R121): refused for a class below 2, an illegal sequence, or VDD_FE at 3.3 V. Class 1 of
Table 1.4 is for writes that a calibration step issues; Table 9.1 gives no step such a write, so the model queues no class-1
RFFE job but by R18 (DESIGN CHOICE, log entry 30). -/
def Dev.rffeGo (d : Dev) (b s : Nat) : Dev :=
  let w := d.reg (.txn b s)
  if d.rffeRes b s = 1 then d
  else if txClass w < 2 ∨ !txLegal w ∨ d.fe33 then d.setRffeRes b s 3
  else (d.setRffeRes b s 1).rffeEnqueue b { who := .slot s, word := w, cls := txClass w, pos := (s + 3) % 4, since := d.now }

/-- The arbiter grants one transaction; two idle SCLK periods lie between transactions (R16, R118). The master of a sleeping
quadrant runs none until the quadrant wakes (R349). -/
def Dev.rffeGrant (d : Dev) (b : Nat) : Dev :=
  let x := d.block b
  match x.rffeJob with
  | some _ => d
  | none =>
    if d.domDown (128 + b / 4) then d else
    match arbitrate (fun j => (j.cls, j.pos)) x.rffePtr (fun _ => true) x.rffeQ with
    | some j =>
      let d := d.goTo x.rffeAt
      d.setBlock b { x with rffeJob := some j, rffeAt := d.now, rffeQ := dropOne j x.rffeQ,
                            rffePtr := (j.pos + 1) % 4 }
    | none => d

/-- Read data arrive in the DATA registers of a mailbox. -/
def Dev.rffeData (d : Dev) (b s : Nat) (data : List Byte) : Dev :=
  ((List.range 4).zip (bytesWords (data ++ List.replicate (16 - data.length) 0))).foldl
    (fun d x => d.setReg (.txData b s x.1) x.2) d

/-- The four DATA words of a mailbox. -/
def Dev.rffeWords (d : Dev) (b s : Nat) : List Word := (List.range 4).map fun k => d.reg (.txData b s k)

/-- The command that waits for mailbox slot 0 of a block. -/
def Dev.rffeReply (d : Dev) (b : Nat) (r : Res) : Dev :=
  match (d.block b).rffeTag with
  | some tag => (d.setBlock b { d.block b with rffeTag := none }).finishPart tag (d.locOf 2 b).toNat r
  | none => d

/-- A transaction ends: a read that fails parity is retried once; a second failure ends the job in failure (R120). The 2 idle
periods that follow run at the write SCLK, after reads as well: R118 does not say at which (DESIGN CHOICE, log entry 30). -/
def Dev.rffeEnd (d : Dev) (b : Nat) (parityOk : Bool) (data : List Byte) : Dev :=
  match (d.block b).rffeJob with
  | none => d
  | some j =>
    let w := j.word
    let d := d.goTo ((d.block b).rffeAt + d.txTicks b w)
    let idle := 4 * d.f (.rffeCfg b) 7 0
    if txRead w ∧ !parityOk ∧ !j.retried then
      d.setBlock b { d.block b with rffeJob := some { j with retried := true }, rffeAt := d.now + idle }
    else
      let d := d.setBlock b { d.block b with rffeJob := none, rffeAt := d.now + idle }
      match j.who with
      | .timed _ => d
      | .slot s =>
        if txRead w ∧ !parityOk then
          let d := d.setRffeRes b s 2
          if s = 0 ∧ (d.block b).rffeTag.isSome then
            d.rffeReply b (refusal sInternal 0x0202 (d.locOf 2 b).toNat)
          else d.fault 0x0202 (b / 4) (d.locOf 2 b) 0
        else
          let d := if txRead w then d.rffeData b s (data.take (txN w)) else d
          let d := d.setRffeRes b s 0
          if s = 0 then d.rffeReply b (if txRead w then okWords (d.rffeWords b 0) else plain sOk) else d

/-- The first tick that a timed entry may trigger at: one trigger issues one job. -/
def Dev.timedFrom (d : Dev) (b e : Nat) : Nat := Tbl.get (fun _ => 0) (d.block b).timedFrom e
def Dev.setTimedFrom (d : Dev) (b e t : Nat) : Dev :=
  d.setBlock b { d.block b with timedFrom := Tbl.set (fun _ => 0) (d.block b).timedFrom e t }

/-- The trigger tick that an EDGE code and an offset give for a window from `a` to `z`: EDGE 0 and 2 name its start, 1 and 3 its
end (Table 4.11). -/
def edgeTick (edge : Nat) (off : Int) (a z : Nat) : Nat := (((if edge % 2 = 0 then a else z : Nat) : Int) + off).toNat

/-- The windows of a cell that a trigger at `from0` or later may belong to: the recent ones, the one in progress, and of each
table window and burst to come the first whose trigger does not lie before `from0`. -/
def Dev.edgeWins (d : Dev) (c edge : Nat) (off : Int) (from0 : Nat) : List (Nat × Nat) :=
  let pair (w : Win) : Nat × Nat := (w.start, w.stop)
  let past := if c < 64 then (d.tx c).wins ++ (d.tx c).cur.toList.map pair
    else (d.rx (c - 64)).wins ++ (d.rx (c - 64)).cur.toList.map pair
  let tc := d.tableCell c
  let p := d.winPeriod tc
  let low (len : Nat) : Nat := ((from0 : Int) - off - (if edge % 2 = 0 then 0 else len : Nat) - d.leadOf c).toNat
  let tab := if p = 0 then [] else (d.winList tc).map fun w => pair (d.occur c p (max d.now (low w.2)) w)
  let bur := ((d.bursts tc).filter fun x => decide (d.now + d.leadOf c ≤ x.start)).map fun x => (x.start, x.start + x.len)
  past ++ (if c < 64 && !d.txSelected c then [] else tab ++ bur)

/-- The next trigger tick of an enabled timed entry: its EDGE of a window of cell position POS, plus OFFSET (R122). It may lie
before the active interval of its window or after the window's end. -/
def Dev.timedAt (d : Dev) (b e : Nat) : Option Nat :=
  let w := d.reg (.timed b e 2)
  let off := sx 16 (fld w 15 0)
  let edge := fld w 28 27
  let c := (if edge < 2 then 0 else 64) + 4 * b + fld w 26 25
  let from0 := d.timedFrom b e
  if bitOf w 24 ∧ d.running then
    ((d.edgeWins c edge off from0).filterMap fun x =>
      if from0 ≤ edgeTick edge off x.1 x.2 then some (some (edgeTick edge off x.1 x.2)) else none).foldl minDue none
  else none

/-- An enabled timed entry issues its write as a class-2 job at its trigger tick (R122); at 3.3 V it is refused. -/
def Dev.timedRow (d : Dev) (b e : Nat) : Dev :=
  match d.timedAt b e with
  | some t =>
    let d := (d.goTo t).setTimedFrom b e (t + 1)
    if d.fe33 then d
    else d.rffeEnqueue b { who := .timed e, word := d.reg (.timed b e 0), cls := 2, pos := d.f (.timed b e 2) 26 25, since := d.now }
  | none => d

/-! ## Mismatch measurements (R126) -/

/-- A mismatch measurement found no suitable window for 20 ms. -/
def Dev.misTimeout (d : Dev) (tag : BitVec 8) : Dev :=
  match (List.range 16).find? fun b => (d.block b).orxQ.any fun j => j.who == .mismatch tag with
  | some b =>
    (match (d.block b).mis.find? fun m => m.tag == tag with
     | some m =>
       let d := d.goTo (m.since + Config.windowWait)
       let d := d.setBlock b { d.block b with
         orxQ := (d.block b).orxQ.filter fun j => j.who != .mismatch tag
         mis := (d.block b).mis.filter fun m => m.tag != tag }
       d.finishPart tag (d.locOf 3 m.path).toNat (plain sLate)
     | none => d)
  | none => d

end Sys2Proof.Machine
end

