-- ==== Sys2Proof/Machine/CalValues.lean ====
section
/-! DEFINITION. The units and kinds of calibration, the points of a store, and the value that a unit applies (R219,
R233–R235). -/

namespace Sys2Proof.Machine

/-! ## Units and kinds (Table 9.1) -/

/-- The UNIT field of Table 9.5. -/
def calIndex : CalUnit → Nat
  | .cell i => i.val
  | .orx b => b.val

/-- The block of a unit. -/
def calBlock : CalUnit → Nat
  | .cell i => i.val % 64 / 4
  | .orx b => b.val

def calQuad (u : CalUnit) : Nat := (calBlock u) / 4

/-- The unit in TARGET form: a cell, or the block of an ORX. -/
def Dev.calLoc (d : Dev) : CalUnit → BitVec 16
  | .cell i => d.locOf 3 i.val
  | .orx b => d.locOf 2 b.val

/-- The kinds that apply to a unit. -/
def calKinds : CalUnit → List Nat
  | .orx _ => [0]
  | .cell i => if i.val < 64 then [4, 5, 6] else [1, 2, 3]

/-- Number of steps, ticks of a step, and value words of a kind (Table 9.1). -/
def calSteps (k : Nat) : Nat := if k = 2 ∨ k = 4 ∨ k = 5 then 2 else 1
def calTicks (k : Nat) : Nat :=
  match k with
  | 0 => 10240
  | 1 => 8192
  | 2 => 12288
  | 3 => 12288
  | _ => 6144
def calWords (k : Nat) : Nat :=
  match k with
  | 0 => 8
  | 1 => 2
  | 2 => 4
  | 3 => 3
  | 4 => 2
  | 5 => 4
  | _ => 3

/-- The kinds whose steps are ORX jobs (Table 9.1). -/
def calOrx (k : Nat) : Bool := k == 0 || decide (4 ≤ k)

/-- The units of a block and of a quadrant, the ORX first (DESIGN CHOICE, log entry 13). -/
def blockUnits (b : Nat) : List CalUnit :=
  if h : b < 16 then
    .orx ⟨b, h⟩ :: ((List.range 128).filterMap fun c =>
      if hc : c < 128 then (if c % 64 / 4 = b then some (.cell ⟨c, hc⟩) else none) else none)
  else []
def quadUnits (q : Nat) : List CalUnit :=
  ((List.range 16).filterMap fun b => if h : b < 16 then (if b / 4 = q then some (.orx ⟨b, h⟩) else none) else none) ++
  ((List.range 128).filterMap fun c =>
    if hc : c < 128 then (if c % 64 / 16 = q then some (.cell ⟨c, hc⟩) else none) else none)

/-- The path of a cell unit. -/
def calPath : CalUnit → Option Nat
  | .cell i => some (i.val % 64)
  | .orx _ => none

/-- The live FREQ of the synthesiser that a cell selects; 0 for an ORX (R234). -/
def Dev.calFreq (d : Dev) : CalUnit → Nat
  | .cell i => d.f (.synFreq (d.synOf i.val)) 23 0
  | .orx _ => 0

/-- The synthesiser of a cell unit is READY; an ORX has none. -/
def Dev.calReady (d : Dev) : CalUnit → Bool
  | .cell i => d.loReady i.val
  | .orx _ => true

/-! ## Temperature sets (R233–R235) -/

/-- The calibration temperature lies from −30 to +110 °C. -/
def Cal.inWindow (x : Cal) : Bool := x.tvalid && decide (-240 ≤ x.temp) && decide (x.temp ≤ 880)

/-- The distance of two temperatures. -/
def dist (a b : Int) : Nat := (a - b).natAbs

/-- The point nearest `th`, of two at equal distance the lower one. -/
def nearest (th : Int) : List (Int × List Word) → Option (Int × List Word)
  | [] => none
  | p :: ps => match nearest th ps with
    | some x => if dist x.1 th < dist p.1 th then some x else some p
    | none => some p

/-- Insert a point in temperature order. -/
def insertPt (p : Int × List Word) : List (Int × List Word) → List (Int × List Word)
  | [] => [p]
  | x :: xs => if p.1 < x.1 then p :: x :: xs else x :: insertPt p xs

/-- Replace point `old` by `p`, dropping a neighbour that `p` passes or meets (R234). -/
def replacePt (old : Int) (p : Int × List Word) (l : List (Int × List Word)) : List (Int × List Word) :=
  let rest := l.filter fun x => x.1 != old
  insertPt p (rest.filter fun x => !(decide (min old p.1 ≤ x.1) && decide (x.1 ≤ max old p.1)))

/-- Store a new point among the points of one frequency (R234 rules 2 to 4). -/
def addPoint (p : Int × List Word) (l : List (Int × List Word)) : List (Int × List Word) :=
  match nearest p.1 l with
  | some x =>
    if dist x.1 p.1 ≤ 16 then replacePt x.1 p l
    else if l.length < 8 then insertPt p l
    else replacePt x.1 p l
  | none => [p]

/-- A record of a unit and kind. -/
def CalRec.isOf (r : CalRec) (u : CalUnit) (k : Nat) : Bool := r.unit == u && r.kind == k

/-- Store a value (R234). -/
def storeVal (l : List CalRec) (v : CalVal) : List CalRec :=
  match l.find? fun r => r.isOf v.unit v.kind with
  | some r =>
    let pts := if r.freq = v.freq then addPoint (v.temp, v.vals) r.pts else [(v.temp, v.vals)]
    l.map fun x => if x.isOf v.unit v.kind then { x with freq := v.freq, pts := pts } else x
  | none => l ++ [{ kind := v.kind, unit := v.unit, freq := v.freq, pts := [(v.temp, v.vals)] }]

/-- The points of a unit and kind. -/
def Cal.points (x : Cal) (u : CalUnit) (k : Nat) : List (Int × List Word) :=
  match x.store.find? fun r => r.isOf u k with
  | some r => r.pts
  | none => []

/-- One element between two points (R235). -/
def interpElem (th a va b vb : Int) : Int := rndDiv (va * (b - a) + (vb - va) * (th - a)) (b - a).natAbs

/-- Both elements of a value word between two points. -/
def interpWord (th a b : Int) (va vb : Word) : Word :=
  mkw (unsx 16 (interpElem th a (sx 16 (fld va 15 0)) b (sx 16 (fld vb 15 0))) +
    65536 * unsx 16 (interpElem th a (sx 16 (fld va 31 16)) b (sx 16 (fld vb 31 16))))

/-- The value at temperature `th` (R235). -/
def interp (th : Int) : List (Int × List Word) → List Word
  | [] => []
  | [p] => p.2
  | p :: q :: rest =>
    if th ≤ p.1 then p.2
    else if th < q.1 then (p.2.zip q.2).map fun w => interpWord th p.1 q.1 w.1 w.2
    else interp th (q :: rest)

/-- The value that a cell or ORX applies at chip tick `t`; an empty list is the neutral value (R219, R235). -/
def Dev.calApplied (d : Dev) (u : CalUnit) (k t : Nat) : List Word :=
  let x := d.calq (calQuad u)
  let st := if x.useFrom ≤ t then x.store else x.oldStore
  let th := if x.useFrom ≤ t then x.temp else x.oldTemp
  match st.find? fun r => r.isOf u k with
  | some r => if r.freq = d.calFreq u then interp th r.pts else []
  | none => []

end Sys2Proof.Machine
end

