-- ==== Sys2Proof/Machine/Exact.lean ====
section
/-! DEFINITION. Exact arithmetic for the sample values: complex integers, sums of square roots and their exact rounding
(R193, R197, R206), cosines (R181, R152), gains in 0.25 dB (R154). -/

namespace Sys2Proof.Machine

/-- Complex product and sum. -/
def cmul (a b : Int × Int) : Int × Int := (a.1 * b.1 - a.2 * b.2, a.1 * b.2 + a.2 * b.1)
def cadd (a b : Int × Int) : Int × Int := (a.1 + b.1, a.2 + b.2)

/-- A complex value times an integer. -/
def cscale (k : Int) (a : Int × Int) : Int × Int := (k * a.1, k * a.2)

/-- |w|². -/
def mag2 (w : Int × Int) : Nat := (w.1 * w.1 + w.2 * w.2).toNat

/-! ## Square roots -/

/-- The integer square root, by bits. -/
def sqrtSearch (n : Nat) : Nat → Nat → Nat
  | 0, b => b
  | k + 1, b => sqrtSearch n k (if (b + 2 ^ k) * (b + 2 ^ k) ≤ n then b + 2 ^ k else b)

/-- √n in units of 2^−k, rounded down. -/
def rootBits (k n : Nat) : Nat := sqrtSearch (n * 4 ^ k) (n.log2 / 2 + 1 + k) 0

/-- Σ c √n over the pairs (c, n) in units of 2^−k, each root rounded down. -/
def rootSum (k : Nat) (l : List (Int × Nat)) : Int := l.foldl (fun a (x : Int × Nat) => a + x.1 * ((rootBits k x.2 : Nat) : Int)) 0

/-- The sign of Σ c √n, exactly. The sum is within Σ|c| units of `rootSum`. When that does not settle the sign, the second
precision does: a sum of m roots that is not 0 is an algebraic integer of degree at most 2^m whose conjugates lie below 2^b, so
it is at least 2^(−b · 2^m). -/
def rootSign (l : List (Int × Nat)) : Int :=
  let e := l.foldl (fun a x => a + x.1.natAbs) 0
  let v := rootSum 64 l
  if e < v.natAbs then v.sign
  else
    let b := (l.foldl (fun (a : Nat) (x : Int × Nat) => a + x.1.natAbs * (x.2 + 1)) 0).log2 + 1
    let w := rootSum (b * 2 ^ l.length + b + 2) l
    if e < w.natAbs then w.sign else 0

/-- A sum that is not negative, divided by `den`, to nearest, ties up: the estimate `n` is within 1. -/
def roundRootsUp (den : Nat) (l : List (Int × Nat)) : Int :=
  let n := rndDiv (rootSum 64 l) (den * 2 ^ 64)
  let least (h : Int) : Bool := decide (0 ≤ rootSign ((-(h * den), 1) :: l.map fun x => (2 * x.1, x.2)))
  if least (2 * n + 1) then n + 1 else if least (2 * n - 1) then n else n - 1

/-- Σ c √n / den to nearest, ties away from zero, exactly (rnd of R171). -/
def roundRoots (den : Nat) (l : List (Int × Nat)) : Int :=
  if rootSign l < 0 then -roundRootsUp den (l.map fun x => (-x.1, x.2)) else roundRootsUp den l

/-! ## Angles -/

/-- π × 2^80, rounded down. -/
abbrev piScaled : Nat := 3797952473636338580787993

/-- The scale of the cosines, 2^80. -/
abbrev cosOne : Int := 1208925819614629174706176

/-- `k` terms of the cosine series, from the term `t` of degree `2i`, for the square `sq` of the angle. -/
def cosSeries (sq : Int) : Nat → Nat → Int → Int
  | 0, _, _ => 0
  | k + 1, i, t => t + cosSeries sq k (i + 1) (-(t * sq / cosOne) / (((2 * i + 1) * (2 * i + 2) : Nat) : Int))

/-- cos(π a/b) × 2^80 for a ≤ b, to 2^−70; exact where the cosine is rational. -/
def cosPi (a b : Nat) : Int :=
  if 2 * a = b then 0 else if 3 * a = b then cosOne / 2 else if 3 * a = 2 * b then -(cosOne / 2)
  else
    let m := min a (b - a)
    let ang : Int := ((piScaled * m / b : Nat) : Int)
    let c := cosSeries (ang * ang / cosOne) 24 0 cosOne
    if a = m then c else -c

/-- cos of `i`/2^18 turns, times 2^80. -/
def turnCos (i : Nat) : Int :=
  let m := i % 262144
  cosPi (min m (262144 - m)) 131072

/-- e^(jφ) for φ of `i`/2^18 turns, times 2^80. -/
def phasor (i : Nat) : Int × Int := (turnCos i, turnCos (i + 196608))

/-! ## Gains -/

/-- The scale of `gainScaled`: 10 · 2^60. -/
abbrev gainOne : Nat := 11529215046068469760

/-- The largest number built from `base` by powers of two below 2^k whose 80th power is at most gainOne^80 · 10^g. -/
def gainSearch (g : Int) : Nat → Nat → Nat
  | 0, base => base
  | k + 1, base =>
    gainSearch g k (if (base + 2 ^ k) ^ 80 * 10 ^ (-g).toNat ≤ gainOne ^ 80 * 10 ^ g.toNat then base + 2 ^ k else base)

/-- A gain of g × 0.25 dB as an amplitude, 10^(g/80), in units of 1/gainOne, rounded down (exact at multiples of 20 dB). -/
def gainScaled (g : Int) : Nat := if g = 0 then gainOne else gainSearch g 70 0

end Sys2Proof.Machine
end

