-- ==== Sys2Proof/Machine/Chains.lean ====
section
/-! DEFINITION. Carrier chains: clean conversions, segments, the kind of every sample and the code of every block
(R147–R166). Ticks are chip ticks; stamps are multiples of the sample period counted from tick 0 of a frame. -/

namespace Sys2Proof.Machine

/-! ## Rates -/

/-- The sample period of a rate code (R149). -/
def period (k : Nat) : Nat := 2 ^ k

/-- The group delay D_k in ticks (R151). -/
def groupDelay (k : Nat) : Nat := 28 * 2 ^ (k - 1) - 5

/-- The live rate code and enable of a carrier of a cell. -/
def Dev.rate (d : Dev) (c k : Nat) : Nat := d.f (.carrCfg c k) 26 24
def Dev.carrOn (d : Dev) (c k : Nat) : Bool := d.fb (.carrCfg c k) 31

/-- Carrier state: RX carriers at 8·path + k, TX carriers at 512 + 8·path + k. -/
def carrIndex (c k : Nat) : Nat := if c < 64 then 512 + 8 * c + k else 8 * (c - 64) + k
def Dev.carrOf (d : Dev) (c k : Nat) : Carr := d.carrier (carrIndex c k)

/-- The rate code that holds for stamp `s` (R158). -/
def Dev.rateAt (d : Dev) (c k s : Nat) : Nat := (d.cfgAt s).rate c k

/-- BR_EN for stamp `s`. -/
def Dev.bridgeOn (d : Dev) (c k s : Nat) : Bool := (d.cfgAt s).fb (.carrCfg c k) 8

/-! ## Clean conversions (R157) -/

/-- The first tick of the path block that holds tick `t`. -/
def Dev.blockStart (d : Dev) (t : Nat) : Nat := d.tb.t0 + (t - d.tb.t0) / 16 * 16

/-- Every tick from `a` to `b` is a conversion in RUN. -/
def Dev.inRun (d : Dev) (p a b : Nat) : Bool :=
  (match (d.rx p).runFrom with
   | some t => decide (t ≤ a)
   | none => false) || (d.rx p).spans.any fun x => decide (x.1 ≤ a) && decide (b ≤ x.2)

/-- A path block from `a`'s to `b`'s holds a tick at which the cell is marked 0b10. -/
def Dev.marked (d : Dev) (p a b : Nat) : Bool :=
  let lo := d.blockStart a
  let hi := d.blockStart b + 15
  (d.rx p).dirty.any (fun x => decide (x.1 ≤ hi) && decide (lo ≤ x.2)) ||
  match (d.rx p).notReadyFrom with
  | some t => decide (t ≤ hi)
  | none => false

/-- Every conversion from `a` to `b` is clean. -/
def Dev.clean (d : Dev) (p a b : Nat) : Bool := d.inRun p a b && !d.marked p a b

/-- The ticks from `a` to `b` lie in one segment of a carrier. -/
def Dev.oneSegment (d : Dev) (c k a b : Nat) : Bool :=
  !(d.carrOf c k).disc.any fun x => decide (a < x) && decide (x ≤ b)

/-! ## Kinds (R159–R161): 0 valid, 1 coarse, 2 invalid, 3 substituted -/

/-- The kind of the chain output at stamp `s` of carrier `k` of RX path `p`. -/
def Dev.chainKind (d : Dev) (p k s : Nat) : Nat :=
  let g := groupDelay (d.rateAt (64 + p) k s)
  if d.clean p (s - g) (s + g) ∧ d.oneSegment (64 + p) k (s - g) (s + g) ∧ g ≤ s then 0
  else if d.bridgeOn (64 + p) k s ∧ d.clean p s s then 1 else 2

/-- The largest admissible half-length of the bridge window at stamp `s`, at most `h` (R160). -/
def Dev.bridgeHalf (d : Dev) (p k s : Nat) : Nat → Nat
  | 0 => 0
  | h + 1 =>
    if d.clean p (s - (h + 1)) (s + (h + 1)) ∧ d.oneSegment (64 + p) k (s - (h + 1)) (s + (h + 1)) then h + 1
    else d.bridgeHalf p k s h

/-- The bound on the half-length: from the bridge length, and D_k. -/
def Dev.bridgeBound (d : Dev) (p k s : Nat) : Nat :=
  let l := (d.cfgAt s).f (.carrBridge (64 + p) k) 15 0 + 1
  min (if l % 2 = 0 then l / 2 - 1 else (l - 1) / 2) (groupDelay (d.rateAt (64 + p) k s))

/-! ## NCO (R152, R153) -/

/-- The correction that synthesiser `n` held at chip tick `t`. -/
def Dev.corrAt (d : Dev) (n t : Nat) : Nat := (d.syn n).corrs.foldl (fun c e => if t < e.1 then e.2 else c) (d.syn n).corr

/-- The NCO phase of carrier `k` of cell `c` at chip tick `t`, in 1/19,660,800 turns: F τ, PHASE and the correction of the LO
that the cell selects, with the settings of that tick. A correction is what is added to cancel the error (DEDUCED, log
entry 39). -/
def Dev.turnAt (d : Dev) (c k t : Nat) : Nat :=
  let g := d.cfgAt t
  ((sx 24 (g.f (.carrNco c k) 23 0) * (d.inFrame t : Nat) +
    300 * ((g.f (.carrPhase c k) 15 0 + d.corrAt (g.synOf c) t : Nat) : Int)) % 19660800).toNat

/-- φ quantised to 18 bits (R152). -/
def Dev.phaseAt (d : Dev) (c k t : Nat) : Nat :=
  let n := d.turnAt c k t
  (n / 75 + (if n % 75 ≠ 0 ∧ Config.phaseUp n then 1 else 0)) % 262144

/-! ## Half-band stages (R150, R151) -/

/-- A tap of a half-band filter in units of 2^−40: 1/2 in the centre, 0 at every other even distance. -/
def hbCoef (final : Bool) (o : Nat) : Int :=
  if o = 0 then 2 ^ 39 else if o % 2 = 0 then 0 else Config.hbTap final o

/-- How far a half-band filter reaches: 47 and 11 taps (Table 6.1). -/
def hbReach (final : Bool) : Nat := if final then 23 else 5

/-- One half-band filter over the values at the ticks `step` apart, centred at `t`. -/
def hbSum (final : Bool) (step : Nat) (f : Nat → Int × Int) (t : Nat) : Int × Int :=
  let n := hbReach final
  (List.range (2 * n + 1)).foldl (fun a i =>
    cadd a (cscale (hbCoef final (max i n - min i n)) (f (t + i * step - n * step)))) (0, 0)

/-- The output of stage `i` of a receive chain of rate code `k`, in units of 2^(−40 i): the last stage has the final form. -/
def decimated (k : Nat) (f : Nat → Int × Int) : Nat → Nat → Int × Int
  | 0, t => f t
  | i + 1, t => hbSum (i + 1 == k) (2 ^ i) (decimated k f i) t

/-- The output of a transmit chain of rate code `k` after `n` stages, in units of 2^(−40 n), from its samples at the stamps
counted from `t0`: the first stage has the final form, and each doubles the rate. -/
def interpolated (k t0 : Nat) (f : Nat → Int × Int) : Nat → Nat → Int × Int
  | 0, t => f t
  | n + 1, t =>
    let step := 2 ^ (k - n - 1)
    hbSum (n == 0) step (fun u => if t0 ≤ u ∧ (u - t0) % (2 * step) = 0 then cscale 2 (interpolated k t0 f n u) else (0, 0)) t

/-! ## Receive chains (R147, R154, R156, R160) -/

/-- The calibration values in force of the kinds of a cell at a tick. -/
def Dev.calValues (d : Dev) (c t : Nat) : List (List Word) :=
  (calKinds (.cell (Fin.ofNat 128 c))).map fun k => d.calApplied (.cell (Fin.ofNat 128 c)) k t

/-- The path sample of a conversion: the 12-bit codes at the scale of the carriers, after the DC and I/Q correction (R128,
R154, R219). -/
def Dev.pathSample (d : Dev) (p t : Nat) : Int × Int :=
  let vs := d.calValues (64 + p) t
  let s := Config.adcSample p t
  if vs.all (·.isEmpty) then (16 * s.1.toInt, 16 * s.2.toInt) else Config.rxCorrected p t vs

/-- x(t) e^(−jφ(t)), times 2^80. -/
def Dev.mixed (d : Dev) (p k t : Nat) : Int × Int :=
  let e := phasor (d.phaseAt (64 + p) k t)
  cmul (d.pathSample p t) (e.1, -e.2)

/-- `v / den` rounded to a code: exact where it is one, else within one code of the nearest (log entry 3). -/
def nearCode (v : Int) (den : Nat) (e : Fin 3) : Int :=
  if v % den = 0 then v / den else rndDiv v den + e.val - 1

/-- A complex value over `den` as 16-bit codes before saturation. -/
def nearCodes (v : Int × Int) (den : Nat) (e : Fin 3 × Fin 3) : Int × Int := (nearCode v.1 den e.1, nearCode v.2 den e.2)

/-- Saturate, and say whether that changed the value. -/
def saturate (v : Int × Int) : (Int × Int) × Bool :=
  ((sat16 v.1, sat16 v.2), decide (sat16 v.1 ≠ v.1) || decide (sat16 v.2 ≠ v.2))

/-- GAIN of a carrier for stamp `s`, in units of 1/gainOne (R154). -/
def Dev.gainAt (d : Dev) (c k s : Nat) : Int := (gainScaled (sx 8 ((d.cfgAt s).f (.carrGain c k) 7 0)) : Nat)

/-- The chain output of carrier `k` of RX path `p` at stamp `s`, as its kind gives it, and whether it saturated. -/
def Dev.chainOut (d : Dev) (p k s : Nat) : (Int × Int) × Bool :=
  let r := d.rateAt (64 + p) k s
  let g := d.gainAt (64 + p) k s
  let e := Config.carrierRound p k s false
  match d.chainKind p k s with
  | 0 => saturate (nearCodes (cscale g (decimated r (d.mixed p k) r s)) (gainOne * 2 ^ (80 + 40 * r)) e)
  | 1 =>
    let h := d.bridgeHalf p k s (d.bridgeBound p k s)
    let v := (List.range (2 * h + 1)).foldl (fun a i => cadd a (d.mixed p k (s + i - h))) (0, 0)
    saturate (nearCodes (cscale g v) (gainOne * 2 ^ 80 * (2 * h + 1)) e)
  | _ =>
    let v := Config.invalidSample p k s
    ((v.1.toInt, v.2.toInt), Config.invalidSat p k s)

/-- DELAY of an RX cell for stamp `s`, in 1/64 tick. -/
def Dev.delayAt (d : Dev) (p s : Nat) : Nat := (d.cfgAt s).f (.chainCfg (64 + p)) 27 16

/-- The stamps of the chain outputs that the sample stamped `t` uses (R156). -/
def Dev.delayStamps (d : Dev) (p k t : Nat) : List Nat :=
  let pd := period (d.rateAt (64 + p) k t)
  let dl := d.delayAt p t
  if dl % (64 * pd) = 0 then [t - dl / 64]
  else ((List.range 9).map fun i => t - dl / (64 * pd) * pd + 3 * pd - i * pd).filter fun s =>
    decide (64 * s < 64 * t - dl + 256 * pd) && decide (64 * t - dl < 64 * s + 256 * pd)

/-- The kind of the carrier sample stamped `t` (R156, R161). -/
def Dev.sampleKind (d : Dev) (p k t : Nat) : Nat :=
  if (d.carrOf (64 + p) k).inv.any fun x => decide (x.1 ≤ t) && decide (t ≤ x.2) then 2
  else (d.delayStamps p k t).foldl (fun n s => max n (d.chainKind p k s)) 0

/-- The carrier sample stamped `t` and whether it saturated: one chain output, or the interpolator over several (R156). -/
def Dev.sampleOut (d : Dev) (p k t : Nat) : (Int × Int) × Bool :=
  if d.sampleKind p k t = 2 then
    let v := Config.invalidSample p k t
    ((v.1.toInt, v.2.toInt), Config.invalidSat p k t)
  else match d.delayStamps p k t with
    | [s] => d.chainOut p k s
    | l =>
      let v := l.foldl (fun a s => cadd a (cscale
        (Config.delayTap (d.rateAt (64 + p) k t) ((64 * s : Nat) - ((64 * t : Nat) - (d.delayAt p t : Nat) : Int)))
        (d.chainOut p k s).1)) (0, 0)
      let y := saturate (nearCodes v (2 ^ 40) (Config.carrierRound p k t true))
      (y.1, y.2 || l.any fun s => (d.chainOut p k s).2)
def Dev.sampleValue (d : Dev) (p k t : Nat) : Int × Int := (d.sampleOut p k t).1

/-! ## Carrier blocks (R162, R163) -/

/-- RX path `p` delivers the carrier block of 16 samples of rate code `r` from stamp `b`. -/
def Dev.delivers (d : Dev) (p r b : Nat) : Bool :=
  (d.rx p).wins.any fun w => decide (w.1 ≤ b) && decide (b + 16 * period r ≤ w.2)

/-- The carrier is enabled at stamp `b`. -/
def Dev.carries (d : Dev) (c k b : Nat) : Bool := (d.cfgAt b).carrOn c k

/-- The first block of a carrier at or after tick `t`, if the carrier is enabled there and the block ends by `stop`. -/
def Dev.blockFrom (d : Dev) (p k stop t : Nat) : Option Nat :=
  let b := d.alignUp (16 * period (d.rateAt (64 + p) k t)) t
  if b + 16 * period (d.rateAt (64 + p) k b) ≤ stop ∧ d.carries (64 + p) k b then some b else none

/-- The next block of a carrier that its windows deliver, after the last complete one. In each window it starts at the first
stamp left or, for a carrier enabled inside the window, at a commit since (R162, R163). -/
def Dev.nextBlock (d : Dev) (p k : Nat) : Option Nat :=
  let after := match (d.carrOf (64 + p) k).last with
    | some (s, _) => s + 1
    | none => 0
  (d.rx p).wins.foldl (fun m w =>
    let lo := max after w.1
    minDue m ((lo :: (d.past.map fun e => e.1).reverse.filter fun t => decide (lo < t)).findSome? (d.blockFrom p k w.2))) none

/-- The tick by which every conversion that the block from `b` needs has been made, and the path block of the last of them has
ended, so that no mark can still come (R157, R162). -/
def Dev.blockReadyAt (d : Dev) (p k b : Nat) : Nat :=
  let r := d.rateAt (64 + p) k b
  d.alignUp 16 (b + 15 * period r + groupDelay r + (if d.delayAt p b % (64 * period r) = 0 then 0 else 4 * period r) + 1)

/-- The 16 stamps of the carrier block from `b`. -/
def Dev.blockStamps (d : Dev) (p k b : Nat) : List Nat :=
  (List.range 16).map fun i => b + i * period (d.rateAt (64 + p) k b)

/-- The code of a carrier block: the worst kind among its samples (R162). -/
def Dev.blockCode (d : Dev) (p k b : Nat) : Nat :=
  (d.blockStamps p k b).foldl (fun n s => max n (d.sampleKind p k s)) 0

/-- The code that a carrier block was delivered with; it is never marked again (R162). -/
def Dev.deliveredCode (d : Dev) (p k b : Nat) : Option Nat :=
  ((d.carrOf (64 + p) k).blks.find? fun e => e.1 == b).map (·.2)

/-- A carrier block is complete: CARR_STAT takes its code, and whether a sample of it saturated. -/
def Dev.carrierBlock (d : Dev) (p k : Nat) : Dev :=
  match d.nextBlock p k with
  | some b =>
    let d := d.goTo (d.blockReadyAt p k b)
    let x := d.carrOf (64 + p) k
    let code := d.blockCode p k b
    d.setCarrier (carrIndex (64 + p) k)
      { x with last := some (b, code), sat := (d.blockStamps p k b).any fun s => (d.sampleOut p k s).2,
               blks := (b, code) :: x.blks.filter fun e => decide (d.now ≤ e.1 + keepTicks) }
  | none => d

/-! ## Transmit chains (R164) -/

/-- A change of settings from `o` to `n` at tick `b` is a discontinuity of TX carrier `k` of path `p`: EN from 0 to 1, RATE, or
SYNC (R165). -/
def txCut (o n : Dev) (p k : Nat) : Bool :=
  n.carrOn p k && (!o.carrOn p k || decide (o.rate p k ≠ n.rate p k) || nbit (n.f (.chainCfg p) 15 8) k)

/-- The path ticks that such a change marks (Table 6.5); changes that meet on one tick act once, and EN alone is exact (R166). -/
def txMark (o n : Dev) (p k b : Nat) : Option (Nat × Nat) :=
  if txCut o n p k ∧ o.carrOn p k then some (b - groupDelay (o.rate p k), b + groupDelay (n.rate p k) - 1) else none

/-- The boundaries of the accepted commits still to come. -/
def Dev.boundsAhead (d : Dev) : List Nat :=
  ((d.acceptedGroups.map fun e => e.2.bnd).filter fun b => decide (d.now < b)).eraseDups

/-- The ticks of TX carrier `k` that changes mark, past and accepted. -/
def Dev.txMarks (d : Dev) (p k : Nat) : List (Nat × Nat) :=
  (d.carrOf p k).inv ++ d.boundsAhead.filterMap fun b => txMark (d.cfgAt (b - 1)) (d.cfgAt b) p k b

/-- The discontinuities of TX carrier `k`, past and accepted. -/
def Dev.txCuts (d : Dev) (p k : Nat) : List Nat :=
  (d.carrOf p k).disc ++ d.boundsAhead.filter fun b => txCut (d.cfgAt (b - 1)) (d.cfgAt b) p k

/-- The kind of the output of TX carrier `k` at path tick `t` (Table 6.5). -/
def Dev.txCarrKind (d : Dev) (p k t : Nat) : Nat :=
  if (d.txMarks p k).any fun x => decide (x.1 ≤ t) && decide (t ≤ x.2) then (if d.bridgeOn p k t then 1 else 2) else 0

/-- The kind of a TX cell's carrier sum at path tick `t`: the worst over its carriers. -/
def Dev.txKind (d : Dev) (p t : Nat) : Nat :=
  (List.range 8).foldl (fun n k => max n (d.txCarrKind p k t)) 0

/-- CARR_STAT.KIND of a TX carrier: the worst kind among the path ticks of its last whole carrier block (DEDUCED, log
entry 27). -/
def Dev.txBlockKind (d : Dev) (p k : Nat) : Nat :=
  let n := 16 * period (d.rate p k)
  let stop := d.tb.t0 + (d.now - d.tb.t0) / n * n
  if d.running ∧ d.carrOn p k then (List.range n).foldl (fun m i => max m (d.txCarrKind p k (stop - n + i))) 0 else 0

/-! ## Changes at a boundary (R153–R158, R164, R165) -/

/-- Drop discontinuities that no block can need any more. -/
def pruneTicks (now : Nat) (l : List Nat) : List Nat := l.filter fun x => decide (now ≤ x + keepTicks)

/-- A discontinuity of a carrier now. -/
def Dev.cut (d : Dev) (c k : Nat) : Dev :=
  let x := d.carrOf c k
  d.setCarrier (carrIndex c k) { x with disc := pruneTicks d.now (x.disc ++ [d.now]) }

/-- Mark the path ticks of a TX carrier from `a` to `b`. -/
def Dev.markTx (d : Dev) (c k a b : Nat) : Dev :=
  let x := d.carrOf c k
  d.setCarrier (carrIndex c k) { x with inv := prune d.now (x.inv ++ [(a, b)]) }

/-- EN, RATE or SYNC of TX carrier `k` of path `p` changes now from the settings `o`: what of Table 6.5 it marks. A mark that
another commit of this tick has set for the same old rate is replaced (R166). -/
def Dev.txChange (d o : Dev) (p k : Nat) : Dev :=
  let d := match txMark o d p k d.now with
    | some m =>
      let x := d.carrOf p k
      let again := x.disc.contains d.now
      let x := { x with inv := x.inv.filter fun e => !(again && e == (d.now - groupDelay (o.rate p k), d.now + groupDelay (o.rate p k) - 1)) }
      if again ∧ o.rate p k = d.rate p k then d
      else (d.setCarrier (carrIndex p k) x).markTx p k m.1 m.2
    | none => d
  if txCut o d p k then d.cut p k else d

/-- DELAY of an RX cell changes now: 8 stamps of every enabled carrier are invalid (R156). -/
def Dev.delayChange (d : Dev) (c : Nat) : Dev :=
  (List.range 8).foldl (fun d k =>
    if d.carrOn c k then
      let pd := period (d.rate c k)
      let b := d.alignUp pd d.now
      let x := d.carrOf c k
      d.setCarrier (carrIndex c k) { x with inv := prune d.now (x.inv ++ [(b, b + 8 * pd - 1)]) }
    else d) d

/-- Mark conversions of an RX path from now for `n` ticks (R155, R157). -/
def Dev.disturb (d : Dev) (p n : Nat) : Dev :=
  let x := d.rx p
  d.setRx p { x with dirty := prune d.now (x.dirty ++ [(d.now, d.now + n)]) }

/-! ## Diversity (R124) -/

/-- The branch that pair `k` has chosen for a block that begins at tick `t`: a decision counts for blocks that begin after it. -/
def Dev.branchAt (d : Dev) (k t : Nat) : Nat :=
  (d.divp k).sels.foldl (fun s e => if t ≤ e.1 then e.2 else s) (d.divp k).sel

/-- The RX path whose carrier samples are the stream of logical path `p` in a block that begins at tick `t`. -/
def Dev.streamPath (d : Dev) (p t : Nat) : Nat :=
  if (d.cfgAt t).paired p then p / 2 * 2 + d.branchAt (p / 2) t else p

/-- The ticks of the present window of pair `k` at which its correlator can decide: from the last sample of a sequence that
begins with the window to 0.5 µs after the last sample searched. -/
def Dev.divMay (d : Dev) (k : Nat) : Bool :=
  let c := 64 + 2 * k
  let n := d.f (.divCtrl k) 26 24
  let p := period (d.rate c n)
  match (d.rx (2 * k)).cur with
  | some w => d.carrOn c n &&
      decide (w.start + (d.f (.divCtrl k) 10 0 - 1) * p ≤ d.now) &&
      decide (d.now ≤ w.start + (d.f (.divDet k) 31 16 - 1) * p + 983)
  | none => false

/-- The correlator's decision for pair `k`: once in a window, if a branch detects the sequence (R124). -/
def Dev.divDecide (d : Dev) (k : Nat) (m : DivMeas) : Dev :=
  let x := d.divp k
  let thr := d.f (.divDet k) 15 8
  if d.paired (2 * k) ∧ (d.rx (2 * k)).on ∧ !x.detected ∧ d.divMay k ∧ (thr ≤ m.peak0 ∨ thr ≤ m.peak1) then
    let own := if x.sel = 0 then m.pow0 else m.pow1
    let other := if x.sel = 0 then m.pow1 else m.pow0
    let swap := decide (own + (d.f (.divDet k) 7 0 : Nat) ≤ other)
    let diff := if swap then other - own else own - other
    d.setDivp k { sel := if swap then 1 - x.sel else x.sel, detected := true, margin := min 255 diff.toNat,
                  sels := (d.now, x.sel) :: x.sels.filter fun e => decide (d.now ≤ e.1 + keepTicks) }
  else d

end Sys2Proof.Machine
end

