-- ==== Sys2Proof/Machine/Beam.lean ====
section
/-! DEFINITION. The beam engine: contexts, weights, schedules, swaps, fades, stream blocks and partial sums (R169–R189). -/

namespace Sys2Proof.Machine

/-! ## Contexts (Table 7.1) -/

def Dev.ctxOn (d : Dev) (x : Nat) : Bool := d.fb (.ctxCfg x) 31
def Dev.ctxTx (d : Dev) (x : Nat) : Bool := d.fb (.ctxCfg x) 30
def Dev.ctxMode (d : Dev) (x : Nat) : Nat := d.f (.ctxCfg x) 29 28
def Dev.ctxChord (d : Dev) (x : Nat) : Bool := d.fb (.ctxCfg x) 27
def Dev.ctxCarrier (d : Dev) (x : Nat) : Nat := d.f (.ctxCfg x) 26 24
def Dev.ctxPrio (d : Dev) (x : Nat) : Nat := d.f (.ctxCfg x) 13 12
def Dev.ctxComp (d : Dev) (x : Nat) : Nat := d.f (.ctxCfg x) 9 8
def Dev.ctxScale (d : Dev) (x : Nat) : Nat := d.f (.ctxCfg x) 2 0

/-- The mask of a BEAM context. -/
def Dev.ctxMask (d : Dev) (x : Nat) : Nat := (d.reg (.ctxLo x)).toNat + 2 ^ 32 * (d.reg (.ctxHi x)).toNat

/-- The paths that take part: those of the mask, or PATH of a RAW context. -/
def Dev.ctxPaths (d : Dev) (x : Nat) : List Nat :=
  if d.ctxMode x = 1 then [d.f (.ctxCfg x) 21 16] else bitList 64 (d.ctxMask x)

/-- The cell of direction DIR of a path. -/
def Dev.ctxCell (d : Dev) (x p : Nat) : Nat := if d.ctxTx x then p else 64 + p

/-- The context includes path `p`. -/
def Dev.ctxHas (d : Dev) (x p : Nat) : Bool := (d.ctxPaths x).contains p

/-- The cell whose carrier gives an enabled context its rate and boundary table (R169, R176). -/
def Dev.ctxLead (d : Dev) (x : Nat) : Option Nat :=
  if d.ctxOn x then (d.ctxPaths x).head?.map (d.ctxCell x) else none

/-- The rate code of a context. -/
def Dev.ctxRate (d : Dev) (x : Nat) : Nat :=
  match (d.ctxPaths x).head? with
  | some p => d.rate (d.ctxCell x p) (d.ctxCarrier x)
  | none => 0

/-- The sample period of a context. -/
def Dev.ctxPeriod (d : Dev) (x : Nat) : Nat := period (d.ctxRate x)

/-- The boundary table of a context, or `bt` when it has no carrier to give it one (R176, R179). -/
def Dev.ctxTable (d : Dev) (x bt : Nat) : Nat :=
  match d.ctxLead x with
  | some c => d.f (.carrCfg c (d.ctxCarrier x)) 19 16
  | none => bt

/-- The first stamp of a context at or after chip tick `t`; any tick on a disabled context. -/
def Dev.stampAt (d : Dev) (x t : Nat) : Nat := if d.ctxOn x then d.alignUp (d.ctxPeriod x) t else t

/-! ## Weight table (R173) -/

/-- The address of the weight of path `p` of entry `n`. -/
def weightAddr (tx : Bool) (n p : Nat) : Nat :=
  quadMem (p / 16) + (if tx then 0x40000 else 0) + 64 * n + 4 * (p % 16)

/-- The 64 weights of an entry, as they stand in memory. -/
def Dev.entryWords (d : Dev) (tx : Bool) (n : Nat) : List Word :=
  (List.range 4).flatMap fun q => Memory.readWords d.mem (weightAddr tx n (16 * q)) 16

/-- The quadrants whose slices serve a context. -/
def Dev.ctxQuads (d : Dev) (x : Nat) : List Nat :=
  (List.range 4).filter fun q => (d.ctxPaths x).any fun p => p / 16 == q

/-- The quadrants that serve a context and whose line of entry `n` holds an uncorrectable error. -/
def Dev.entryBad (d : Dev) (x n : Nat) : List Nat :=
  (d.ctxQuads x).filter fun q => d.badAt (weightAddr (d.ctxTx x) n (16 * q)) 16

/-- A word of a list; 0 beyond its end. -/
def wordAt (l : List Word) (i : Nat) : Word := (l[i]?).getD 0

/-- The weights after a fetch: a slice that met an error keeps those that it had (Table 1.8, MEM_UNCORRECTABLE). -/
def Ready.over (r : Ready) (old : List Word) : List Word :=
  if r.bad.isEmpty then r.words
  else (List.range 64).map fun p => if r.bad.contains (p / 16) then wordAt old p else wordAt r.words p

/-! ## Fades (R181) -/

/-- One component of a fade weight at sample `n` of `len` (R181). -/
def fadePart (shape n len : Nat) (f t : Int) : Int :=
  if shape = 0 then rndDiv (f * ((len - n : Nat) : Int) + t * ((n + 1 : Nat) : Int)) (len + 1)
  else rndDiv (2 * cosOne * f + (cosOne - cosPi (n + 1) (len + 1)) * (t - f)) (2 * 1208925819614629174706176)

/-- The weights of the newest entry in force whose change lies at or before stamp `s`; before any change, those of the entry
in the table. -/
def Dev.heldWeights (d : Dev) (x s : Nat) : List Word :=
  let c := d.ctx x
  match c.hist.find? fun e => decide (e.1 ≤ s) with
  | some e => e.2
  | none => d.entryWords (d.ctxTx x) (if c.hist.isEmpty then c.entry else c.from_)

/-- The weights that a context heads for at stamp `s`: those in force, then the fetched entries whose change comes by then. -/
def Dev.weightsTo (d : Dev) (x s : Nat) : List Word :=
  ((d.ctx x).ready.filter fun r => decide (r.change ≤ s)).foldl (fun w r => r.over w) (d.heldWeights x s)

/-! ## Schedules (R176) -/

/-- The points that can take effect: boundary tick within the period, and entry. -/
def Dev.points (d : Dev) (bt : Nat) (l : List (Nat × Nat)) : List (Nat × Nat) :=
  (l.filter fun p => decide (p.1 < d.btCount bt)).map fun p => (d.btTick bt p.1, p.2)

/-- The entry in force at chip tick `t` under a schedule (R176); none when no point can take effect. -/
def Dev.entryAt (d : Dev) (bt : Nat) (l : List (Nat × Nat)) (t : Nat) : Option Nat :=
  let ps := d.points bt l
  if d.running ∧ d.btPeriod bt ≠ 0 then
    let x := (t - d.tb.t0) % d.btPeriod bt
    match (ps.filter fun p => decide (p.1 ≤ x)).getLast? with
    | some p => some p.2
    | none => ps.getLast?.map (·.2)
  else ps.head?.map (·.2)

/-- The first point boundary of a schedule at or after chip tick `t`, with its entry. -/
def Dev.nextPoint (d : Dev) (bt : Nat) (l : List (Nat × Nat)) (t : Nat) : Option (Nat × Nat) :=
  match d.nextOf (d.btPeriod bt) ((d.points bt l).map (·.1)) t with
  | some b => (d.entryAt bt l b).map fun e => (b, e)
  | none => none

/-! ## Weights in force -/

/-- The weights that the fade of a swap starts from: the entry that the schedule before it has in force at its start tick,
without the swap's own first entry (R181). -/
def Dev.fadeFrom (d : Dev) (x : Nat) (w : Swap) : List Word :=
  let s0 := d.stampAt x w.start
  let l := ((d.ctx x).ready.filter fun r => decide (r.change ≤ s0)).reverse
  let l := match d.entryAt (d.ctxTable x w.btable) w.points w.start with
    | some e => l.eraseP fun (r : Ready) => r.change == s0 && r.entry == e
    | none => l
  l.reverse.foldl (fun w r => r.over w) (d.heldWeights x s0)

/-- The fade that covers stamp `s`, with that of a bound swap that starts by then. -/
def Dev.fadeAt (d : Dev) (x s : Nat) : Option Fade :=
  let c := d.ctx x
  let l := match c.bound with
    | some w =>
      if w.started then c.fades
      else
        let s0 := d.stampAt x w.start
        { words := d.fadeFrom x w, s0 := s0, len := w.fade, shape := w.shape, stop := s0 + w.fade * d.ctxPeriod x } :: c.fades
    | none => c.fades
  l.find? fun f => decide (f.s0 ≤ s) && decide (s < f.stop)

/-- The weight of path `p` at stamp `s` (R175, R181). -/
def Dev.weight (d : Dev) (x p s : Nat) : Int × Int :=
  let t := wordAt (d.weightsTo x s) p
  match d.fadeAt x s with
  | some h =>
    let f := wordAt h.words p
    let n := (s - h.s0) / d.ctxPeriod x
    (fadePart h.shape n h.len (cxI f) (cxI t), fadePart h.shape n h.len (cxQ f) (cxQ t))
  | none => (cxI t, cxQ t)

/-! ## Fetches (R174, R175) -/

/-- Issue the class-1 fetch of an entry for its change tick. -/
def Dev.fetchIssue (d : Dev) (x change entry : Nat) : Dev :=
  let c := d.ctx x
  d.setCtx x { c with fetch := c.fetch ++ [{ change := change, entry := entry }] }

/-- The oldest fetch completes: its words are ready for its change tick, unless they come late. Each slice that meets an
uncorrectable error reports it (R174, Table 1.8). -/
def Dev.fetchDone (d : Dev) (x : Nat) : Dev :=
  let c := d.ctx x
  match c.fetch with
  | f :: rest =>
    let bad := d.entryBad x f.entry
    let r : Ready := { change := f.change, entry := f.entry, words := d.entryWords (d.ctxTx x) f.entry, bad := bad }
    let d := d.setCtx x { c with fetch := rest, ready := if d.now ≤ f.change then c.ready ++ [r] else c.ready }
    bad.foldl (fun d q => d.fault 0x0302 q (d.locOf 1 q) 0) d
  | [] => d

/-- WEIGHT_LATE by every slice that serves the context (Tables 1.8 and 14.1). -/
def Dev.weightLate (d : Dev) (x : Nat) : Dev :=
  (d.ctxQuads x).foldl (fun d q => d.fault 0x0303 q (d.locOf 4 x) 0) d

/-- The change tick `t` of entry `e` has come: the fetched words apply from that stamp. With no complete fetch the previous entry
stays in force and WEIGHT_LATE is reported; with an error in every slice it stays too, and the error was reported when it was met
(R174). -/
def Dev.entryChange (d : Dev) (x t e : Nat) : Dev :=
  let c := d.ctx x
  match c.ready.find? fun r => r.change == t && r.entry == e with
  | some r =>
    let ready := c.ready.eraseP fun r => r.change == t && r.entry == e
    if !(d.ctxQuads x).isEmpty && (d.ctxQuads x).all fun q => r.bad.contains q then d.setCtx x { c with ready := ready }
    else d.setCtx x { c with entry := e, hist := ((t, r.over (d.heldWeights x t)) :: c.hist).take 64, ready := ready }
  | none => (d.setCtx x { c with fetch := c.fetch.filter fun f => !(f.change == t && f.entry == e) }).weightLate x

/-! ## Rows of the schedule -/

/-- The first point at or after chip tick `t` that takes effect: of the live schedule up to the start of a bound swap, of that
swap's schedule from there on. -/
def Dev.pointAhead (d : Dev) (x t : Nat) : Option (Nat × Nat) :=
  let c := d.ctx x
  let old := d.nextPoint (d.ctxTable x 0) c.live t
  match c.bound with
  | some w =>
    if w.started then old
    else
      (match old with
       | some p => if p.1 ≤ w.start then some p else d.nextPoint (d.ctxTable x 0) w.points (max t (w.start + 1))
       | none => d.nextPoint (d.ctxTable x 0) w.points (max t (w.start + 1)))
  | none => old

/-- 2,048 ticks before a point's change tick, the first stamp at or after its boundary, the fetch of its entry is issued; of a
point that comes sooner than that after the chip enters RUN or the context is enabled, at once (R174; DESIGN CHOICE, log entry
32). -/
def Dev.fetchIssueRow (d : Dev) (x : Nat) : Dev :=
  let c := d.ctx x
  if d.running ∧ d.ctxOn x then
    match d.pointAhead x (max c.issued (max c.changed (d.now + 1 - d.ctxPeriod x))) with
    | some (b, e) =>
      let d := d.goTo (d.stampAt x b - Config.bindLead)
      (d.setCtx x { d.ctx x with issued := b + 1 }).fetchIssue x (d.stampAt x b) e
    | none => d
  else d

/-- The point at boundary `b` is carried out: entry `e` applies from the first stamp at or after it (R176). -/
def Dev.pointAct (d : Dev) (x b e : Nat) : Dev :=
  (d.setCtx x { d.ctx x with changed := b + 1 }).entryChange x (d.stampAt x b) e

/-- A point's entry takes effect for the context at the first stamp at or after its boundary (R176). -/
def Dev.pointChange (d : Dev) (x : Nat) : Dev :=
  if d.running ∧ d.ctxOn x then
    match d.nextPoint (d.ctxTable x 0) (d.ctx x).live (max (d.now + 1 - d.ctxPeriod x) (d.ctx x).changed) with
    | some (b, e) => (d.goTo (d.stampAt x b)).pointAct x b e
    | none => d
  else d

/-- The timebase enters RUN: a context has in force the entry whose point most recently preceded, counted cyclically, as if its
schedule had always been live; a point at tick 0 itself has come (R176). -/
def Dev.runEntry (d : Dev) (x : Nat) : Dev :=
  let c := d.ctx x
  match d.entryAt (d.ctxTable x 0) c.live d.now with
  | some e =>
    if d.ctxOn x then
      d.setCtx x { c with entry := e, from_ := e, hist := [(d.now, d.entryWords (d.ctxTx x) e)], fades := [], fetch := [], ready := [],
                          changed := d.now + 1, issued := d.now + 1 }
    else d
  | none => d

/-- Up to `n` points of the live schedule that chip tick `t` finds not yet carried out, because their stamp or their row
comes no earlier than `t`. -/
def Dev.pointsBy (d : Dev) (x t : Nat) : Nat → Dev
  | 0 => d
  | n + 1 =>
    if d.running ∧ d.ctxOn x ∧ (d.ctx x).changed ≤ t then
      match d.nextPoint (d.ctxTable x 0) (d.ctx x).live (max (t - d.ctxPeriod x) (d.ctx x).changed) with
      | some (b, e) => if b ≤ t then (d.pointAct x b e).pointsBy x t n else d
      | none => d
    else d

/-! ## Swaps (R177–R181) -/

/-- The end of a swap's fade (R178). -/
def Dev.fadeEndOf (d : Dev) (x : Nat) (w : Swap) : Nat :=
  if d.ctxOn x then d.stampAt x w.start + w.fade * d.ctxPeriod x else w.start

/-- The unit of a context in TARGET form. -/
def Dev.ctxUnit (d : Dev) (x : Nat) : Nat := (d.locOf 4 x).toNat

/-- End the swap in the SLOT with ABORTED (R180). -/
def Dev.abortSlot (d : Dev) (x : Nat) : Dev :=
  let c := d.ctx x
  match c.slot with
  | some w => (d.setCtx x { c with slot := none }).finishPart w.tag (d.ctxUnit x) (plain sAborted)
  | none => d

/-- A swap outside RUN starts abruptly: its schedule is LIVE and its first effective entry in force at once (R176, R177). -/
def Dev.swapAtOnce (d : Dev) (x : Nat) (w : Swap) : Dev :=
  let c := d.ctx x
  let e := (d.entryAt (d.ctxTable x w.btable) w.points d.now).getD c.entry
  let d := d.setCtx x { c with live := w.points, entry := e, from_ := e, fading := false,
                               hist := [(0, d.entryWords (d.ctxTx x) e)] }
  d.finishPart w.tag (d.ctxUnit x) (plain sOk)

/-- An accepted swap enters the SLOT, replacing the one there; behind a bound swap it may be held (R179, R180). -/
def Dev.swapEnter (d : Dev) (x : Nat) (w : Swap) : Dev :=
  let d := d.abortSlot x
  let d := d.note w.tag sAccepted
  let c := d.ctx x
  match c.bound with
  | some b =>
    let fe := d.fadeEndOf x b
    if w.start < fe + Config.bindLead then
      let start := (d.nextBoundary (d.ctxTable x w.btable) false (fe + Config.bindLead)).getD (fe + Config.bindLead)
      (d.setCtx x { c with slot := some { w with start := start, held := true } }).note w.tag sHeld
    else d.setCtx x { c with slot := some w }
  | none => d.setCtx x { c with slot := some w }

/-- A swap binds 2,048 ticks before its start, and its first entry is fetched (R178). -/
def Dev.swapBind (d : Dev) (x : Nat) : Dev :=
  let c := d.ctx x
  match c.slot, c.bound with
  | some w, none =>
    let d := d.goTo (w.start - Config.bindLead)
    let d := d.setCtx x { c with slot := none, bound := some w }
    (match d.entryAt (d.ctxTable x w.btable) w.points w.start with
     | some e => d.fetchIssue x (d.stampAt x w.start) e
     | none => d)
  | _, _ => d

/-- The swap's schedule becomes LIVE at its start tick, and the fade begins (R178, R181). On a disabled context it starts
abruptly and ends. -/
def Dev.swapStart (d : Dev) (x : Nat) : Dev :=
  match (d.ctx x).bound with
  | some w =>
    if w.started then d else
    let d := (d.goTo w.start).pointsBy x w.start 2
    let c := d.ctx x
    let s0 := d.stampAt x w.start
    let n := if d.ctxOn x then w.fade else 0
    let d := d.setCtx x { c with live := w.points, bound := some { w with started := true }, from_ := c.entry,
                                 s0 := s0, fadeN := n,
                                 fades := ({ words := d.fadeFrom x w, s0 := s0, len := n, shape := w.shape,
                                             stop := s0 + n * d.ctxPeriod x } :: c.fades).take 8,
                                 changed := w.start + 1, fading := decide (n ≠ 0) }
    let d := match d.entryAt (d.ctxTable x w.btable) w.points w.start with
      | some e => d.entryChange x s0 e
      | none => d
    if d.ctxOn x then d
    else
      let d := d.setCtx x { d.ctx x with bound := none, from_ := (d.ctx x).entry }
      d.finishPart w.tag (d.ctxUnit x) (plain sOk)
  | none => d

/-- The fade ends at s_0 + FADE_LEN × P: BOUND empties and the final OK is sent (R178). -/
def Dev.fadeEnd (d : Dev) (x : Nat) : Dev :=
  match (d.ctx x).bound with
  | some w =>
    if w.started then
      let d := d.goTo ((d.ctx x).s0 + (d.ctx x).fadeN * d.ctxPeriod x)
      let d := d.setCtx x { d.ctx x with bound := none, fading := false, from_ := (d.ctx x).entry }
      d.finishPart w.tag (d.ctxUnit x) (plain sOk)
    else d
  | none => d

/-- A commit disables the context or changes MODE or DIR: the swaps end with ABORTED (R180). -/
def Dev.swapsEnd (d : Dev) (x : Nat) : Dev :=
  let d := d.abortSlot x
  let c := d.ctx x
  match c.bound with
  | some w =>
    let c := if w.started then { c with bound := none, fading := false, fadeN := 0, from_ := c.entry,
                                        fades := c.fades.map fun f => { f with stop := min f.stop d.now } }
             else { c with bound := none, issued := min c.issued w.start,
                           fetch := c.fetch.filter fun f => decide (f.change < d.stampAt x w.start),
                           ready := c.ready.filter fun r => decide (r.change < d.stampAt x w.start) }
    (d.setCtx x c).finishPart w.tag (d.ctxUnit x) (plain sAborted)
  | none => d

/-! ## Receive streams (R171, R184, R185) -/

/-- The exact sum of a receive block of a context over the delivering paths: Σ w x, in units of 2^−14. -/
def Dev.streamSums (d : Dev) (x b : Nat) : List (Int × Int) :=
  let g := d.cfgAt b
  let k := g.ctxCarrier x
  let r := g.ctxRate x
  let ps := ((g.ctxPaths x).map fun p => (p, d.streamPath p b)).filter fun p => d.delivers p.2 r b
  (List.range 16).map fun i =>
    let s := b + i * period r
    if g.ctxMode x = 1 then
      (match ps.head? with
       | some p => let v := d.sampleValue p.2 k s
                   (v.1 * 16384, v.2 * 16384)
       | none => (0, 0))
    else ps.foldl (fun a p => cadd a (cmul (d.weight x p.1 s) (d.sampleValue p.2 k s))) (0, 0)

/-- The code of a stream block: the worst over its paths; a path that delivers nothing counts as 0b10 (R171). -/
def Dev.streamCode (d : Dev) (x b : Nat) : Nat :=
  let g := d.cfgAt b
  (g.ctxPaths x).foldl (fun n p =>
    let q := d.streamPath p b
    max n (if d.delivers q (g.ctxRate x) b then (d.deliveredCode q (g.ctxCarrier x) b).getD 2 else 2)) 0

/-- Every path of the context that delivers the block from `b` has completed it. -/
def Dev.streamReady (d : Dev) (x b : Nat) : Bool :=
  let g := d.cfgAt b
  let qs := (g.ctxPaths x).map fun p => d.streamPath p b
  qs.any (fun q => d.delivers q (g.ctxRate x) b) &&
  qs.all fun q => !d.delivers q (g.ctxRate x) b ||
    match (d.carrOf (64 + q) (g.ctxCarrier x)).last with
    | some (s, _) => decide (b ≤ s)
    | none => false

/-- A sample after SCALE, and whether it saturated (R171). -/
def scaleSample (sc : Nat) (v : Int × Int) : (Int × Int) × Bool :=
  let i := rndDiv v.1 (2 ^ (14 + sc))
  let q := rndDiv v.2 (2 ^ (14 + sc))
  ((sat16 i, sat16 q), decide (sat16 i ≠ i) || decide (sat16 q ≠ q))

/-- A stream block leaves the beam engine: scaled and saturated at the head or on a single chip, as an exact sum on the
chord (R171, R184). -/
def Dev.blockOut (d : Dev) (x : Nat) (b : SBlk) : Dev :=
  let c := d.ctx x
  let s := d.cfgAt b.at_
  if s.ctxChord x ∧ ¬ s.hostSide then d.setCtx x { c with kind := b.code, sat := false, out := c.out ++ [b] }
  else
    let ys := b.vals.zipIdx.map fun v =>
      scaleSample (if s.ctxMode x = 1 then 0 else (d.cfgAt (b.at_ + v.2 * s.ctxPeriod x)).ctxScale x) v.1
    d.setCtx x { c with kind := b.code, sat := ys.any (·.2), out := c.out ++ [{ b with vals := ys.map (·.1) }] }

/-- How long after its first sample's capture a partial sum may arrive at this chip (R185). -/
def Dev.partialLead (d : Dev) : Nat := ns 2500 + Config.hopTicks * (d.last - d.chipNo)

/-- Join the oldest own block with its partial sum, if that has arrived; the tail adds to 0 (R184, R185). -/
def Dev.joinPartial (d : Dev) (x : Nat) : Dev :=
  match (d.ctx x).own with
  | b :: rest =>
    if d.role = 3 then (d.setCtx x { d.ctx x with own := rest }).blockOut x b
    else
      (match d.beam.psum.find? fun s => s.ctx == x && s.at_ == b.at_ with
       | some s =>
         let d := { d with beam := { d.beam with psum := d.beam.psum.filter fun t => !(t.ctx == x && t.at_ == b.at_) } }
         (d.setCtx x { d.ctx x with own := rest }).blockOut x
           { at_ := b.at_, code := max b.code s.code,
             vals := (b.vals.zip s.vals).map fun v => (v.1.1 + v.2.1 * 16384, v.1.2 + v.2.2 * 16384) }
       | none => d)
  | [] => d

/-- A receive context takes the block from `b` once every delivering path has completed it. -/
def Dev.streamBlock (d : Dev) (x b : Nat) : Dev :=
  if d.streamReady x b ∧ (d.ctx x).doneTo ≤ b then
    let blk : SBlk := { at_ := b, code := d.streamCode x b, vals := d.streamSums x b }
    let d := d.setCtx x { d.ctx x with doneTo := b + 1 }
    if (d.cfgAt b).ctxChord x then (d.setCtx x { d.ctx x with own := (d.ctx x).own ++ [blk] }).joinPartial x
    else d.blockOut x blk
  else d

/-- The enabled receive contexts that use carrier `k` of path `p`. -/
def Dev.rxUsers (d : Dev) (p k : Nat) : List Nat :=
  (List.range 128).filter fun x => d.ctxOn x && !d.ctxTx x && d.ctxCarrier x == k && d.ctxHas x p

/-- An RX carrier block is complete; the stream blocks that wait for it follow (R162, R171). -/
def Dev.carrierBlockRow (d : Dev) (p k : Nat) : Dev :=
  match d.nextBlock p k with
  | some b => ((d.cfgAt b).rxUsers ((d.cfgAt b).tableCell p) k).foldl (fun d x => d.streamBlock x b) (d.carrierBlock p k)
  | none => d

/-- Join the own blocks of a context, oldest first, with the partial sums that have arrived. -/
def Dev.joinAll (d : Dev) (x : Nat) : Dev := (d.ctx x).own.foldl (fun d _ => d.joinPartial x) d

/-- A partial sum that has not arrived by its deadline is replaced by 0, and the block is marked 0b11; the blocks behind it join
the sums that wait for them (R185). -/
def Dev.partialMissing (d : Dev) (x : Nat) : Dev :=
  match (d.ctx x).own with
  | b :: rest =>
    let d := d.goTo (b.at_ + d.partialLead)
    ((d.setCtx x { d.ctx x with own := rest }).blockOut x { b with code := 3 }).joinAll x
  | [] => d

/-! ## Transmit streams (R51, R172, R186) -/

/-- TX_LEAD on this chip: a member holds chord samples until T − 5,899 (R50, R51). -/
def Dev.txLead (d : Dev) : Nat :=
  if d.hostSide then Config.txLead0 + Config.hopTicks * d.last else Config.txLead0

/-- A stored stream sample, and a sample that has entered the beam engine. -/
def Dev.stored (d : Dev) (x t : Nat) : Option TxSmp := d.beam.ingress.find? fun s => s.ctx == x && s.at_ == t
def Dev.fedSample (d : Dev) (x t : Nat) : Option TxSmp := d.beam.fed.find? fun s => s.ctx == x && s.at_ == t

/-- The enabled transmit contexts that feed carrier `k` of TX path `p`; path 2k + 1 of a pair is served by path 2k. -/
def Dev.txUsers (d : Dev) (p k : Nat) : List Nat :=
  (List.range 128).filter fun x =>
    d.ctxOn x && d.ctxTx x && d.ctxCarrier x == k && d.ctxHas x (d.tableCell p)

/-- The stamp of a carrier that covers path tick `t`. -/
def Dev.stampOf (d : Dev) (c k t : Nat) : Nat := d.tb.t0 + (t - d.tb.t0) / period (d.rate c k) * period (d.rate c k)

/-- The sum that carrier `k` of TX path `p` takes at stamp `s`, and the input that it gives, saturated (R172). -/
def Dev.txSum (d : Dev) (p k s : Nat) : Int × Int :=
  (d.txUsers p k).foldl (fun a x =>
    match d.fedSample x s with
    | some y =>
      if d.ctxMode x = 1 then cadd a (y.i, y.q)
      else
        let z := cmul (d.weight x (d.tableCell p) s) (y.i, y.q)
        cadd a (rndDiv z.1 16384, rndDiv z.2 16384)
    | none => a) (0, 0)

def Dev.txInput (d : Dev) (p k s : Nat) : Int × Int := (sat16 (d.txSum p k s).1, sat16 (d.txSum p k s).2)

/-- The stamps of the most recent stream block of a transmit context: the last of which every sample has left the ingress store,
with the settings in force there. -/
def Dev.txBlock (d : Dev) (x : Nat) : Option (Dev × List Nat) :=
  let p := d.ctxPeriod x
  let b := d.alignUp (16 * p) (d.now + d.txLead + 1 - 15 * p) - 16 * p
  let g := d.cfgAt b
  if d.running ∧ d.tb.t0 ≤ b ∧ 15 * p ≤ d.now + d.txLead - d.tb.t0 ∧ g.ctxOn x ∧ g.ctxTx x then
    some (g, (List.range 16).map fun i => b + i * p) else none

/-- KIND and SAT of a transmit context: the code of its most recent stream block, and whether a sum that it feeds saturated there
(Table 7.1, R172). -/
def Dev.txKindSat (d : Dev) (x : Nat) : Nat × Bool :=
  match d.txBlock x with
  | some (g, ts) =>
    (ts.foldl (fun n s => match g.fedSample x s with
      | some y => max n y.code
      | none => 3) 0,
     ts.any fun s => (g.ctxPaths x).any fun p => decide (g.txSum p (g.ctxCarrier x) s ≠ g.txInput p (g.ctxCarrier x) s))
  | none => (0, false)

/-- The contexts that feed a TX path at tick `t` and whose stream sample is missing there (R53, R172). -/
def Dev.missing (d : Dev) (p t : Nat) : List Nat :=
  (List.range 8).flatMap fun k =>
    if d.carrOn p k then
      (d.txUsers p k).filter fun x =>
        match d.fedSample x (d.stampOf p k t) with
        | some s => s.code == 3
        | none => true
    else []

end Sys2Proof.Machine
end

