-- ==== Sys2Proof/Machine/Predist.lean ====
section
/-! DEFINITION. Path processing: scaling, crest-factor reduction, the pre-distortion model, banks, swaps, guards, the
release gate, and the contents of observation captures (R49, R53, R191–R214). -/

namespace Sys2Proof.Machine

/-! ## Carrier sum and CFR (R191–R196) -/

/-- The sample of carrier `k` of TX path `p` at stamp `s` after the gain, in units of 1/gainOne, with the settings in force there
(R55, R148, R154); 0 while the carrier is disabled (Table 6.5). -/
def Dev.txSample0 (d : Dev) (p k s : Nat) : Int × Int :=
  let g := d.cfgAt s
  if g.carrOn p k then cscale (d.gainAt p k s) (g.txInput p k s) else (0, 0)

/-- The ticks from `t − h` to `t + h` lie in one segment of a TX carrier. -/
def Dev.txOneSegment (d : Dev) (p k t h : Nat) : Bool :=
  !(d.txCuts p k).any fun x => decide (t - h < x) && decide (x ≤ t + h)

/-- The largest half-length, at most `h`, of a bridge window at path tick `t` (R160, R164). -/
def Dev.txBridgeHalf (d : Dev) (p k t : Nat) : Nat → Nat
  | 0 => 0
  | h + 1 => if d.txOneSegment p k t (h + 1) then h + 1 else d.txBridgeHalf p k t h

/-- The bound on a half-length: the bridge length, and D_k (R160). -/
def Dev.txBridgeBound (d : Dev) (p k t : Nat) : Nat :=
  let l := (d.cfgAt t).f (.carrBridge p k) 15 0 + 1
  min (if l % 2 = 0 then l / 2 - 1 else (l - 1) / 2) (groupDelay (d.rateAt p k t))

/-- A complex value as numerators over a denominator. -/
abbrev Ratio := (Int × Int) × Nat

/-- The output of TX carrier `k` at path tick `t`: the interpolating chain, on a coarse tick the mean of the samples, each held
for its period, and 0 on an invalid tick (R148, R164). -/
def Dev.txChainOut (d : Dev) (p k t : Nat) : Ratio :=
  let r := d.rateAt p k t
  match d.txCarrKind p k t with
  | 0 => (interpolated r d.tb.t0 (d.txSample0 p k) r t, gainOne * 2 ^ (40 * r))
  | 1 =>
    let h := d.txBridgeHalf p k t (d.txBridgeBound p k t)
    ((List.range (2 * h + 1)).foldl (fun a i =>
      let u := t + i - h
      cadd a (d.txSample0 p k ((d.cfgAt u).stampOf p k u))) (0, 0), gainOne * (2 * h + 1))
  | _ => ((0, 0), 1)

/-- Sum of two ratios. -/
def Ratio.add (a b : Ratio) : Ratio := (cadd (cscale b.2 a.1) (cscale a.2 b.1), a.2 * b.2)

/-- S, the exact sum of the carrier contributions y e^(+jφ) of a path at tick `t` (R148, R152, R191); the cosines hold to 2^−70
(log entry 39). The chains of a sleeping cell contribute 0 (R199, R349). -/
def Dev.pathS (d : Dev) (p t : Nat) : Ratio :=
  if d.domDown p then ((0, 0), 1) else
  (List.range 8).foldl (fun s k =>
    let y := d.txChainOut p k t
    if y.1 = (0, 0) then s else s.add (cmul y.1 (phasor (d.phaseAt p k t)), y.2 * 2 ^ 80)) ((0, 0), 1)

/-- v before saturation, and v (R191). -/
def Dev.pathVraw (d : Dev) (p t : Nat) : Int × Int :=
  let sh := 2 ^ (d.cfgAt t).f (.pathCfg p) 1 0
  let s := d.pathS p t
  (rndDiv s.1.1 (s.2 * sh), rndDiv s.1.2 (s.2 * sh))
def Dev.pathV (d : Dev) (p t : Nat) : Int × Int :=
  let v := d.pathVraw p t
  (sat16 v.1, sat16 v.2)

/-- `2n − 1 ≤ 65,536 · 10^(x/80)`, decided exactly for a signed `x`. -/
def thresholdFits (x : Int) (n : Nat) : Bool :=
  if x < 0 then decide ((2 * n - 1) ^ 80 * 10 ^ x.natAbs ≤ 65536 ^ 80)
  else decide ((2 * n - 1) ^ 80 ≤ 65536 ^ 80 * 10 ^ x.natAbs)

/-- The largest `n` built from `base` by adding powers of two below `2^k` that satisfies `thresholdFits`. -/
def thresholdSearch (x : Int) : Nat → Nat → Nat
  | 0, base => base
  | k + 1, base => thresholdSearch x k (if thresholdFits x (base + 2 ^ k) then base + 2 ^ k else base)

/-- The CFR threshold A_th for LEVEL + PAPR in 0.25 dB (R192). -/
def cfrThreshold (x : Int) : Nat := min 32767 (thresholdSearch x 16 0)

/-- A_th of a path. -/
def Dev.aTh (d : Dev) (p : Nat) : Nat := cfrThreshold (sx 8 (d.f (.cfrCfg p) 15 8) + (d.f (.cfrCfg p) 5 0 : Nat))

/-- What a pass of CFR works with at one tick: the threshold, and the length and the taps of the pulse. -/
abbrev CfrSet := Nat × Nat × (Nat → Int × Int)

/-- A tick crosses the threshold. -/
def above (c : Nat → Option CfrSet) (w : Nat → Int × Int) (t : Nat) : Bool :=
  match c t with
  | some x => decide (x.1 * x.1 < mag2 (w t))
  | none => false

/-- The first tick of the run that holds `t` (for a tick that crosses). -/
def runStart (c : Nat → Option CfrSet) (w : Nat → Int × Int) : Nat → Nat
  | 0 => 0
  | t + 1 => if above c w t then runStart c w t else t + 1

/-- The tick of largest magnitude among `n` more ticks of the run after `t`, the earliest on a tie. -/
def runPeak (c : Nat → Option CfrSet) (w : Nat → Int × Int) : Nat → Nat → Nat → Nat
  | 0, _, best => best
  | n + 1, t, best =>
    if above c w (t + 1) then runPeak c w n (t + 1) (if mag2 (w best) < mag2 (w (t + 1)) then t + 1 else best)
    else best

/-- `t` is the peak of its run, runs being cut after 64 ticks (R193). -/
def isPeak (c : Nat → Option CfrSet) (w : Nat → Int × Int) (t : Nat) : Bool :=
  above c w t &&
  (let r := runStart c w t
   let s := r + (t - r) / 64 * 64
   runPeak c w 63 s s == t)

/-- The pulse of a peak at `x` reaches tick `t`. -/
def covers (c : Nat → Option CfrSet) (x t : Nat) : Bool :=
  match c x with
  | some y => decide (t < x + y.2.1) && decide (x < t + y.2.1)
  | none => false

/-- The peaks up to tick `t` that are cancelled, latest first: one whose pulse would be the ninth at any tick is skipped
(R194). Peaks further back than two pulses cannot overlap. -/
def cancelled (c : Nat → Option CfrSet) (w : Nat → Int × Int) : Nat → List Nat
  | 0 => []
  | t + 1 =>
    let l := (cancelled c w t).filter fun x => decide (t + 1 < x + 256)
    if isPeak c w (t + 1) ∧
       (List.range 255).all (fun i =>
         let y := t + 1 + i - 127
         !covers c (t + 1) y || decide ((l.filter fun x => covers c x y).length < 8)) then (t + 1) :: l
    else l

/-- A pulse of CFR at a tick: the threshold, w and |w|² at its peak, and its tap at that tick, Q1.14. -/
abbrev CfrPulse := Nat × (Int × Int) × Nat × (Int × Int)

/-- w less α c for every pulse, to nearest and exactly: one component is 2^14 w − Σ x + Σ A x √n / n over 2^14, where x is that
component of the peak times the tap and n is |w|² at the peak, since α = w (1 − A/|w|) (R193, R194). -/
def cfrSubtract (w : Int) (part : Int × Int → Int) (l : List CfrPulse) : Int :=
  let n := l.foldl (fun (m : Nat) (x : CfrPulse) => m * x.2.2.1) 1
  let x (y : CfrPulse) : Int := part (cmul y.2.1 y.2.2.2)
  roundRoots (2 ^ 14 * n) (((w * ((2 ^ 14 : Nat) : Int) - l.foldl (fun a y => a + x y) 0) * (n : Nat), 1) ::
    l.map fun y => ((y.1 : Int) * x y * ((n / y.2.2.1 : Nat) : Int), y.2.2.1))

/-- One pass of CFR at tick `t`: w less the pulses of the cancelled peaks, each with the threshold and the pulse in force at
its peak, rounded and saturated (R193, R194, R196). -/
def cfrPass (c : Nat → Option CfrSet) (w : Nat → Int × Int) (t : Nat) : Int × Int :=
  let l : List CfrPulse := ((cancelled c w (t + 127)).filter fun x => covers c x t).filterMap fun x =>
    (c x).map fun y =>
      (y.1, w x, mag2 (w x), if x ≤ t then y.2.2 (t - x) else ((y.2.2 (x - t)).1, -(y.2.2 (x - t)).2))
  (sat16 (cfrSubtract (w t).1 (·.1) l), sat16 (cfrSubtract (w t).2 (·.2) l))

/-- What the first pass of a path works with at tick `t`, and the second, which runs while PASSES is 1 (R194, R195). -/
def Dev.cfrFirst (d : Dev) (p t : Nat) : Option CfrSet :=
  let g := d.cfgAt t
  let n := g.f (.cfrCfg p) 17 16
  if g.fb (.cfrCfg p) 31 then
    some (g.aTh p, g.f (.pulseLen (p / 16) n) 7 0, fun i =>
      let w := g.reg (.pulseTap (p / 16) n i)
      (cxI w, cxQ w))
  else none
def Dev.cfrSecond (d : Dev) (p t : Nat) : Option CfrSet :=
  if (d.cfgAt t).fb (.cfrCfg p) 24 then d.cfrFirst p t else none

/-- CFR of a path is off, and neither a recent nor an accepted commit has it otherwise. -/
def Dev.cfrOff (d : Dev) (p : Nat) : Bool :=
  let a := (Reg.cfrCfg p).addr
  !d.fb (.cfrCfg p) 31 && !(d.past.any fun e => e.2.1 == a) && !(d.cmd.staged.any fun f => f.addr == a)

/-- u, the output of CFR (R191, R194). -/
def Dev.pathU (d : Dev) (p t : Nat) : Int × Int :=
  if d.cfrOff p then d.pathV p t else cfrPass (d.cfrSecond p) (cfrPass (d.cfrFirst p) (d.pathV p)) t

/-- A peak at tick `t` is skipped in a pass (R194). -/
def Dev.skips (d : Dev) (p t : Nat) : Bool :=
  let w := cfrPass (d.cfrFirst p) (d.pathV p)
  !d.cfrOff p &&
  ((isPeak (d.cfrFirst p) (d.pathV p) t && !(cancelled (d.cfrFirst p) (d.pathV p) t).contains t) ||
   (isPeak (d.cfrSecond p) w t && !(cancelled (d.cfrSecond p) w t).contains t))

/-! ## Banks (R202, Table 8.1) -/

/-- The address of a bank. -/
def bankAddr (p b : Nat) : Nat := quadMem (p / 16) + 0x80000 + (p % 16) * 0x400 + b * 0x200

/-- Fields of a bank. The identity bank is `none`. -/
def bankSeq (l : List Word) : Nat := fld (wordAt l 0) 31 16
def bankStep (l : List Word) : Nat := 2 ^ fld (wordAt l 0) 15 14
def bankCross (l : List Word) : Nat := fld (wordAt l 0) 12 8
def bankSelf (l : List Word) : Nat := fld (wordAt l 0) 6 0
def nbValid (l : List Word) (s : Nat) : Bool := bitOf (wordAt l 1) (8 * s + 7)
def nbPath (l : List Word) (s : Nat) : Nat := fld (wordAt l 1) (8 * s + 3) (8 * s)

/-- Descriptor `i` of the array that starts at word `w0`. -/
def descAt (l : List Word) (w0 i : Nat) : Nat := fld (wordAt l (w0 + i / 2)) (16 * (i % 2) + 15) (16 * (i % 2))
def descK (x : Nat) : Nat := x / 4096 % 16
def descM (x : Nat) : Nat := x / 256 % 8
def descE (x : Nat) : Nat := x / 16 % 8
def descSlot (x : Nat) : Nat := x / 4 % 4
def descEnv (x : Nat) : Bool := x % 2 == 1

/-- A coefficient in units of 2^−14: (I + jQ) · 2^E. -/
def coef (w : Word) (e : Nat) : Int × Int := (cxI w * ((2 ^ e : Nat) : Int), cxQ w * ((2 ^ e : Nat) : Int))

/-- The linear self coefficient of a bank. -/
def linearCoef (l : List Word) : Option (Int × Int) :=
  ((List.range (bankSelf l)).find? fun i => descK (descAt l 2 i) == 1 && descM (descAt l 2 i) == 0).map fun i =>
    coef (wordAt l (42 + i)) (descE (descAt l 2 i))

/-- Check 6 of Table 8.2, exactly: Σ |b_j| ≤ |a| × CROSS_MAX / 16 for the linear self coefficient a. -/
def crossFits (crossMax : Nat) (a : Int × Int) (l : List Word) : Bool :=
  decide (0 ≤ rootSign (((crossMax : Int), mag2 a) :: (List.range (bankCross l)).map fun j =>
    (-16, mag2 (coef (wordAt l (106 + j)) (descE (descAt l 34 j))))))

/-- The elements of a list are distinct. -/
def distinct : List Nat → Bool
  | [] => true
  | x :: xs => !xs.contains x && distinct xs

/-- The number of the first failing check of Table 8.2; 0 when the bank passes. -/
def bankCheck (crossMax p : Nat) (l : List Word) : Nat :=
  let selfs := (List.range (bankSelf l)).map fun i => descAt l 2 i
  let cross := (List.range (bankCross l)).map fun j => descAt l 34 j
  let slots := (List.range 4).filter fun s => nbValid l s
  if bankSelf l < 1 ∨ 64 < bankSelf l ∨ 16 < bankCross l then 1
  else if selfs.any (fun x => decide (descK x < 1) || decide (9 < descK x)) ∨
          !distinct (selfs.map fun x => 8 * descK x + descM x) then 2
  else if (match linearCoef l with
           | some a => decide (mag2 a < 8192 * 8192) || decide (32768 * 32768 < mag2 a)
           | none => true) = true then 3
  else if cross.any (fun x => decide (descK x < 1) || decide (9 < descK x) || !nbValid l (descSlot x)) then 4
  else if !distinct (slots.map (nbPath l)) ∨ (slots.map (nbPath l)).contains (p % 16) then 5
  else if (match linearCoef l with
           | some a => !crossFits crossMax a l
           | none => true) = true then 6
  else 0

/-! ## The model (R197–R201) -/

/-- The pre-distortion cap of the ladder step in force (Table 15.9): 0 off, 1 self, 2 coupled. -/
def Dev.dpdCap (d : Dev) : Nat := if d.pwr.step = 0 then 2 else d.f (.plStep d.pwr.step) 17 16

/-- The effective mode that MODE and the cap call for (R200). -/
def Dev.wantMode (d : Dev) (p : Nat) : Nat := min (d.f (.dpdCfg p) 1 0) d.dpdCap

/-- The effective mode in force at tick `t`; in a block to come, what the settings of the tick before it call for (R200). -/
def Dev.effMode (d : Dev) (p t : Nat) : Nat :=
  let b := d.blockStart t
  if d.now < b then (d.cfgAt (b - 1)).wantMode p
  else (d.path p).effs.foldl (fun m e => if t < e.1 then e.2 else m) (d.path p).eff

/-- Note that LIVE, STORE or the effective mode of a path changes at tick `b`. -/
def PathProc.changed (x : PathProc) (now b : Nat) : PathProc :=
  { x with chgs := b :: x.chgs.filter fun t => decide (now ≤ t + keepTicks) }

/-- MODE or the cap has changed: the effective mode follows from the first path-block boundary after it (R200). -/
def Dev.modeChange (d : Dev) (p : Nat) : Dev :=
  let x := d.path p
  let m := d.wantMode p
  if m ≠ x.eff then
    let b := if d.running then d.nextPathBlock d.now else d.now
    d.setPath p ({ x with eff := m, effs := (b, x.eff) :: x.effs.filter fun e => decide (d.now ≤ e.1 + keepTicks) }.changed d.now b)
  else d

/-- TX cell `n` is in ON at tick `t`, as far as its windows tell (R199). -/
def Dev.onAt (d : Dev) (n t : Nat) : Bool :=
  let x := d.tx n
  (x.seq == .on && decide (x.onFrom ≤ t) &&
    (match x.cur with
     | some w => decide (t < w.stop + d.paLag)
     | none => true)) ||
  x.ons.any fun e => decide (e.1 ≤ t) && decide (t < e.2)

/-- The neighbour input: u while the TX cell is in ON, 0 otherwise (R198, R199). -/
def Dev.neighbourU (d : Dev) (n t : Nat) : Int × Int := if d.onAt n t then d.pathU n t else (0, 0)

/-- One component of a term of the model in codes, exactly rounded: coefficient × signal × |env/32,768|^(k−1) (R197). -/
def exactTerm (x : Int) (env : Int × Int) (k : Nat) : Int :=
  roundRoots (2 ^ (14 + 15 * (k - 1))) [(x, mag2 env ^ (k - 1))]

/-- One term of the model: within one code of the exactly rounded one (R197). -/
def dpdTerm (p t i : Nat) (a sig env : Int × Int) (k : Nat) : Int × Int :=
  let x := cmul a sig
  let r := Config.dpdTermError p t i
  (exactTerm x.1 env k + r.1.val - 1, exactTerm x.2 env k + r.2.val - 1)

/-- The contents of a bank are those of the identity bank, with which z = u (R197). -/
def isIdentity (l : List Word) : Bool :=
  bankSelf l == 1 && bankCross l == 0 && descK (descAt l 2 0) == 1 && descM (descAt l 2 0) == 0 && descE (descAt l 2 0) == 0 &&
  wordAt l 42 == 0x4000

/-- The bank that applies at tick `t`: LIVE or what was LIVE then, or what a bound swap and a trip make LIVE by then. A trip
drops a swap whose boundary does not come before it (R205, R208). -/
def Dev.bankBy (d : Dev) (p t : Nat) : Option (List Word) :=
  let x := d.path p
  let live := x.lives.foldl (fun l e => if t < e.1 then e.2 else l) x.live
  let tripBy (u : Nat) : Bool := match x.trip with
    | some (v, _) => decide (v ≤ u)
    | none => false
  let swapped := match x.swap with
    | some w => if w.bound ∧ w.target ≤ t ∧ !tripBy w.target then w.got else none
    | none => none
  match swapped with
  | some l => if tripBy t then x.live else some l
  | none => if tripBy t then (if x.store = 0 then x.prev else if x.store = 1 then none else x.live) else live

/-- z before saturation at tick `t` (R197). Off, or with the identity bank, it is u. -/
def Dev.pathZraw (d : Dev) (p t : Nat) : Int × Int :=
  let mode := d.effMode p t
  match d.bankBy p t with
  | none => d.pathU p t
  | some l =>
    if mode = 0 ∨ isIdentity l then d.pathU p t
    else
      let selfs := (List.range (bankSelf l)).foldl (fun s i =>
        let x := descAt l 2 i
        let u := d.pathU p (t - descM x * bankStep l)
        cadd s (dpdTerm p t i (coef (wordAt l (42 + i)) (descE x)) u u (descK x))) (0, 0)
      if mode = 1 then selfs
      else (List.range (bankCross l)).foldl (fun s j =>
        let x := descAt l 34 j
        let tau := t - descM x * bankStep l
        let n := p / 16 * 16 + nbPath l (descSlot x)
        let un := d.neighbourU n tau
        cadd s (dpdTerm p t (64 + j) (coef (wordAt l (106 + j)) (descE x)) un
          (if descEnv x then d.pathU p tau else un) (descK x))) selfs

/-- z (R197). -/
def Dev.pathZ (d : Dev) (p t : Nat) : Int × Int := (sat16 (d.pathZraw p t).1, sat16 (d.pathZraw p t).2)

/-- The contexts that feed a path at tick `t` and miss their sample, with the settings in force there. -/
def Dev.missingAt (d : Dev) (p t : Nat) : List Nat := (d.cfgAt t).missing p t

/-- The code of a path's own block at tick `t`: the worst of its chains, 0b11 when a stream sample is missing (R164). -/
def Dev.ownCode (d : Dev) (p t : Nat) : Nat :=
  let b := d.blockStart t
  (List.range 16).foldl (fun n i =>
    max n (if (d.missingAt p (b + i)).isEmpty then d.txKind p (b + i) else 3)) 0

/-- The code of a path block of z; a neighbour counts while it is in ON at a tick of the block (R201). -/
def Dev.zCode (d : Dev) (p t : Nat) : Nat :=
  let own := d.ownCode p t
  let b := d.blockStart t
  match d.bankBy p t with
  | some l =>
    if d.effMode p t = 2 then
      (List.range (bankCross l)).foldl (fun n j =>
        let m := p / 16 * 16 + nbPath l (descSlot (descAt l 34 j))
        if wordAt l (106 + j) = 0 then n
        else if (List.range 16).any fun i => d.onAt m (b + i) then max n (d.ownCode m t) else n) own
    else own
  | none => own

/-! ## Release gate (R49, R53, R54, R191) -/

/-- The next tick that the gate of a TX cell releases: inside the window in progress, at least 48 ticks ahead. -/
def Dev.gateTick (d : Dev) (p : Nat) : Option Nat :=
  match (d.tx p).cur with
  | some w =>
    let t := max (max (d.tx p).gateAt w.start) (d.now + Config.gateLead)
    if t < w.stop then some t else none
  | none => none

/-- The chord streams of a context have stopped at this member: its own hop toward the head is down, or no transmit CHORD packet
of the rate for an interval after that of tick `t` has come. A chip further beyond a failed hop cannot see the hop; by the time
its gate meets the first missing sample, two more packets were due (R189; DESIGN CHOICE, log entry 40). -/
def Dev.chordStopped (d : Dev) (x t : Nat) : Bool :=
  !d.hostSide && d.ctxChord x &&
  (!d.groupRun 1 || decide (Tbl.get (fun _ => 0) d.beam.chordAt (d.ctxRate x) ≤ t))

/-- A substituted sample is silent when another report covers it: every missing stream is shed by the ladder (R361), or
is a chord stream beyond a failed hop (R189), or group H is down (R266). -/
def Dev.silent (d : Dev) (t : Nat) (l : List Nat) : Bool :=
  (d.hostSide && !d.groupRun 0) || l.all fun x => d.pwr.shed.contains x || d.chordStopped x t

/-- The contexts that feed a path at tick `t`, with the settings in force there. -/
def Dev.feeding (d : Dev) (p t : Nat) : List Nat :=
  let g := d.cfgAt t
  (List.range 8).flatMap fun k => if g.carrOn p k then g.txUsers p k else []

/-- The gate holds no sample for tick `t` of a path: streams feed the path and every one of them misses its sample. A path that
only some of its streams fail holds the sum of the others (R53, R172). -/
def Dev.holdsNone (d : Dev) (p t : Nat) : Bool :=
  !(d.feeding p t).isEmpty && (d.feeding p t).all fun x => (d.missingAt p t).contains x

/-- The sample that the gate of a TX cell has released for tick `t`: that of the window in progress, none in DARK (R49, R53,
R54, R111). -/
def Dev.gateSample (d : Dev) (p t : Nat) : Option (Int × Int) :=
  let x := d.tx p
  match x.cur with
  | some w =>
    if w.start ≤ t ∧ t < w.stop ∧ t < x.gateAt ∧ x.seq ≠ .dark then
      some (if d.holdsNone p t then (0, 0) else d.pathZ p t)
    else none
  | none => none

/-- 48 ticks before `t` the gate passes the path sample of tick `t`, or 0 + j0 when it holds none; the first tick of a window at
which a stream sample is missing is reported (R49, R53, R172). In DARK the samples are discarded (R111). What a window has missed
is judged here, so for its first 48 ticks before START: a window that then goes DARK may have reported (DESIGN CHOICE, log
entry 36). -/
def Dev.releaseGate (d : Dev) (p : Nat) : Dev :=
  match d.gateTick p with
  | some t =>
    let d := d.goTo (t - Config.gateLead)
    let x := d.tx p
    if x.seq = .dark then d.setTx p { x with gateAt := t + 1 }
    else
      let ms := d.missingAt p t
      let d := d.setTx p { x with gateAt := t + 1, undr := x.undr || !ms.isEmpty }
      if ms.isEmpty ∨ x.undr ∨ d.silent t ms then d
      else d.faultAt 0x0101 (p / 16) (d.locOf 3 p) 0 (d.tsAt t)
  | none => d

/-! ## The DAC (R139, R220) -/

/-- What the correction stage gives for tick `t`: the gate's samples up to it, corrected with the values of that tick and limited
to the range of the DAC; 0 where the gate has released none (R219, R220). -/
def Dev.corrected (d : Dev) (p t : Nat) : Int × Int :=
  let vs := d.calValues p t
  let s (u : Nat) : Int × Int := (d.gateSample p u).getD (0, 0)
  let v := if vs.all (·.isEmpty) then s t else Config.txCorrected vs ((List.range 48).map fun i => s (t - i))
  (sat16 v.1, sat16 v.2)

/-- The codes of the DAC pair of a TX cell at the present tick, or at the half-tick after it: the ×2 interpolator over the 48
samples on either side in RUN, mid-scale in STARTING and MIDSCALE, none in OFF (R139, R140). -/
def Dev.dacCodes (d : Dev) (p : Nat) (half : Bool) : Option (Int × Int) :=
  match d.dacState p with
  | 0 => none
  | 3 =>
    let v := (List.range 96).foldl (fun a i => cadd a (cscale (Config.dacTap half i) (d.corrected p (d.now + 48 - i)))) (0, 0)
    some (sat16 (rndDiv v.1 (2 ^ 40)), sat16 (rndDiv v.2 (2 ^ 40)))
  | _ => some (0, 0)

/-- PP_STAT (Table 8.6): v saturated, a peak skipped and z saturated in the last whole path block; every path tick counts, also
outside windows and in DARK (R191, R194). -/
def Dev.ppFlags (d : Dev) (p : Nat) : Nat :=
  let b := d.blockStart d.now - 16
  if d.running ∧ d.tb.t0 ≤ b then
    let ts := (List.range 16).map (b + ·)
    b2n (ts.any fun t => decide (d.pathVraw p t ≠ d.pathV p t)) + 2 * b2n (ts.any (d.skips p)) +
      4 * b2n (ts.any fun t => decide (d.pathZraw p t ≠ d.pathZ p t))
  else 0

/-! ## Swaps (R204–R206) -/

/-- The slot boundary that a request made now targets: its binding tick lies after the request (R204). -/
def Dev.swapTarget (d : Dev) (p : Nat) : Nat :=
  (d.nextBoundary (d.f (.carrCfg p (d.f (.dpdCfg p) 10 8)) 19 16) true (d.now + Config.bindLead + 1)).getD
    (d.nextFrameStart (d.now + Config.bindLead + 1))

/-- The unit of a TX cell in TARGET form. -/
def Dev.cellUnit (d : Dev) (c : Nat) : Nat := (d.locOf 3 c).toNat

/-- End a swap request made by a command. -/
def Dev.endSwap (d : Dev) (p : Nat) (tag : Option (BitVec 8)) (r : Res) : Dev :=
  match tag with
  | some t => d.finishPart t (d.cellUnit p) r
  | none => d

/-- The former LIVE banks of a path, with the one that ends now. -/
def Dev.formerLives (d : Dev) (p : Nat) : List (Nat × Option (List Word)) :=
  (d.now, (d.path p).live) :: (d.path p).lives.filter fun e => decide (d.now ≤ e.1 + keepTicks)

/-- LIVE takes a fetched bank and PREV the bank that was live (R203, R205). -/
def Dev.makeLive (d : Dev) (p : Nat) (l : List Word) : Dev :=
  let x := d.path p
  d.setPath p ({ x with prev := x.live, live := some l, store := 0, swap := none, lives := d.formerLives p }.changed d.now d.now)

/-- Enter the guard lock (R206, R208). -/
def Dev.guardLock (d : Dev) (p kind err : Nat) : Dev :=
  d.setPath p { d.path p with lock := true, gkind := kind, bankErr := err }

/-- DPD_GUARD of a TX cell. -/
def Dev.reportGuard (d : Dev) (p : Nat) : Dev := d.fault 0x0307 (p / 16) (d.locOf 3 p) 0

/-- A bank request begins: pending in RUN, bound at once outside RUN (R204, R205). -/
def Dev.swapRequest (d : Dev) (p bank : Nat) (tag : Option (BitVec 8)) : Dev :=
  let x := d.path p
  if x.lock then d
  else
    match x.swap with
    | some s =>
      if s.bound then d.endSwap p tag (plain sBusy)
      else
        let d := d.setPath p { x with swap := some { bank := bank, target := d.swapTarget p, tag := tag } }
        d.endSwap p s.tag (plain sAborted)
    | none =>
      d.setPath p { x with swap := some { bank := bank, target := if d.running then d.swapTarget p else d.now,
                                          tag := tag, bound := !d.running } }

/-- A write with REQ = 0 cancels a pending request (R204). -/
def Dev.swapCancel (d : Dev) (p : Nat) : Dev :=
  let x := d.path p
  match x.swap with
  | some s => if s.bound then d else (d.setPath p { x with swap := none }).endSwap p s.tag (plain sAborted)
  | none => d

/-- At the binding tick the request binds and its fetch begins (R205). -/
def Dev.dpdBind (d : Dev) (p : Nat) : Dev :=
  match (d.path p).swap with
  | some s =>
    if s.bound then d else
    let d := d.goTo (s.target - Config.bindLead)
    d.setPath p { d.path p with swap := some { s with bound := true } }
  | none => d

/-- The fetch of a bound bank completes and the bank is validated; outside RUN it becomes LIVE at once (R205, R206). -/
def Dev.bankFetchDone (d : Dev) (p : Nat) : Dev :=
  match (d.path p).swap with
  | some s =>
    if !s.bound ∨ s.got.isSome then d else
    let a := bankAddr p s.bank
    let l := Memory.readWords d.mem a 128
    if d.badAt a 128 then
      let d := d.setPath p { d.path p with swap := none }
      match s.tag with
      | some _ => d.endSwap p s.tag (refusal sInternal 0x0302 (d.locOf 1 (p / 16)).toNat)
      | none => d.fault 0x0302 (p / 16) (d.locOf 1 (p / 16)) 0
    else
      let e := bankCheck (d.f (.dpdGrd p) 19 16) p l
      if e ≠ 0 then
        let d := (d.setPath p { d.path p with swap := none }).guardLock p 1 e
        match s.tag with
        | some _ => d.endSwap p s.tag (refusal sPrecondition 0x0307 (d.cellUnit p))
        | none => d.reportGuard p
      else if d.running then d.setPath p { d.path p with swap := some { s with got := some l } }
      else (d.makeLive p l).endSwap p s.tag (plain sOk)
  | none => d

/-- A trip acts at or before tick `t`: it drops a swap whose boundary lies there (R208). -/
def Dev.tripsBy (d : Dev) (p t : Nat) : Bool :=
  match (d.path p).trip with
  | some (u, _) => decide (u ≤ t)
  | none => false

/-- At the slot boundary the fetched bank becomes LIVE, or the swap is dropped as late (R205); one that a trip is to drop waits
for it (R208). -/
def Dev.dpdSwapRow (d : Dev) (p : Nat) : Dev :=
  match (d.path p).swap with
  | some s =>
    if !s.bound ∨ d.tripsBy p s.target then d else
    let d := d.goTo s.target
    match s.got with
    | some l => (d.makeLive p l).endSwap p s.tag (plain sOk)
    | none =>
      let d := d.setPath p { d.path p with swap := none }
      match s.tag with
      | some _ => d.endSwap p s.tag (refusal sLate 0x0304 (d.cellUnit p))
      | none => d.fault 0x0304 (p / 16) (d.locOf 3 p) 0
  | none => d

/-! ## Guards (R207–R209) -/

/-- The end of the next guard interval of a path that is not yet judged. -/
def Dev.guardEnd (d : Dev) (p : Nat) : Nat := d.alignUp 4096 (max d.now ((d.path p).judgedTo + 1))

/-- What an interval measured (R207): sums of |u|² and |z|² over its 4,096 ticks, saturated ticks of z, and whether all 256
path blocks carry code 0b00 or 0b01. -/
structure GuardMeas where
  pu : Nat
  pz : Nat
  clip : Nat
  coded : Bool

def Dev.guardMeas (d : Dev) (p endAt : Nat) : GuardMeas :=
  let ts := (List.range 4096).map fun i => endAt - 4096 + i
  { pu := ts.foldl (fun n t => n + mag2 (d.pathU p t)) 0
    pz := ts.foldl (fun n t => n + mag2 (d.pathZ p t)) 0
    clip := (ts.filter fun t => decide (d.pathZraw p t ≠ d.pathZ p t)).length
    coded := (List.range 256).all fun i => decide (d.zCode p (endAt - 4096 + 16 * i) ≤ 1) }

/-- One of some ticks lies in the interval that ends at `endAt`. -/
def acts (l : List Nat) (endAt : Nat) : Bool := l.any fun t => decide (endAt ≤ t + 4096) && decide (t < endAt)

/-- The guards of a path run, and a whole interval in ON has ended in which nothing changed (R207). -/
def Dev.judged (d : Dev) (p endAt : Nat) : Bool :=
  d.fb (.dpdGrd p) 31 && decide (d.effMode p (endAt - 1) ≠ 0) &&
  (List.range 4096).all (fun i => d.onAt p (endAt - 4096 + i)) &&
  !acts (d.path p).chgs endAt && !acts (d.path p).grds endAt && decide (d.tb.t0 + 4096 ≤ endAt)

/-- The cause of a trip: EXPAND when the mean power of z exceeds that of u by more than EXP_MAX × 0.25 dB, else CLIP; 0 for none.
Nothing is judged below −40 dBFS, or with a block of code 0b10 or 0b11. -/
def guardCause (m : GuardMeas) (expMax clipMax : Nat) : Nat :=
  if !m.coded ∨ m.pu * 10000 < 4096 * 2 ^ 30 then 0
  else if m.pu ^ 40 * 10 ^ expMax < m.pz ^ 40 then 2 else if clipMax < m.clip then 3 else 0

/-- The end of an interval: a trip is noted for 256 ticks later (R207, R208). -/
def Dev.guardJudge (d : Dev) (p : Nat) : Dev :=
  if d.running ∧ d.fb (.dpdGrd p) 31 ∧ (d.path p).eff ≠ 0 then
    let e := d.guardEnd p
    let d := d.goTo e
    let d := d.setPath p { d.path p with judgedTo := e }
    if d.judged p e then
      let k := guardCause (d.guardMeas p e) (d.f (.dpdGrd p) 5 0) (d.f (.dpdGrd p) 15 8)
      if k = 0 then d else d.setPath p { d.path p with trip := some (e + 256, k) }
    else d
  else d

/-- A trip acts: the path falls back one store, enters the lock, drops a pending swap and a bound one whose boundary lies at or
after this tick, and reports. From IDENTITY the stores do not change (R208). -/
def Dev.guardFallback (d : Dev) (p : Nat) : Dev :=
  match (d.path p).trip with
  | some (t, k) =>
    let d := d.goTo t
    let x := d.path p
    let drop := match x.swap with
      | some s => !s.bound || decide (t ≤ s.target)
      | none => false
    let y := if x.store = 0 then { x with live := x.prev, store := 1, lives := d.formerLives p }.changed d.now d.now
             else if x.store = 1 then { x with live := none, store := 2, lives := d.formerLives p }.changed d.now d.now else x
    let d := (d.setPath p { y with trip := none, swap := if drop then none else x.swap }).guardLock p k 0
    let d := match x.swap with
      | some s => if drop then d.endSwap p s.tag (refusal sAborted 0x0307 (d.cellUnit p)) else d
      | none => d
    d.reportGuard p
  | none => d

/-- DPD.CLEAR ends the lock (R209). -/
def Dev.dpdClear (d : Dev) (p : Nat) : Dev := d.setPath p { d.path p with lock := false, gkind := 0, bankErr := 0 }

/-! ## Captures: start, contents, end (R212–R214) -/

/-- The sequence number of the live bank of a path, and of the bank that was live at tick `t`. -/
def Dev.liveSeq (d : Dev) (p : Nat) : Nat := ((d.path p).live.map bankSeq).getD 0
def Dev.seqAt (d : Dev) (p t : Nat) : Nat := ((d.bankBy p t).map bankSeq).getD 0

/-- A granted capture finds the window gone at the tick at which it was to start: its job goes back to the queue, where it waits
for the next window, so that it holds the ORX no longer than its switch (R16, R212; DESIGN CHOICE, log entry 30). -/
def Dev.capGiveBack (d : Dev) (b s : Nat) : Dev :=
  match (d.slot b s).cap, (d.block b).orxJob with
  | some c, some j =>
    if j.who = .capture s then
      let d := d.goTo (d.capT0 c.w0 c.granted)
      let d := d.setSlot b s { d.slot b s with cap := some { c with granted := none } }
      let d := d.orxEnqueue b j
      if (d.block b).stop then d.orxRelease b else d.setBlock b (d.block b).orxFree
    else d
  | _, _ => d

/-- At T0 a capture starts sampling (R212). -/
def Dev.capStart (d : Dev) (b s : Nat) : Dev :=
  match (d.slot b s).cap with
  | some c =>
    let p := capPath b c.w0
    let granted := !capOrx c.w0 || c.granted.isSome
    let t := if capTrig c.w0 then c.t else d.capT0 c.w0 c.granted
    if c.t0.isSome ∨ !granted then d
    else if !capTrig c.w0 ∧ c.goAt + Config.windowWait < t then d
    else if !capTrig c.w0 ∧ !d.onWith p t (capL c.w0) then (if capOrx c.w0 then d.capGiveBack b s else d)
    else
      let d := d.goTo t
      d.setSlot b s { d.slot b s with cap := some { c with t0 := some t } }
  | none => d

/-- The paths whose signals a capture records. -/
def capPaths (b : Nat) (w : Word) : List Nat := (bitList 4 (capMask w)).map fun i => 4 * b + i

/-- The 16 code words of one position (Table 8.3). -/
def Dev.capCodes (d : Dev) (b : Nat) (w : Word) (t0 i : Nat) : List Word :=
  let p := 4 * b + i
  let on := nbit (capMask w) i || (capOrx w && decide (capPath b w = p))
  (List.range 64).map fun n =>
    if on then mkw ((List.range 16).foldl (fun a j =>
      let t := t0 + 16 * (16 * n + j)
      if 16 * (16 * n + j) < capL w then a + d.zCode p t * 2 ^ (2 * j) else a) 0)
    else 0

/-- The signal that REF selects, with the settings of its tick (R55). -/
def Dev.refSignal (d : Dev) (ref p t : Nat) : Word :=
  let v := match ref with
    | 1 => d.pathZ p t
    | 2 => d.pathU p t
    | _ => d.pathV p t
  mkCx v.1 v.2

/-- The 2L samples of the ORX from T0 after its correction: code in bits 15:4 of I and Q (R141, R219). -/
def Dev.orxSamples (d : Dev) (b t0 l : Nat) : List Word :=
  (List.range (2 * l)).map fun i =>
    let v := d.calApplied (.orx (Fin.ofNat 16 b)) 0 (t0 + i / 2)
    let s := if v.isEmpty then Config.orxSample b (2 * t0 + i) else Config.orxCorrected b (2 * t0 + i) v
    mkw (s.1.toNat / 16 * 16 + s.2.toNat / 16 * 16 * 65536)

/-- The words of a complete capture (Table 8.3). -/
def Dev.capImage (d : Dev) (b : Nat) (c : Cap) (t0 : Nat) : List Word :=
  let ts := (d.tsAt t0).toNat
  let w := c.w0
  [mkw ts, mkw (ts / 2 ^ 32),
   mkw (capL w + capSrc w * 2 ^ 16 + b2n (capOrx w) * 2 ^ 19 + capRef w * 2 ^ 20 + capMask w * 2 ^ 24),
   mkw (d.seqAt (capPath b w) t0 * 2 ^ 16 + 2 * b2n c.chg + b2n c.ovr), 0, 0, 0, 0] ++
  (List.range 4).flatMap (d.capCodes b w t0) ++
  (if capOrx w then d.orxSamples b t0 (capL w) else []) ++
  (capPaths b w).flatMap fun p => (List.range (capL w)).map fun i => d.refSignal (capRef w) p (t0 + i)

/-- The capture's job still holds the ORX. -/
def Dev.capHolds (d : Dev) (b s : Nat) : Bool :=
  match (d.block b).orxJob with
  | some j => j.who == .capture s
  | none => false

/-- The LIVE store, STORE or effective mode of a recorded path changed during the capture (Table 8.3): a change at T0 itself comes
before the first sample, one at the tick after the last comes after it. -/
def Dev.capChanged (d : Dev) (b : Nat) (c : Cap) (t0 : Nat) : Bool :=
  (capPaths b c.w0 ++ (if capOrx c.w0 then [capPath b c.w0] else [])).any fun p =>
    (d.path p).chgs.any fun t => decide (t0 < t) && decide (t < t0 + capL c.w0)

/-- A capture completes: its regions read DONE, its slot shows the result, and CAPTURE_DONE fires (R213, R214). -/
def Dev.capDone (d : Dev) (b s : Nat) : Dev :=
  match (d.slot b s).cap with
  | some c =>
    (match c.t0 with
     | some t0 =>
       if d.capHolds b s then d else
       let d := d.goTo (t0 + capL c.w0)
       let c := { c with chg := d.capChanged b c t0 }
       let d := d.storeWords (capBase b + 0x4000 * c.first) (d.capImage b c t0)
       let d := d.setRegions b c.first c.count 2
       let d := d.setSlot b s { result := 0, status := 0, region := c.first, cap := none }
       let d := d.event (112 + b) (d.locOf 2 b) (256 * s + c.first)
       d.slotReply b s (okWords [mkw c.first, mkw (capBase b + 0x4000 * c.first)])
     | none => d)
  | none => d

end Sys2Proof.Machine
end

