-- ==== Sys2Proof/Machine/Calib.lean ====
section
/-! DEFINITION. The calibration engines: steps in gaps, runs on request, background updates, temperature sets, images
(R219–R240). -/

namespace Sys2Proof.Machine

/-! ## The applied values (R235) -/

/-- The first path-block boundary at or after `t`; outside RUN `t` itself. -/
def Dev.pathBlockFrom (d : Dev) (t : Nat) : Nat := if d.running then d.alignUp 16 t else t

/-- Change the store or the temperature: the applied values follow at the next path-block boundary (R235). -/
def Dev.calChange (d : Dev) (q : Nat) (store : List CalRec) (temp : Int) (tvalid : Bool) : Dev :=
  let x := d.calq q
  let cur := decide (x.useFrom ≤ d.now)
  d.setCalq q { x with
    store := store, temp := temp, tvalid := tvalid
    oldStore := if cur then x.store else x.oldStore
    oldTemp := if cur then x.temp else x.oldTemp
    useFrom := d.pathBlockFrom (d.now + 1) }

/-- The calibration temperature after a housekeeping round (R232). With no valid sensor it is a free value, and invalid. -/
def Dev.calTemp (d : Dev) (q : Nat) : Dev :=
  let pick (l : List Nat) : List Int := (l.filter fun i => (d.sensor i).valid).map fun i => (d.sensor i).temp
  let own := pick ((List.range 5).map fun i => 5 * q + i)
  let l := if own.isEmpty then pick [20, 21, 22, 23] else own
  let x := d.calq q
  if l.isEmpty then (d.calChange q x.store (sx 16 d.free.toNat) false).used
  else d.calChange q x.store (rndDiv (l.foldl (· + ·) 0) l.length) true

/-! ## Placement (R223) -/

/-- Ticks from `S` that a cell step needs free of windows. -/
def calNeeds (k : Nat) : Nat := calTicks k + Config.cellGuard

/-- The gap condition of a step at `s`; an ORXC step needs no gap. -/
def Dev.calGap (d : Dev) (u : CalUnit) (k s : Nat) : Bool :=
  match (calPath u) with
  | some p => d.gapIn p s (s + calNeeds k)
  | none => true

/-- Another step of the block runs at some tick from `s` to the step's end. -/
def Cal.overlaps (x : Cal) (b s k : Nat) : Bool :=
  x.steps.any fun y => (calBlock y.unit) == b && decide (y.start < s + calTicks k) && decide (s < y.start + calTicks y.kind)

/-- Ends of active intervals of a cell in the frame after `t`. -/
def Dev.activeEnds (d : Dev) (c t : Nat) : List Nat :=
  let tc := d.tableCell c
  let p := d.winPeriod tc
  let tab := if p = 0 then [] else
    (d.winList tc).flatMap fun w =>
      (List.range (Config.frameTicks / p + 2)).map fun i =>
        d.tb.t0 + ((t - d.tb.t0) / p + i) * p + w.1 + w.2 + d.lagOf c
  let cur := match (if c < 64 then (d.tx c).cur else (d.rx (c - 64)).cur) with
    | some w => [w.activeEnd]
    | none => []
  tab ++ cur ++ (d.bursts tc).map fun b => b.start + b.len + d.lagOf c

/-- The earliest start of a step at or after `low` (R223): the bound itself, or the end of something that blocked it. -/
def Dev.calEarliest (d : Dev) (q : Nat) (u : CalUnit) (k low : Nat) : Option Nat :=
  let x := d.calq q
  let ends := (x.steps.filter fun y => (calBlock y.unit) == (calBlock u)).map fun y => y.start + calTicks y.kind
  let wins := match (calPath u) with
    | some p => d.activeEnds p low ++ d.activeEnds (64 + p) low
    | none => []
  (low :: (ends ++ wins)).foldl (fun best t =>
    let s := d.alignUp 16 (max low t)
    if d.calGap u k s && !x.overlaps (calBlock u) s k then
      (match best with
       | some b => some (min b s)
       | none => some s)
    else best) none

/-- The steps of a task that are placed or running. -/
def Cal.stepsOf (x : Cal) (u : CalUnit) (k : Nat) (bg : Bool) : List CalStep :=
  x.steps.filter fun y => y.unit == u && y.kind == k && y.bg == bg

/-- How many steps of a task have passed, are placed or run. -/
def Cal.taken (x : Cal) (t : CalTask) (bg : Bool) : Nat := t.done + (x.stepsOf t.unit t.kind bg).length

/-- The latest end of some steps, or `low`. -/
def lastEndOf (l : List CalStep) (low : Nat) : Nat := l.foldl (fun a y => max a (y.start + calTicks y.kind)) low

/-- The next step of each unit of a run (R221): kinds in order, transmit kinds after the ORXC of their block. -/
def Cal.runNext (x : Cal) (r : CalRun) : List CalTask :=
  r.units.filterMap fun u =>
    match r.todo.find? fun t => t.unit == u && decide (x.taken t false < calSteps t.kind) with
    | some t =>
      if 4 ≤ t.kind ∧ r.todo.any (fun o => o.kind == 0 && (calBlock o.unit) == (calBlock u) && decide (x.taken o false < 1))
      then none else some t
    | none => none

/-- Background updates in ascending unit index and kind (R229). -/
def bgBefore (a b : BgUpd) : Bool :=
  decide ((calIndex a.task.unit) < (calIndex b.task.unit)) ||
    ((calIndex a.task.unit) == (calIndex b.task.unit) && decide (a.task.kind < b.task.kind))

/-- Insert an update in that order. -/
def bgInsert (a : BgUpd) : List BgUpd → List BgUpd
  | [] => [a]
  | x :: xs => if bgBefore a x then a :: x :: xs else x :: bgInsert a xs

/-- The next step of each background update that may be placed now (R230). -/
def Dev.bgNext (d : Dev) (q : Nat) : List CalTask :=
  let x := d.calq q
  if x.run.isSome ∨ x.imp.isSome ∨ !x.inWindow then [] else
  (x.bg.filter fun u => u.got.isNone && decide (x.taken u.task true < calSteps u.task.kind) &&
    d.calReady u.task.unit && (!calOrx u.task.kind || (d.block (calBlock u.task.unit)).orx == .idle)).map fun u => u.task

/-- The step that is placed next, with its start. -/
def Dev.calChoice (d : Dev) (q : Nat) : Option CalStep :=
  let x := d.calq q
  let step (bg : Bool) (t : CalTask) : Option CalStep :=
    let before := if bg then x.stepsOf t.unit t.kind true
      else x.steps.filter fun y => !y.bg && (y.unit == t.unit ||
        (decide (4 ≤ t.kind) && y.kind == 0 && (calBlock y.unit) == (calBlock t.unit)))
    (d.calEarliest q t.unit t.kind (lastEndOf before (d.now + 2048))).map fun s =>
      { unit := t.unit, kind := t.kind, idx := x.taken t bg, start := s, bg := bg }
  match x.run with
  | some r => (x.runNext r).findSome? (step false)
  | none => (d.bgNext q).findSome? (step true)

/-- The engine places a due step at the earliest tick (R223). -/
def Dev.stepPlacement (d : Dev) (q : Nat) : Dev :=
  match d.calChoice q with
  | some y => d.setCalq q { d.calq q with steps := (d.calq q).steps ++ [y] }
  | none => d

/-! ## Withdrawing and ending steps -/

/-- The ORX request of a step leaves the block: from the queue, or from the ORX, which is then free or powers down (R144). -/
def Dev.calDropJob (d : Dev) (y : CalStep) : Dev :=
  let b := (calBlock y.unit)
  let x := d.block b
  let who := OrxWho.cal y.unit y.start
  let held := match x.orxJob with
    | some j => j.who == who
    | none => false
  let d := d.setBlock b { x with orxQ := x.orxQ.filter fun j => j.who != who }
  if held then d.orxRelease b else d

/-- A step returns its cell to the data path (R13). -/
def Dev.calRelease (d : Dev) (u : CalUnit) : Dev :=
  match u with
  | .orx _ => d
  | .cell i =>
    if i.val < 64 then
      let x := d.tx i.val
      if x.held then
        d.setTx i.val { x with held := false, dac := if d.dacSoon i.val d.now then .powered else .off }
      else d
    else
      let p := i.val - 64
      let x := d.rx p
      if x.held then
        if d.keep (d.tableCell i.val) ∨ d.rxSoon p d.now then
          d.setRx p { x with held := false, adc := .run, runFrom := some d.now }
        else d.setRx p { x with held := false, adc := .off, runFrom := none, ovr := false, nbr := false }
      else d

/-- A step holds its cell: the converter pair is powered for it (R138, R140). A pair that was converting goes on recovering from
an over-range that it or a neighbour has met (R133). -/
def Dev.calHold (d : Dev) (u : CalUnit) : Dev :=
  match u with
  | .orx _ => d
  | .cell i =>
    if i.val < 64 then d.setTx i.val { d.tx i.val with held := true, dac := .powered }
    else
      let p := i.val - 64
      let o := d.rx p
      let d := d.adcOff p
      (d.setRx p { d.rx p with held := true, adc := .cal, ovr := o.ovr, nbr := o.nbr }).joinTail p

/-- Steps that cannot stand without step `y`: later steps of its task, of its unit in a run, and transmit steps after an
ORXC. -/
def dependsOn (y z : CalStep) : Bool :=
  z.bg == y.bg && decide (y.start ≤ z.start) &&
  (if y.bg then z.unit == y.unit && z.kind == y.kind
   else z.unit == y.unit || (y.kind == 0 && decide (4 ≤ z.kind) && (calBlock z.unit) == (calBlock y.unit)))

/-- Take some steps away: running ones return their cells, ORX requests are dropped. -/
def Dev.calTake (d : Dev) (q : Nat) (p : CalStep → Bool) : Dev :=
  let gone := (d.calq q).steps.filter p
  let d := d.setCalq q { d.calq q with steps := (d.calq q).steps.filter fun y => !p y }
  gone.foldl (fun d y =>
    let d := if y.running then d.calRelease y.unit else d
    if y.asked then d.calDropJob y else d) d

/-- A step is withdrawn, revoked or not run: it is placed again (R224). -/
def Dev.calUnplace (d : Dev) (q : Nat) (y : CalStep) : Dev := d.calTake q (fun z => z == y || dependsOn y z)

/-- A background update ends; it is next due PERIOD ms later (R229). -/
def Dev.bgEnd (d : Dev) (q : Nat) (u : CalUnit) (k : Nat) : Dev :=
  let d := d.calTake q fun y => y.bg && y.unit == u && y.kind == k
  let x := d.calq q
  d.setCalq q { x with bg := x.bg.filter fun b => !(b.task.unit == u && b.task.kind == k)
                       ended := (x.ended.filter fun e => !(e.1 == u && e.2.1 == k)) ++ [(u, k, d.now)] }

/-- Abandon every background update that satisfies `p` (R230). -/
def Dev.bgAbandon (d : Dev) (q : Nat) (p : CalTask → Bool) : Dev :=
  ((d.calq q).bg.filter fun b => p b.task).foldl (fun d b => d.bgEnd q b.task.unit b.task.kind) d

/-- A run ends at once and stores nothing (R226, R228). -/
def Dev.runEnd (d : Dev) (q : Nat) (r : Res) : Dev :=
  match (d.calq q).run with
  | some x =>
    let d := d.calTake q fun y => !y.bg
    let d := d.setCalq q { d.calq q with run := none }
    d.finishPart x.tag x.part r
  | none => d

/-- CAL_FAIL with its detail and unit. -/
def Dev.runFail (d : Dev) (q detail : Nat) (u : CalUnit) : Dev :=
  d.runEnd q (refusal sCalFail detail (d.calLoc u).toNat)

/-- TEMP_RANGE of a quadrant (Table 9.3). -/
def Dev.tempRefusal (d : Dev) (q : Nat) : Res :=
  refusal sTempRange (if (d.calq q).tvalid then 0x0921 else 0x0922) (d.locOf 1 q).toNat

/-- The synthesiser of a unit has left READY (DETAIL 0x0911): the run ends, background updates are abandoned. -/
def Dev.calWatch (d : Dev) (q : Nat) : Dev :=
  let d := match (d.calq q).run with
    | some r => (match r.units.find? fun u => !d.calReady u with
      | some u => d.runFail q 0x0911 u
      | none => d)
    | none => d
  d.bgAbandon q fun t => !d.calReady t.unit

/-- A commit changed LO_SEL of a cell, or FREQ or EN of its synthesiser (DETAIL 0x0912): `p` names the cells. -/
def Dev.calRetuned (d : Dev) (q : Nat) (p : Nat → Bool) : Dev :=
  let hit (u : CalUnit) : Bool := match u with
    | .cell i => p i.val
    | .orx _ => false
  let d := match (d.calq q).run with
    | some r => (match r.units.find? hit with
      | some u => d.runFail q 0x0912 u
      | none => d)
    | none => d
  d.bgAbandon q fun t => hit t.unit

/-- A task uses the ORX of block `b`. -/
def CalTask.usesOrx (t : CalTask) (b : Nat) : Bool := calOrx t.kind && (calBlock t.unit) == b

/-- A commit set EN = 0 on the ORX of block `b` (DETAIL 0x0913). -/
def Dev.calOrxOff (d : Dev) (b : Nat) : Dev :=
  let q := b / 4
  let d := match (d.calq q).run with
    | some r =>
      if (r.todo.any fun t => t.usesOrx b) || (r.vals.any fun v => calOrx v.kind && calBlock v.unit == b) then
        d.runEnd q (refusal sCalFail 0x0913 (d.locOf 2 b).toNat)
      else d
    | none => d
  d.bgAbandon q fun t => t.usesOrx b

/-- A commit or a burst may have shortened gaps: a running step whose end and guard no longer fit is revoked (R14), a
placed one withdrawn (R224). A revocation abandons a background update (R230). -/
def Dev.calRecheck (d : Dev) (q : Nat) : Dev :=
  let bad := (d.calq q).steps.filter fun y =>
    match (calPath y.unit) with
    | some p => !d.gapIn p (if y.running then d.now else y.start) (y.start + calNeeds y.kind)
    | none => false
  bad.foldl (fun d y =>
    if !(d.calq q).steps.contains y then d
    else if y.bg ∧ y.running then d.bgEnd q y.unit y.kind else d.calUnplace q y) d

/-! ## The rows of a step (R13, R224) -/

/-- The first step of a unit that satisfies `p`, by start. -/
def Cal.firstStep (x : Cal) (u : CalUnit) (p : CalStep → Bool) : Option CalStep :=
  (x.steps.filter fun y => y.unit == u && p y).foldl (fun a y =>
    match a with
    | some z => if y.start < z.start then some y else some z
    | none => some y) none

/-- Change one step. -/
def Dev.updStep (d : Dev) (q : Nat) (y : CalStep) (f : CalStep → CalStep) : Dev :=
  d.setCalq q { d.calq q with steps := (d.calq q).steps.map fun z => if z = y then f z else z }

/-- The ORX source and rotation position of a step's job; an ORXC names neither: free values. -/
def Dev.calSrc (d : Dev) (u : CalUnit) : Nat × Nat :=
  match u with
  | .cell i => (4 + i.val % 4, i.val % 4)
  | .orx _ => (d.free.toNat % 8, d.free.toNat / 8 % 4)

/-- At S − 2,048 the class-1 ORX job of a step is requested (R224). -/
def Dev.calOrxRequest (d : Dev) (u : CalUnit) : Dev :=
  let q := (calQuad u)
  match (d.calq q).firstStep u fun y => calOrx y.kind && !y.asked && !y.running with
  | some y =>
    let d := d.goTo (y.start - 2048)
    let d := d.updStep q y fun z => { z with asked := true }
    if (d.block (calBlock u)).orx = .off then d else
    let sp := d.calSrc u
    (d.orxEnqueue (calBlock u) { who := .cal u y.start, cls := 1, pos := sp.2, src := sp.1, since := d.now }).used
  | none => d

/-- The ORX job of the step of a unit at `s` was granted by S − 394. -/
def Dev.calGranted (d : Dev) (u : CalUnit) (s : Nat) : Bool :=
  let x := d.block (calBlock u)
  match x.orxJob with
  | some j => j.who == OrxWho.cal u s && decide (x.orxAt + Config.orxSwitch ≤ s)
  | none => false

/-- At S a step takes its cell, or does not run and is placed again (R13, R224, R233). A step that follows another of its unit
without pause starts when that one has ended. -/
def Dev.stepStart (d : Dev) (u : CalUnit) : Dev :=
  let q := (calQuad u)
  if (d.calq q).steps.any fun y => y.unit == u && y.running then d else
  match (d.calq q).firstStep u fun y => !y.running with
  | some y =>
    let d := d.goTo y.start
    if !(d.calq q).inWindow then
      (if y.bg then d.bgEnd q u y.kind else d.runEnd q (d.tempRefusal q))
    else if !d.calGap u y.kind d.now ∨ (calOrx y.kind ∧ !d.calGranted u y.start) ∨ !d.calReady u then
      d.calUnplace q y
    else (d.updStep q y fun z => { z with running := true }).calHold u
  | none => d

/-- A failed update: CAL_BG fires (R231). -/
def Dev.bgReport (d : Dev) (q : Nat) (u : CalUnit) (k detail : Nat) : Dev :=
  d.event (96 + q) (d.calLoc u) (256 * k + detail % 256)

/-- A list of `n` words. -/
def takeWords (n : Nat) (l : List Word) : List Word := (l ++ List.replicate n 0).take n

/-- A step has passed: the task advances, and its last step gives the value. -/
def Dev.stepPassed (d : Dev) (q : Nat) (y : CalStep) (vals : List Word) : Dev :=
  let x := d.calq q
  let v : CalVal := { unit := y.unit, kind := y.kind, freq := d.calFreq y.unit, temp := x.temp,
                      vals := takeWords (calWords y.kind) vals }
  let fin := decide (y.idx + 1 = calSteps y.kind)
  if y.bg then
    d.setCalq q { x with bg := x.bg.map fun b =>
      if b.task.unit = y.unit ∧ b.task.kind = y.kind then
        { task := { b.task with done := y.idx + 1 }, got := if fin then some (v, d.now) else none }
      else b }
  else
    match x.run with
    | some r =>
      let todo := (r.todo.map fun t => if t.unit = y.unit ∧ t.kind = y.kind then { t with done := y.idx + 1 } else t)
      let todo := todo.filter fun t => decide (t.done < calSteps t.kind)
      d.setCalq q { x with run := some { r with
        todo := todo, vals := if fin then r.vals ++ [v] else r.vals,
        lastEnd := if todo.isEmpty then some d.now else none } }
    | none => d

/-- At the end of its duration a step returns its cell and gives its result (R221, R226, R231). -/
def Dev.stepEnd (d : Dev) (u : CalUnit) (r : StepResult) : Dev :=
  let q := (calQuad u)
  match (d.calq q).firstStep u fun y => y.running with
  | some y =>
    let d := d.goTo (y.start + calTicks y.kind)
    let d := d.calTake q fun z => z == y
    let detail := match r with
      | .overRange => 0x0914
      | .outOfRange => 0x0915
      | .passed _ => 0
    if detail = 0 then
      (match r with
       | .passed vals => d.stepPassed q y vals
       | _ => d)
    else if y.bg then (d.bgEnd q u y.kind).bgReport q u y.kind detail
    else d.runFail q detail u
  | none => d

/-- A conversion of a running step was over-range: its run ends at once with CAL_FAIL, and a background update fails
(R138, R145, R226, R231). -/
def Dev.calOverRange (d : Dev) (y : CalStep) : Dev :=
  let q := (calQuad y.unit)
  if y.bg then (d.bgEnd q y.unit y.kind).bgReport q y.unit y.kind 0x0914 else d.runFail q 0x0914 y.unit

/-- The ORX job of a step ends; it was over-range or not. -/
def Dev.calJobEnd (d : Dev) (u : CalUnit) (start : Nat) (ovr : Bool) : Dev :=
  match (d.calq (calQuad u)).steps.find? fun y => y.unit == u && y.start == start && y.running with
  | some y => if ovr then d.calOverRange y else d
  | none => d

/-- An over-range conversion of an ADC pair that a step holds is returned to that step, and reported by no cell (R138). -/
def Dev.calAdcOvr (d : Dev) (p : Nat) : Dev :=
  match (d.calq (p / 16)).steps.find? fun y => y.running && calIndex y.unit == 64 + p && !calOrx y.kind with
  | some y => if (d.rx p).adc = .cal then d.calOverRange y else d
  | none => d

/-! ## Storing, timeouts, updates (R227–R229) -/

/-- The tick at which values measured up to `t` are stored (R227). -/
def Dev.storeTick (d : Dev) (t : Nat) : Nat := if d.running then d.alignUp 16 (t + 2048) else t

/-- The next storing tick of a quadrant: of its run, or of a background update. -/
def Dev.calStoreAt (d : Dev) (q : Nat) : Option Nat :=
  let x := d.calq q
  let run := match x.run with
    | some r => r.lastEnd.map d.storeTick
    | none => none
  x.bg.foldl (fun a b => match b.got with
    | some g => minDue a (some (d.storeTick g.2))
    | none => a) run

/-- Store some values. -/
def Dev.calPut (d : Dev) (q : Nat) (l : List CalVal) : Dev :=
  d.calChange q (l.foldl storeVal (d.calq q).store) (d.calq q).temp (d.calq q).tvalid

/-- The storing tick: the run's values, and those of the updates whose tick it is (R227, R229). -/
def Dev.calStoreRow (d : Dev) (q : Nat) : Dev :=
  match d.calStoreAt q with
  | none => d
  | some t =>
    let d := d.goTo t
    let d := ((d.calq q).bg.filter fun b => match b.got with
        | some g => decide (d.storeTick g.2 ≤ d.now)
        | none => false).foldl (fun d b =>
      let d := if (d.calq q).inWindow then
          (match b.got with
           | some g => (d.calPut q [g.1]).bgReport q b.task.unit b.task.kind 0
           | none => d)
        else d
      d.bgEnd q b.task.unit b.task.kind) d
    match (d.calq q).run with
    | some r =>
      (match r.lastEnd with
       | some e =>
         if d.storeTick e ≤ d.now then
           (if (d.calq q).inWindow then (d.calPut q r.vals).runEnd q (plain sOk) else d.runEnd q (d.tempRefusal q))
         else d
       | none => d)
    | none => d

/-- A run that has not stored its values in time (R228). -/
def Dev.calTimeoutRow (d : Dev) (q : Nat) : Dev :=
  match (d.calq q).run with
  | some r => (d.goTo r.deadline).runEnd q (refusal sLate 0x0941 (d.locOf 1 q).toNat)
  | none => d

/-- A unit is eligible for background work (R222): an ORX always, a path when no enabled carrier is on request. -/
def Dev.calEligible (d : Dev) (u : CalUnit) : Bool :=
  match (calPath u) with
  | none => true
  | some p => (List.range 8).all fun k =>
      (!d.carrOn p k || nbit (d.f (.calClass p) 7 0) k) && (!d.carrOn (64 + p) k || nbit (d.f (.calClass p) 15 8) k)

/-- When the next update of a unit and kind falls due; none when background work does not cover it. -/
def Dev.bgDueAt (d : Dev) (u : CalUnit) (k : Nat) : Option Nat :=
  let q := (calQuad u)
  let x := d.calq q
  if d.fb (.calCtrl q) 31 && d.fb (.calCtrl q) k && (calKinds u).contains k && d.calEligible u &&
     !x.bg.any (fun b => b.task.unit == u && b.task.kind == k) then
    match x.ended.find? fun e => e.1 == u && e.2.1 == k with
    | some e => some (e.2.2 + ms (d.f (.calBgper q) 15 0))
    | none => some d.now
  else none

/-- A background update falls due and is in progress from then on (R229). -/
def Dev.bgDue (d : Dev) (u : CalUnit) (k : Nat) : Dev :=
  match d.bgDueAt u k with
  | some t =>
    let d := d.goTo t
    let q := (calQuad u)
    d.setCalq q { d.calq q with bg := bgInsert { task := { unit := u, kind := k } } (d.calq q).bg }
  | none => d

/-! ## Images (R236–R238) -/

/-- Records by kind and then by unit. -/
def recBefore (a b : CalRec) : Bool :=
  decide (a.kind < b.kind) || (a.kind == b.kind && decide ((calIndex a.unit) < (calIndex b.unit)))
def recInsert (a : CalRec) : List CalRec → List CalRec
  | [] => [a]
  | x :: xs => if recBefore a x then a :: x :: xs else x :: recInsert a xs

/-- The words of a record (Table 9.5). -/
def recWords (r : CalRec) : List Word :=
  mkw (r.kind * 0x10000000 + r.pts.length * 0x1000000 + (calIndex r.unit)) :: mkw r.freq ::
    r.pts.flatMap fun p => mkw (unsx 16 p.1) :: takeWords (calWords r.kind) p.2

/-- The image of a store, CHECK last (Tables 9.4 and 9.5). -/
def calImage (q : Nat) (store : List CalRec) (ts : BitVec 48) : List Word :=
  let recs := (store.filter fun r => !r.pts.isEmpty).foldl (fun l r => recInsert r l) []
  let body := recs.flatMap recWords
  let len := 7 + body.length
  let ws := [mkw (0xCA1E + 0x10000), mkw (0x6464 + 0x110000 + q * 0x1000000), mkw len, mkw recs.length,
             mkw (ts.toNat % 2 ^ 32), mkw (ts.toNat / 2 ^ 32)] ++ body
  ws ++ [mkw (crcOf 1 (wordsBytes ws))]

/-- The number of words of a record from its first word. -/
def recSize (w : Word) : Nat := 2 + (1 + calWords (fld w 31 28)) * fld w 27 24

/-- Walk `n` records; none when they leave the list. A reserved KIND has no size: the walk ends there. -/
def walkRecs : Nat → List Word → Option (List (List Word) × Bool)
  | 0, [] => some ([], true)
  | 0, _ => none
  | _, [] => none
  | n + 1, w :: ws =>
    if 7 ≤ fld w 31 28 then some ([[w]], false)
    else if (w :: ws).length < recSize w then none
    else match walkRecs n ((w :: ws).drop (recSize w)) with
      | some (l, b) => some ((w :: ws).take (recSize w) :: l, b)
      | none => none

/-- The unit of a record of quadrant `q`, if its UNIT suits its KIND. -/
def recUnit (q : Nat) (w : Word) : Option CalUnit :=
  let k := fld w 31 28
  let i := fld w 9 0
  if h : i < 128 then
    if k = 0 then (if hb : i < 16 then (if i / 4 = q then some (.orx ⟨i, hb⟩) else none) else none)
    else if k ≤ 6 ∧ i % 64 / 16 = q ∧ (64 ≤ i ↔ k ≤ 3) then some (.cell ⟨i, h⟩)
    else none
  else none

/-- The points of a record. -/
def recPts (vw : Nat) : Nat → List Word → List (Int × List Word)
  | 0, _ => []
  | n + 1, l => (sx 16 (fld (takeWords 1 l).head! 15 0), (l.drop 1).take vw) :: recPts vw n (l.drop (1 + vw))

/-- Points strictly ascending and more than 16 codes apart. -/
def ptsApart : List (Int × List Word) → Bool
  | p :: q :: rest => decide (p.1 + 16 < q.1) && ptsApart (q :: rest)
  | _ => true

/-- Read one record. -/
def readRec (q : Nat) (l : List Word) : Option CalRec :=
  match l with
  | w :: f :: rest =>
    (match recUnit q w with
     | some u =>
       let k := fld w 31 28
       let n := fld w 27 24
       let freq := fld f 23 0
       let pts := recPts (calWords k) n rest
       if 1 ≤ n ∧ n ≤ 8 ∧ ptsApart pts ∧ (k = 0 ∨ (410000 ≤ freq ∧ freq ≤ 15350000)) then
         some { kind := k, unit := u, freq := if k = 0 then 0 else freq, pts := pts }
       else none
     | none => none)
  | _ => none

/-- Read all records, refusing two for the same unit and kind. -/
def readRecs (q : Nat) : List (List Word) → Option (List CalRec)
  | [] => some []
  | l :: ls => match readRec q l, readRecs q ls with
    | some r, some rs => if rs.any fun x => x.isOf r.unit r.kind then none else some (r :: rs)
    | _, _ => none

/-- The checks of an image in their order (R238): the records, or the DETAIL of the first failure. -/
def readImage (q len : Nat) (ws : List Word) : Except Nat (List CalRec) :=
  let g (i : Nat) : Word := wordAt ws i
  if len % 4 ≠ 0 ∨ ws.length < 7 ∨ (g 2).toNat ≠ ws.length then .error 0x0902
  else match walkRecs (fld (g 3) 15 0) ((ws.drop 6).take (ws.length - 7)) with
  | none => .error 0x0902
  | some (recs, whole) =>
    if fld (g 0) 15 0 ≠ 0xCA1E ∨ fld (g 0) 23 16 ≠ 1 ∨ fld (g 1) 15 0 ≠ 0x6464 ∨ fld (g 1) 23 16 ≠ 0x11 ∨
       fld (g 1) 25 24 ≠ q then .error 0x0903
    else if (g (ws.length - 1)).toNat ≠ crcOf 1 (wordsBytes (ws.take (ws.length - 1))) then .error 0x0901
    else if !whole then .error 0x0904
    else match readRecs q recs with
      | some l => .ok l
      | none => .error 0x0904

/-- A range of words inside one shared memory: of the chip or of a quadrant (R241). -/
def sharedRange (a bytes : Nat) : Bool :=
  (decide (0x800000 ≤ a) && decide (a + bytes ≤ 0x1000000)) ||
  (List.range 4).any fun q => decide (quadMem q ≤ a) && decide (a + bytes ≤ quadMem q + 0x300000)

/-- An uncorrectable error met by a command: INTERNAL with the cause of the memory's level (R34, Table 1.8). -/
def Dev.memInternal (d : Dev) (a : Nat) : Res :=
  if a < 0x1000000 then refusal sInternal 0x0404 (d.locOf 0 0).toNat
  else refusal sInternal 0x0302 (d.locOf 1 (a / 0x1000000 - 1)).toNat

/-- The snapshot of an export is written and its length returned; RESOURCE when it exceeds MAXLEN (R236). -/
def Dev.calExportRow (d : Dev) (q : Nat) : Dev :=
  match (d.calq q).exp with
  | [] => d
  | e :: rest =>
    let d := d.goTo e.at_
    let img := calImage q (d.calq q).store d.ts
    let d := d.setCalq q { d.calq q with exp := rest }
    if e.maxLen < 4 * img.length then d.finishPart e.tag e.part (plain sResource)
    else (d.storeWords e.addr img).finishPart e.tag e.part (okWords [mkw (4 * img.length)])

/-- An accepted image replaces the store (R238). -/
def Dev.calImportRow (d : Dev) (q : Nat) : Dev :=
  match (d.calq q).imp with
  | some i =>
    let d := d.goTo i.at_
    let d := d.calChange q i.recs (d.calq q).temp (d.calq q).tvalid
    (d.setCalq q { d.calq q with imp := none }).finishPart i.tag i.part (plain sOk)
  | none => d

/-- CAL.CLEAR drops the points of the named kinds (R241). -/
def Dev.calClearRow (d : Dev) (q : Nat) : Dev :=
  match (d.calq q).clr with
  | [] => d
  | c :: rest =>
    let d := d.goTo c.at_
    let x := d.calq q
    let d := d.calChange q (x.store.filter fun r => !(c.units.contains r.unit && nbit c.kinds r.kind)) x.temp x.tvalid
    (d.setCalq q { d.calq q with clr := rest }).finishPart c.tag c.part (plain sOk)

/-! ## The commands of a quadrant -/

/-- A run or an import is in progress. -/
def Cal.busy (x : Cal) : Bool := x.run.isSome || x.imp.isSome

/-- The tasks of a run: every kind of `kinds` on every unit that it applies to. -/
def calTasks (kinds : Nat) (units : List CalUnit) : List CalTask :=
  units.flatMap fun u => ((calKinds u).filter fun k => nbit kinds k).map fun k => { unit := u, kind := k }

/-- The checks of CAL.RUN (R225): every target cell needs its synthesiser, whatever kinds are named. -/
def Dev.calRunCheck (d : Dev) (q : Nat) (units : List CalUnit) (todo : List CalTask) : Option Res :=
  let x := d.calq q
  if x.busy then some (plain sBusy)
  else if !x.inWindow then some (d.tempRefusal q)
  else match units.find? fun u => !d.calReady u with
  | some u => some (refusal sPrecondition 0x0931 (d.calLoc u).toNat)
  | none =>
    match todo.find? fun t => calOrx t.kind && (d.block (calBlock t.unit)).orx == .off with
    | some t => some (refusal sPrecondition 0x0932 (d.locOf 2 (calBlock t.unit)).toNat)
    | none => none

/-- A run starts: background updates are abandoned (R225, R230). -/
def Dev.calRunGo (d : Dev) (q : Nat) (tag : BitVec 8) (part kinds timeout : Nat) (units : List CalUnit) : Dev :=
  let todo := calTasks kinds units
  match d.calRunCheck q units todo with
  | some r => d.finishPart tag part r
  | none =>
    let d := (d.note tag sAccepted).bgAbandon q fun _ => true
    d.setCalq q { d.calq q with run := some {
      tag := tag, part := part, units := units.filter fun u => todo.any fun t => t.unit == u, todo := todo,
      deadline := d.now + ms timeout } }

/-- The refusals of CAL.EXPORT and CAL.IMPORT by address (R236). -/
def calAddrBad (a len : Nat) : Bool := a % 4 != 0 || !sharedRange a len

/-- The first path-block boundary after now; outside RUN now. -/
def Dev.calActAt (d : Dev) : Nat := if d.running then d.pathBlockFrom (d.now + 1) else d.now

/-- CAL.EXPORT on its quadrant; outside RUN the snapshot is taken at once. -/
def Dev.calExportGo (d : Dev) (q : Nat) (tag : BitVec 8) (part addr maxLen : Nat) : Dev :=
  if (d.calq q).busy then d.finishPart tag part (plain sBusy)
  else
    let d := d.setCalq q { d.calq q with exp := (d.calq q).exp ++ [{
      tag := tag, part := part, addr := addr, maxLen := maxLen, at_ := d.calActAt }] }
    if d.running then d else d.calExportRow q

/-- CAL.IMPORT on its quadrant (R238). -/
def Dev.calImportGo (d : Dev) (q : Nat) (tag : BitVec 8) (part addr len : Nat) : Dev :=
  let n := len / 4
  if (d.calq q).busy then d.finishPart tag part (plain sBusy)
  else if calAddrBad addr len then d.finishPart tag part (badWord 0)
  else if !(d.calq q).inWindow then d.finishPart tag part (d.tempRefusal q)
  else if d.badAt addr n then d.finishPart tag part (d.memInternal addr)
  else match readImage q len (Memory.readWords d.mem addr n) with
  | .error e => d.finishPart tag part (refusal sCalFail e (d.locOf 1 q).toNat)
  | .ok recs =>
    let d := d.bgAbandon q fun _ => true
    let d := d.setCalq q { d.calq q with imp := some { tag := tag, part := part, recs := recs, at_ := d.calActAt } }
    if d.running then d else d.calImportRow q

/-- CAL.CLEAR on its quadrant (R241). -/
def Dev.calClearGo (d : Dev) (q : Nat) (tag : BitVec 8) (part kinds : Nat) (units : List CalUnit) : Dev :=
  if (d.calq q).busy then d.finishPart tag part (plain sBusy)
  else
    let d := d.setCalq q { d.calq q with clr := (d.calq q).clr ++ [{
      tag := tag, part := part, units := units, kinds := kinds, at_ := d.calActAt }] }
    if d.running then d else d.calClearRow q

/-- CAL.STOP on its quadrant (R228). -/
def Dev.calStopGo (d : Dev) (q : Nat) : Dev × Res :=
  if (d.calq q).run.isSome then (d.runEnd q (plain sAborted), plain sOk) else (d, plain sPrecondition)

end Sys2Proof.Machine
end

