-- ==== Sys2Proof/Machine/Link.lean ====
section
/-! DEFINITION. Lanes and lane groups: detectors, training, restriping, shedding, sleep of a direction, and the state of
the chord hops (R242–R268, R285, R361, R370). -/

namespace Sys2Proof.Machine

/-! ## Configuration and locations -/

/-- LG_CFG of a group. -/
def Dev.lgEn (d : Dev) (g : Nat) : Bool := d.fb (.lgCfg g) 31
def Dev.lgRate (d : Dev) (g : Nat) : Nat := d.f (.lgCfg g) 17 16
def Dev.lanes (d : Dev) (g : Nat) : Nat := d.f (.lgCfg g) 15 0
def Dev.laneList (d : Dev) (g : Nat) : List Nat := bitList 16 (d.lanes g)

/-- The enabled group of a lane. -/
def Dev.groupOf (d : Dev) (n : Nat) : Option Nat := [0, 1, 2].find? fun g => d.lgEn g && nbit (d.lanes g) n

/-- Locations of lanes; the lowest RX and TX lane of a group. -/
def Dev.rxLoc (d : Dev) (n : Nat) : BitVec 16 := d.locOf 5 (16 + n)
def Dev.lowRx (d : Dev) (g : Nat) : BitVec 16 := d.locOf 5 (16 + lowBit 16 (d.lanes g) 0)
def Dev.lowTx (d : Dev) (g : Nat) : BitVec 16 := d.locOf 5 (lowBit 16 (d.lanes g) 0)

/-- RXOK being sent, and the ready lanes of a group (R252). -/
def Dev.rxok (d : Dev) (g : Nat) : Nat :=
  (d.laneList g).foldl (fun n i => if (d.lane i).rxok then n + 2 ^ i else n) 0
def Dev.readyMask (d : Dev) (g : Nat) : Nat :=
  (d.laneList g).foldl (fun n i => if (d.lane i).ready then n + 2 ^ i else n) 0

/-- Every lane of the group sleeps at the partner (R265). -/
def Dev.peerAsleep (d : Dev) (g : Nat) : Bool :=
  !(d.laneList g).isEmpty && (d.laneList g).all fun i => (d.lane i).psleep

/-! ## Superblocks (R246, Table 10.2) -/

/-- Line rate in 100 kb/s. -/
def lineRate (code : Nat) : Nat :=
  match code with
  | 0 => 103125
  | 1 => 265625
  | _ => 531250

/-- The ticks of `k` superblocks of 64 blocks of 66 bits, rounded up. -/
def sbTicks (code k : Nat) : Nat := (k * 4224 * 196608 + lineRate code * 10 - 1) / (lineRate code * 10)

/-- Superblocks opened since SEQ was noted. -/
def sbCount (code n : Nat) : Nat := n * lineRate code * 10 / (4224 * 196608)

/-- SEQ of the superblock being sent. -/
def Dev.seqNow (d : Dev) (g : Nat) : Nat :=
  let x := d.lg g
  if x.st = .train ∨ x.st = .run ∨ (x.st = .rate ∧ d.now < x.rateAt + sbTicks x.rate 16) then
    (x.seq + sbCount x.rate (d.now - x.seqAt)) % 16
  else 0

/-- The `k`-th superblock boundary that a group opens after now. -/
def Dev.boundaryAfter (d : Dev) (g k : Nat) : Nat :=
  let x := d.lg g
  x.seqAt + sbTicks x.rate (sbCount x.rate (d.now - x.seqAt) + k)

/-- A superblock opens now. -/
def Dev.atBoundary (d : Dev) (g : Nat) : Bool := d.boundaryAfter g 0 == d.now

/-- The first superblock boundary from now on, and the first with SEQ 0. -/
def Dev.boundaryFrom (d : Dev) (g : Nat) : Nat := d.boundaryAfter g (if d.atBoundary g then 0 else 1)
def Dev.seqZero (d : Dev) (g : Nat) : Nat :=
  d.boundaryAfter g (if d.atBoundary g && d.seqNow g == 0 then 0 else 16 - d.seqNow g)

/-- The virtual channel of a packet in transmission (Table 11.1). -/
def Sent.vc (s : Sent) : Nat := match s.words with
  | w :: _ => w.toNat / 16 % 8
  | [] => 0

/-- The final reply of a tag has not left: it waits for the lanes or is on them, or the service path holds it. -/
def Dev.finalWaits (d : Dev) (tag : Option (BitVec 8)) : Bool :=
  let mine (r : Reply) : Bool := r.finalOf.isSome && r.finalOf == tag
  let is (p : Pkt) : Bool := match p with
    | .reply r => mine r
    | _ => false
  (d.queueOf d.upGroup 0).any is || (d.queueOf d.upGroup 1).any is || d.jtag.wait.any mine ||
  d.jtag.out.any (fun p => p.fin.isSome && p.fin == tag) ||
  match d.wire d.upGroup with
  | some s => is s.pkt
  | none => false

/-! ## Capacity and shedding (R261, R285, R287, R370) -/

/-- The order of R370: the enabled contexts of a direction, VC2 before VC5 and lower numbers first. -/
def Dev.streamOrder (d : Dev) (tx : Bool) : List Nat :=
  (List.range 4).flatMap fun pr =>
    (List.range 128).filter fun x => d.ctxOn x && d.ctxTx x == tx && d.ctxPrio x == pr

/-- Packet interval S of a sample period (R282). -/
def interval (p : Nat) : Nat := if p ≤ 16 then 256 else 16 * p

/-- Blocks of a full packet. -/
def fullBlocks (p : Nat) : Nat := if p ≤ 16 then 16 / p else 1

/-- PLEN of a SAMPLE packet (R281). -/
def samplePlen (m nblk : Nat) : Nat := 4 + (nblk * m + 1) / 2

/-- Mantissa width by COMP. -/
def mantOf (comp : Nat) : Nat :=
  match comp with
  | 0 => 16
  | 1 => 7
  | 2 => 9
  | _ => 12

/-- Wire rate of a receive context (R285) in units of 1,966.08 × 64 / 2,048 Mb/s. -/
def Dev.wireRate (d : Dev) (x : Nat) : Nat :=
  let p := d.ctxPeriod x
  samplePlen (mantOf (d.ctxComp x)) (fullBlocks p) * (2048 / interval p)

/-- A sum of wire rates fits C for `m` lanes of a rate (R285). -/
def fitsC (sum code m : Nat) : Bool :=
  decide (sum * 196608 * 64 * 720 ≤ lineRate code * (63 * m - 1) * 100 * 2048)

/-- Rate of a context in units of 15.36 MS/s. -/
def Dev.ctxUnits (d : Dev) (x : Nat) : Nat := 128 / d.ctxPeriod x

/-- The chord limit of R187 in units of 15.36 MS/s. -/
def chordLimit (code : Nat) : Nat :=
  match code with
  | 0 => 128
  | 1 => 256
  | _ => 512

/-- The longest leading run that a test admits. -/
def leadRun (ok : List Nat → Bool) (l : List Nat) : Nat :=
  (List.range (l.length + 1)).foldl (fun n i => if ok (l.take i) then max n i else n) 0

/-- The contexts outside that run. -/
def outside (ok : List Nat → Bool) (l : List Nat) : List Nat := l.drop (leadRun ok l)

/-- A context enabled for a direction counts at group H: chord contexts only at the head. -/
def Dev.countsH (d : Dev) (x : Nat) : Bool := !d.ctxChord x || d.role == 1

/-- The contexts that the capacity test of group `g` alone sheds, for `m` lanes (R261, R371). -/
def Dev.capacityShed (d : Dev) (g m : Nat) : List Nat :=
  if g = 0 then
    outside (fun l => fitsC ((l.filter d.countsH).foldl (fun n x => n + d.wireRate x) 0) (d.lg 0).rate m)
      (d.streamOrder false)
  else
    outside (fun l => decide (((l.filter d.ctxChord).foldl (fun n x => n + d.ctxUnits x) 0) * 8 ≤
      chordLimit (d.lgRate g) * m)) (d.streamOrder (g == 2))

/-- The step of the ladder in force, and its BEAM_CAP (Table 15.5). -/
def Dev.beamCap (d : Dev) : Nat := d.f (.plStep d.pwr.step) 13 8

/-- The contexts that BEAM_CAP alone sheds, of both directions (R361, R371). -/
def Dev.beamShed (d : Dev) : List Nat :=
  let ok (l : List Nat) : Bool := decide ((l.foldl (fun n x => n + d.ctxUnits x) 0) ≤ 32 * d.beamCap)
  outside ok (d.streamOrder false) ++ outside ok (d.streamOrder true)

/-- A context is shed: by the capacity test of a group, or by BEAM_CAP (R370). -/
def Dev.shed (d : Dev) (x : Nat) : Bool :=
  [0, 1, 2].any (fun g => (d.lg g).shed.contains x) || d.pwr.shed.contains x

/-- The first stamp of the packet interval of a context that holds stamp `t` (R282). -/
def Dev.intervalAt (d : Dev) (x t : Nat) : Nat :=
  let s := interval (d.ctxPeriod x)
  d.tb.t0 + (t - d.tb.t0) / s * s

/-- The tick since which the ladder sheds a context. -/
def Dev.shedFrom (d : Dev) (x : Nat) : Nat := Tbl.get (fun _ => 0) d.pwr.shedFrom x

/-- The block from stamp `t` of a receive context has no packet: shed for capacity at once, by the ladder from the next
packet interval on (R262, R361). -/
def Dev.blockShed (d : Dev) (x t : Nat) : Bool :=
  [0, 1, 2].any (fun g => (d.lg g).shed.contains x) ||
  (d.pwr.shed.contains x && decide (d.shedFrom x ≤ d.intervalAt x t))

/-- The blocks of shed receive streams that wait for a packet are dropped (R262). -/
def Dev.dropShed (d : Dev) : Dev :=
  (List.range 128).foldl (fun d x =>
    if d.shed x ∧ ¬ (d.ctx x).out.isEmpty then
      d.setCtx x { d.ctx x with out := (d.ctx x).out.filter fun b => !d.blockShed x b.at_ }
    else d) d

/-- The streams that the ladder sheds become `s`. -/
def Dev.setBeamShed (d : Dev) (s : List Nat) : Dev :=
  let from_ := s.foldl (fun t x => Tbl.set (fun _ => 0) t x (if d.pwr.shed.contains x then d.shedFrom x else d.now)) []
  ({ d.dropShed with pwr := { d.pwr with shed := s, shedFrom := from_ } } : Dev).dropShed

/-- TXMASK of a group becomes `m`: the run is computed again and CAPACITY_SHORT reported when it sheds a stream that it did not
(R261–R263, R371). An empty TXMASK is not tested (R260). -/
def Dev.setMask (d : Dev) (g m : Nat) : Dev :=
  let x := d.lg g
  let n := popcount 16 m
  let s := if n = 0 then x.shed else d.capacityShed g n
  let d := (d.dropShed.setLg g { x with txmask := m, shed := s }).dropShed
  if s.any fun c => !x.shed.contains c then d.fault 0x0402 0 (d.lowTx g) 0 else d

/-! ## Chord hops (R188) -/

/-- The hop toward chip k + 1 is up: a lane of group D is in lock. -/
def Dev.downOk (d : Dev) : Bool := (d.laneList 2).any fun i => (d.lane i).blk && (d.lane i).comma

/-- The hop toward chip k − 1 is up: group U runs (DEDUCED, log entry 14). -/
def Dev.upOk (d : Dev) : Bool := d.groupRun 1

/-- The head follows its own hop (R188). -/
def Dev.hopWatch (d : Dev) : Dev :=
  if d.role = 1 then
    let up := d.downOk
    let l := d.lat
    let d := { d with lat := { l with hop0Up := up, hop0Fail := if up then false else l.hop0Fail || l.hop0Up } }
    if l.hop0Up ∧ !up then d.fault 0x0503 0 (d.locOf 0 0) 0 else d
  else d

/-! ## Group states -/

/-- The packet in transmission is cut off and waits again at the head of its queue. -/
def Dev.cutWire (d : Dev) (g : Nat) : Dev :=
  match d.wire g with
  | some s => (d.setWire g none).setEgress (8 * g + s.vc) (s.pkt :: d.queueOf g s.vc)
  | none => d

/-- What leaves with RUN: sample packets of H and partial sums of a chord group are discarded at egress (R189, R266). Every other
packet waits for the next RUN, the one cut off in transmission first. -/
def Dev.leaveRun (d : Dev) (g : Nat) : Dev :=
  let d := d.cutWire g
  let d := if g = 0 then [2, 3, 4, 5].foldl (fun d vc => d.setEgress vc []) d else d.setEgress (8 * g + 6) []
  (d.setFramed g false).setLg g { d.lg g with lost := false }

/-- Enter TRAIN at a rate; RXOK takes the lanes that are ready, and SEQ starts at an unstated number. -/
def Dev.enterTrain (d : Dev) (g rate : Nat) : Dev :=
  let x := d.lg g
  let d := if x.st = .run then d.leaveRun g else d
  let d := (d.laneList g).foldl (fun d i =>
    if (d.lane i).ready then d.setLane i { d.lane i with rxok := true } else d) d
  (d.setLg g { d.lg g with st := .train, rate := rate, trainAt := d.now, attemptAt := none, peerCtrl := 1,
                           txmask := 0, masks := [], emptied := none, waking := false, newRate := none,
                           seq := d.free.toNat % 16, seqAt := d.now }).used

/-- Commands that wait for a group (R268). -/
def Dev.retrainEnd (d : Dev) (g : Nat) (r : Res) : Dev :=
  let l := (d.lg g).retrain
  let d := d.setLg g { d.lg g with retrain := [] }
  l.foldl (fun d tag => d.finishAll tag r) d

/-- LISTEN: the next attempt 100 ms after the previous one, or at once; the first entry is reported (R255, R266).
`cause` is false where the chord reports instead. -/
def Dev.enterListen (d : Dev) (g : Nat) (report : Bool) : Dev :=
  let x := d.lg g
  let d := if x.st = .run then d.leaveRun g else d
  let next := match x.lastTry with
    | some t => max d.now (t + ms 100)
    | none => d.now
  let d := d.setLg g { d.lg g with st := .listen, attemptAt := some next, told := true, txmask := 0, masks := [],
                                   emptied := none, waking := false, newRate := none }
  let d := if report ∧ !x.told then d.fault 0x0401 0 (d.lowRx g) 0 else d
  d.retrainEnd g (plain sLink)

/-- Enter RUN on the lanes of `m` (R254). -/
def Dev.enterRun (d : Dev) (g m : Nat) : Dev :=
  let x := d.lg g
  let d := (d.laneList g).foldl (fun d i =>
    if (d.lane i).ready then d.setLane i { d.lane i with rxok := true } else d) d
  let d := d.setLg g { x with st := .run, told := false, seq := 0, seqAt := d.now, attempts := 0, waking := false,
                              masks := [], emptied := none, newRate := none }
  let d := d.setMask g m
  let d := d.event (100 + g) (d.lowRx g) m
  d.retrainEnd g (plain sOk)

/-- The rate of an attempt: the committed one, or 10.3125 Gb/s at every second attempt (R255). -/
def Dev.attemptRate (d : Dev) (g n : Nat) : Nat := if n % 2 = 0 then d.lgRate g else 0

/-- An attempt starts in LISTEN when its time has come (R255). No lane trains in NO_REF (R43). -/
def Dev.attempt (d : Dev) (g : Nat) : Dev :=
  let x := d.lg g
  match x.attemptAt with
  | some t =>
    if x.st = .listen ∧ d.tb.st ≠ .noRef then
      let d := d.goTo t
      let d := d.enterTrain g (d.attemptRate g x.attempts)
      d.setLg g { d.lg g with attempts := x.attempts + 1, lastTry := some d.now }
    else d
  | none => d

/-- All lanes of LANES are ready at both ends and the partner sends READY (R254); after a wake of the direction, the
partner's RXOK covers LANES (R264). -/
def Dev.bothReady (d : Dev) (g : Nat) : Bool :=
  let x := d.lg g
  let ls := d.lanes g
  (ls != 0) && (x.peerRxok &&& ls == ls) &&
  ((x.st == .train && d.readyMask g == ls && x.peerCtrl == 2) || (x.st == .run && x.waking))

/-- At a SEQ 0 boundary with both ends ready the group enters RUN; a direction that wakes sends TRAIN for 2 µs before
(R254, R264). -/
def Dev.linkUpRow (d : Dev) (g : Nat) : Dev :=
  if d.bothReady g then
    let d := if (d.lg g).waking then d.goTo ((d.lg g).trainAt + us 2) else d
    (d.goTo (d.seqZero g)).enterRun g (d.lanes g)
  else d

/-- LANE_LOST for each lane of a mask (R254). -/
def Dev.lostLanes (d : Dev) (m : Nat) : Dev :=
  (bitList 16 m).foldl (fun d n => d.fault 0x0401 0 (d.rxLoc n) 0) d

/-- 2 ms after entering TRAIN, or after the wake of the direction began: RUN on the lanes ready at both ends, or LISTEN (R254,
R264). -/
def Dev.trainTimeout (d : Dev) (g : Nat) : Dev :=
  let x := d.lg g
  if x.st = .train ∨ x.waking then
    let d := d.goTo ((if x.waking then x.wakeAt else x.trainAt) + ms 2)
    let both := d.lanes g &&& d.readyMask g &&& x.peerRxok
    if both = 0 then d.enterListen g true
    else
      let d := (d.goTo (d.seqZero g)).enterRun g both
      d.lostLanes (d.lanes g &&& (0xFFFF ^^^ both))
  else d

/-! ## Lanes -/

/-- When a chord lane trains, a member measures the latency of its hop toward the head, at most 0.8 µs (R64). -/
def Dev.hopMeasured (d : Dev) (n : Nat) : Dev :=
  if d.groupOf n = some 1 then
    { d with tb := { d.tb with hopLat := (Config.hopLatency d.now).toNat % (Config.hopTicks + 1) } }
  else d

/-- The arrivals and SEQs of the latest commas of the other ready lanes of a group that came within half a superblock of `a`. -/
def Dev.commasNear (d : Dev) (g n a : Nat) : List (Nat × Nat) :=
  ((d.laneList g).filter fun m => m != n && (d.lane m).ready).filterMap fun m =>
    match (d.lane m).com with
    | some c => if 2 * (max a c.1 - min a c.1) < sbTicks (d.lg g).rate 1 then some c else none
    | none => none

/-- The commas of a lane carry the SEQ of the other ready lanes and lie within 40 ns of the latest-arriving one (R252). A lane of
which no COMMA command came is taken to be in step (log entry 38). -/
def Dev.inStep (d : Dev) (g n : Nat) : Bool :=
  match (d.lane n).com with
  | some c =>
    let near := d.commasNear g n c.1
    let last := near.foldl (fun t x => max t x.1) 0
    near.all (fun x => x.2 == c.2) && (near.isEmpty || decide (max last c.1 - min last c.1 ≤ 78))
  | none => true

/-- LANE_STAT.SKEW: the delay that brings a ready lane to the latest one, in 0.25 ns units; where no comma tells, a measured
value. -/
def Dev.skewOf (d : Dev) (n : Nat) : Nat :=
  let x := d.lane n
  match d.groupOf n, x.com with
  | some g, some c =>
    if x.ready then (((d.commasNear g n c.1).foldl (fun t y => max t y.1) c.1 - c.1) * 4000000 / 1966080) else 0
  | _, _ => x.skew

/-- A lane becomes ready: skew, CTLE, eye and DFE are measured values. In TRAIN it enters RXOK at once, as after a
partner's sleep; in RUN 1 ms later (R252, R254, R265). -/
def Dev.laneReady (d : Dev) (n : Nat) : Dev :=
  let x := d.lane n
  let st := match d.groupOf n with
    | some g => (d.lg g).st
    | none => .off
  let w := d.free.toNat
  let dfe := (List.range 12).foldl (fun t i => Tbl.set (fun _ => 0) t i (sx 8 (w / 2 ^ (24 + i)))) []
  let kept := x.wokeAt.isSome
  let d := if kept then d else d.hopMeasured n
  (d.setLane n { x with ready := true, readyAt := d.now, rxok := st == .train || kept || x.rxok, psleep := false,
                        wokeAt := none, lateAt := none, skew := w % 161, adaptAt := d.now,
                        ctle := if kept then x.ctle else w / 256 % 25, eye := w / 2 ^ 13 % 256,
                        dfe := if kept then x.dfe else dfe }).used

/-- The report of a loss of a lane in RUN (R258). -/
def Dev.reportLost (d : Dev) (n t : Nat) : Dev := d.faultAt 0x0401 0 (d.rxLoc n) 0 (d.tsAt t)

/-- A lane is no longer ready: in RUN its bit leaves RXOK with the next comma and the loss waits for its report; an earlier one
that still waits is reported now (R258). -/
def Dev.laneUnready (d : Dev) (n : Nat) : Dev :=
  let x := d.lane n
  let run := match d.groupOf n with
    | some g => d.groupRun g
    | none => false
  let d := match x.lostAt with
    | some t => d.reportLost n t
    | none => d
  d.setLane n { x with ready := false, rxok := false, lostAt := if run && !x.psleep then some d.now else none }

/-- The detectors or the commas of a lane changed (R250, R252). -/
def Dev.laneCheck (d : Dev) (n : Nat) : Dev :=
  let x := d.lane n
  let ok := !x.los && x.blk && x.comma && match d.groupOf n with
    | some g => d.inStep g n
    | none => false
  let d := if ok && !x.ready then d.laneReady n else if !ok && x.ready then d.laneUnready n else d
  d.hopWatch

/-- LOS of a lane sets or clears. Clearing it may start an attempt (R255) and wakes a lane that slept (R265). -/
def Dev.losRow (d : Dev) (n : Nat) (on : Bool) : Dev :=
  let x := d.lane n
  let woke := !on && x.psleep
  let d := d.setLane n { x with los := on, com := if on then none else x.com, psleep := x.psleep && !woke,
                                wokeAt := if woke then some d.now else x.wokeAt }
  let d := match d.groupOf n with
    | some g =>
      let y := d.lg g
      let early := match y.lastTry with
        | some t => decide (t + ms 4 ≤ d.now)
        | none => true
      if !on && x.los && y.st == LgSt.listen && early then
        d.setLg g { y with attemptAt := some d.now }
      else d
    | none => d
  d.laneCheck n

def Dev.blockLockRow (d : Dev) (n : Nat) (on : Bool) : Dev :=
  (d.setLane n { d.lane n with blk := on, com := if on then (d.lane n).com else none }).laneCheck n
def Dev.commaLockRow (d : Dev) (n : Nat) (on : Bool) : Dev :=
  (d.setLane n { d.lane n with comma := on, com := if on then (d.lane n).com else none }).laneCheck n

/-- The loss of a lane in RUN is reported, unless the whole group was lost within 1 µs (R258, R266). -/
def Dev.laneLostRow (d : Dev) (n : Nat) : Dev :=
  match (d.lane n).lostAt with
  | some t =>
    let d := d.goTo (t + us 1)
    (d.setLane n { d.lane n with lostAt := none }).reportLost n t
  | none => d

/-- A lane of the group relocks after a sleep of the partner (R265). -/
def Dev.relocks (d : Dev) (g : Nat) : Bool :=
  (d.laneList g).any fun n => (d.lane n).wokeAt.isSome || (d.lane n).lateAt.isSome

/-- The loss of the last ready lane sends a group to LISTEN (R266); single losses within 1 µs are not reported. For a
chord group the head reports the hop. -/
def Dev.groupLostRow (d : Dev) (g : Nat) : Dev :=
  if d.groupRun g ∧ d.readyMask g = 0 ∧ d.peerAsleep g = false ∧ d.relocks g = false then
    let d := (d.laneList g).foldl (fun d n => match (d.lane n).lostAt with
      | some t => if d.now ≤ t + us 1 then d.setLane n { d.lane n with lostAt := none } else d
      | none => d) d
    d.enterListen g (g == 0)
  else d

/-- A lane ready for 1 ms in RUN enters RXOK (R252). -/
def Dev.rxokAddRow (d : Dev) (n : Nat) : Dev :=
  let x := d.lane n
  match d.groupOf n with
  | some g =>
    if d.groupRun g ∧ x.ready ∧ !x.rxok then
      let d := d.goTo (x.readyAt + ms 1)
      d.setLane n { d.lane n with rxok := true }
    else d
  | none => d

/-! ## Commas (R248, R259, R260, Table 10.3) -/

/-- The bytes that a comma's CRC covers, and its check. -/
def commaGood (w : BitVec 64) : Bool :=
  (w.toNat / 2 ^ 48 == crcOf 3 (natBytes 6 (w.toNat % 2 ^ 48))) && decide (w.toNat / 2 ^ 12 % 16 ≤ 6)

/-- The TXMASK that follows from a previous one and a new partner RXOK (R259). -/
def nextMask (lanes cur rxok added : Nat) : Nat := (cur &&& rxok) ||| (lanes &&& added &&& rxok)

/-- On SLEEP a lane's receiver powers down but for its LOS detector (R265); a chord hop whose last lane in lock it was is down
(R188). -/
def Dev.partnerSleepRow (d : Dev) (n : Nat) : Dev :=
  (d.setLane n { d.lane n with psleep := true, ready := false, rxok := false, blk := false, comma := false,
                               wokeAt := none, lateAt := none, lostAt := none, com := none }).hopWatch

/-- TXMASK after the changes that wait for their boundary. -/
def Dev.maskAhead (d : Dev) (g : Nat) : Nat :=
  (d.lg g).masks.foldl (fun m c => nextMask (d.lanes g) m c.2.1 c.2.2) (d.lg g).txmask

/-- What a good comma's CTRL and RXOK `rxok`, with the lanes `added` to it, make a group do (R256, R259, R260, R265). -/
def Dev.commaActs (d : Dev) (g n ctrl rxok added : Nat) : Dev :=
  let y := d.lg g
  if ctrl = 3 then d.partnerSleepRow n
  else if 4 ≤ ctrl ∧ y.st = .run then
    (d.leaveRun g).setLg g { (d.leaveRun g).lg g with st := .rate, newRate := some (ctrl - 4), rateAt := d.now, txmask := 0,
                                                      masks := [], emptied := none }
  else if y.st = .run ∧ !y.txsleep ∧ !y.waking then
    if rxok &&& d.lanes g = 0 then
      (if y.emptied.isSome then d else d.setLg g { y with emptied := some (d.boundaryAfter g 2) })
    else
      let m := nextMask (d.lanes g) (d.maskAhead g) rxok added
      if m ≠ d.maskAhead g ∧ m ≠ 0 then d.setLg g { y with masks := y.masks ++ [(d.boundaryAfter g 2, rxok, added)] } else d
  else d

/-- A good comma is received. -/
def Dev.commaRow (d : Dev) (n : Nat) (w : BitVec 64) : Dev :=
  match d.groupOf n with
  | some g =>
    if commaGood w then
      let x := d.lg g
      let v := w.toNat
      let rxok := v / 2 ^ 32 % 65536
      let ctrl := v / 2 ^ 12 % 16
      let d := d.setLg g { x with peerRxok := rxok, peerTx := v / 2 ^ 16 % 65536, peerCtrl := ctrl,
                                  peerChip := v / 16 % 8 }
      let d := d.setLane n { d.lane n with com := some (d.now, v / 256 % 16) }
      (d.commaActs g n ctrl rxok (rxok &&& (0xFFFF ^^^ x.peerRxok))).laneCheck n
    else d
  | none => d

/-- At the second boundary after a comma the change that it made acts on the TXMASK in force, and capacity is tested (R259,
R261). -/
def Dev.maskRow (d : Dev) (g : Nat) : Dev :=
  match (d.lg g).masks with
  | c :: rest =>
    let d := d.goTo c.1
    let d := d.setLg g { d.lg g with masks := rest }
    let m := nextMask (d.lanes g) (d.lg g).txmask c.2.1 c.2.2
    if m = 0 ∨ m = (d.lg g).txmask then d else d.setMask g m
  | [] => d

/-- An empty partner RXOK sends the group back to TRAIN, and group H reports it (R260). -/
def Dev.emptyRow (d : Dev) (g : Nat) : Dev :=
  match (d.lg g).emptied with
  | some t =>
    let d := d.goTo t
    let d := d.enterTrain g (d.lg g).rate
    let told := (d.lg g).told
    let d := d.setLg g { d.lg g with told := true }
    if g = 0 ∧ !told then d.fault 0x0401 0 (d.lowTx g) 1 else d
  | none => d

/-! ## Rate and lane changes (R256) -/

/-- The group enters RATE at the boundary after the commit's final reply has left. -/
def Dev.rateRow (d : Dev) (g : Nat) : Dev :=
  let x := d.lg g
  if x.st = .run ∧ x.newRate.isSome ∧ !d.finalWaits x.rateTag then
    let d := (d.goTo (d.boundaryFrom g)).leaveRun g
    d.setLg g { d.lg g with st := .rate, rateAt := d.now, txmask := 0, masks := [], emptied := none }
  else d

/-- After 16 announcement superblocks and 2 µs of idle the group trains at the new rate. -/
def Dev.rateEndRow (d : Dev) (g : Nat) : Dev :=
  let x := d.lg g
  match x.newRate with
  | some r =>
    if x.st = .rate then
      let d := d.goTo (x.rateAt + sbTicks x.rate 16 + us 2)
      let d := d.enterTrain g r
      d.setLg g { d.lg g with newRate := none, attempts := 1, lastTry := some d.now }
    else d
  | none => d

/-- A lane powers down: its detectors are at their reset values. -/
def Dev.laneOff (d : Dev) (n : Nat) : Dev := (d.setLane n {}).hopWatch

/-- A removed lane leaves TXMASK at the next superblock boundary and powers down. An empty TXMASK is never formed: with the last of
its lanes removed the group leaves RUN and trains on its new LANES (R260; DEDUCED, log entry 38). -/
def Dev.removedRow (d : Dev) (n : Nat) : Dev :=
  if (d.lane n).removing then
    match [0, 1, 2].find? fun g => nbit (d.lg g).txmask n with
    | some g =>
      let d := d.goTo (d.boundaryFrom g)
      let m := (d.lg g).txmask &&& (0xFFFF ^^^ 2 ^ n)
      (if m = 0 then d.enterTrain g (d.lg g).rate else d.setMask g m).laneOff n
    | none => d.laneOff n
  else d

/-- An added lane powers up and trains alone. -/
def Dev.addRow (d : Dev) (n : Nat) : Dev :=
  if (d.lane n).adding then d.setLane n { d.lane n with adding := false } else d

/-- A lane not ready within 100 µs of LOS clearing falls under R252; 2 ms after LOS cleared the timeout of R254 reports it, or
sends a group with no ready lane to LISTEN (R265). -/
def Dev.relockRow (d : Dev) (n : Nat) : Dev :=
  let x := d.lane n
  match x.wokeAt, x.lateAt with
  | some t, _ =>
    let d := d.goTo (t + us 100)
    d.setLane n { x with wokeAt := none, lateAt := some t }
  | none, some t =>
    let d := d.goTo (t + ms 2)
    let d := d.setLane n { x with lateAt := none }
    (match d.groupOf n with
     | some g => if d.groupRun g ∧ d.readyMask g = 0 then d.enterListen g (g == 0) else d.fault 0x0401 0 (d.rxLoc n) 0
     | none => d)
  | none, none => d

/-- A trit of a free value: −1, 0 or 1. -/
def trit (w i : Nat) : Int := ((w / 3 ^ i % 3 : Nat) : Int) - 1

/-- Every 10 µs in RUN a ready receive lane adapts by at most one code per tap (R251). -/
def Dev.adaptRow (d : Dev) (n : Nat) : Dev :=
  match d.groupOf n with
  | some g =>
    if d.groupRun g ∧ (d.lane n).ready then
      let x := d.lane n
      let d := d.goTo (x.adaptAt + us 10)
      let w := d.free.toNat
      let ctle := min 24 (((x.ctle : Nat) : Int) + trit w 0).toNat
      let dfe := (List.range 12).foldl (fun t i =>
        Tbl.set (fun _ => 0) t i (satTo 8 (Tbl.get (fun _ => 0) x.dfe i + trit w (i + 1)))) x.dfe
      (d.setLane n { x with ctle := ctle, dfe := dfe, eye := w / 2 ^ 40 % 256, adaptAt := d.now }).used
    else d
  | none => d

/-! ## Commits (R243, R256) -/

/-- The live LG_CFG of a group changed from EN, RATE and LANES `e`, `r`, `l`, by a commit whose final reply is that of `tag`. -/
def Dev.lgChanged (d : Dev) (g : Nat) (e : Bool) (r l : Nat) (tag : Option (BitVec 8)) : Dev :=
  let ls := d.lanes g
  if !d.lgEn g then
    (if e then
      let d := if d.groupRun g then d.leaveRun g else d
      let d := (bitList 16 l).foldl (fun d n => d.laneOff n) d
      (d.retrainEnd g (plain sLink)).setLg g {}
     else d)
  else if !e then d.setLg g { st := .listen, attemptAt := some d.now }
  else
    let added := bitList 16 (ls &&& (0xFFFF ^^^ l))
    let gone := bitList 16 (l &&& (0xFFFF ^^^ ls))
    let d := added.foldl (fun d n => d.setLane n { adding := true }) d
    let d := gone.foldl (fun d n =>
      if d.groupRun g then d.setLane n { d.lane n with removing := true } else d.laneOff n) d
    if d.lgRate g ≠ r ∧ d.groupRun g then d.setLg g { d.lg g with newRate := some (d.lgRate g), rateTag := tag }
    else if d.lgRate g ≠ r then d.setLg g { d.lg g with attempts := 0 }
    else d

/-- The LG_CFG bits. -/
abbrev lgBits : Nat := 0x8003FFFF

/-- The power domain of the transmit direction of group `a` becomes that of group `b`, with the requests that wait for it and the
transition that runs. -/
def Dev.moveDom (d : Dev) (a b : Nat) : Dev :=
  let moved (r : PReq) : PReq := if r.d = 132 + a then { r with d := 132 + b } else r
  let x := d.dom (132 + a)
  let d := (d.setDom (132 + b) x).setDom (132 + a) {}
  { d with pwr := { d.pwr with sleeps := d.pwr.sleeps.map moved, wakes := d.pwr.wakes.map moved,
                               cur := d.pwr.cur.map fun t => if t.kind = .thermal then t else { t with req := moved t.req } } }

/-- A role commit moves group H to U or back, with its lanes, its state and its power domain (R243). -/
def Dev.moveGroup (d : Dev) (a b : Nat) : Dev :=
  let cfg := d.reg (.lgCfg a)
  let d := d.setBits (.lgCfg b) lgBits cfg.toNat
  let d := d.setBits (.lgCfg a) lgBits 0
  let d := (d.setLg b (d.lg a)).moveDom a b
  let d := d.setLg a { d.lg a with st := .off, txmask := 0, peerRxok := 0, peerTx := 0, attemptAt := none, masks := [],
                                   emptied := none, newRate := none, shed := [], retrain := [], txsleep := false,
                                   waking := false, quiet := false, sleepAt := none, lost := false }
  let d := (d.setFramed b (d.framed a)).setFramed a false
  let d := (d.setWire b (d.wire a)).setWire a none
  let d := (d.setHiCount b (d.hiCount a)).setHiCount a 0
  (List.range 8).foldl (fun d vc => (d.setEgress (8 * b + vc) (d.queueOf a vc)).setEgress (8 * a + vc) []) d

/-- Which move a change of ROLE makes. -/
def Dev.roleMove (d : Dev) (oldRole : Nat) : Dev :=
  if oldRole ≤ 1 ∧ 2 ≤ d.role then d.moveGroup 0 1
  else if 2 ≤ oldRole ∧ d.role ≤ 1 then d.moveGroup 1 0
  else d

/-! ## Sleep of a transmit direction (R264) -/

/-- The SLEEP superblock of a direction that goes to sleep opens at the first boundary at which no packet is in transmission. -/
def Dev.sleepSuperblock (d : Dev) (g : Nat) : Dev :=
  let x := d.lg g
  if x.quiet ∧ x.sleepAt.isNone ∧ (d.wire g).isNone then d.setLg g { x with sleepAt := some (d.boundaryFrom g) } else d

/-- The sleep transition of a direction begins: no further packet begins (R264). -/
def Dev.txSleepBegin (d : Dev) (g : Nat) : Dev :=
  (d.setLg g { d.lg g with quiet := true, sleepAt := none }).sleepSuperblock g

/-- The direction sleeps; a packet in transmission still ends (R26). -/
def Dev.txSleepNow (d : Dev) (g : Nat) : Dev := d.setLg g { d.lg g with txsleep := true, waking := false }

/-- The wake transition of a direction begins. -/
def Dev.txWakeBegin (d : Dev) (g : Nat) : Dev := d.setLg g { d.lg g with wakeAt := d.now }

/-- The direction wakes: TRAIN superblocks from here, RUN again at a SEQ 0 boundary. -/
def Dev.txWakeNow (d : Dev) (g : Nat) : Dev :=
  let x := { d.lg g with txsleep := false, quiet := false, sleepAt := none }
  if x.st = .run then d.setLg g { x with waking := true, trainAt := d.now } else d.setLg g x

/-- LINK.RETRAIN of a group: ACCEPTED, then TRAIN from RUN, or an attempt from LISTEN. In NO_REF the attempt waits until lanes may
train (R43). A group that is OFF cannot enter RUN or LISTEN: LINK follows ACCEPTED at once (R268; DEDUCED, log entry 38). -/
def Dev.retrainGo (d : Dev) (g : Nat) (tag : BitVec 8) : Dev :=
  let x := d.lg g
  let d := d.note tag sAccepted
  if x.st = .off then d.finishAll tag (plain sLink)
  else
    let d := d.setLg g { x with retrain := x.retrain ++ [tag] }
    if x.st = .run then d.enterTrain g x.rate
    else if x.st = .listen then (d.setLg g { d.lg g with attemptAt := some d.now }).attempt g
    else d

end Sys2Proof.Machine
end

