-- ==== Sys2Proof/Machine/Power.lean ====
section
/-! DEFINITION. The power manager: boot, sleep and wake under the mutex, fabric voltage, housekeeping, the power-limit
ladder, shutdown and restart (R29, R30, R346–R364). -/

namespace Sys2Proof.Machine

/-! ## Domains (Table 15.3) -/

/-- Transition times in µs. -/
def sleepUs (n : Nat) : Nat := if n < 128 then 1 else if n < 132 then 10 else if n < 135 then 2 else if n = 135 then 5 else 1
def wakeUs (n : Nat) : Nat := if n < 128 then 4 else if n < 132 then 60 else if n < 135 then 2 else if n = 135 then 20 else 4

/-- The domain is asleep. -/
def Dev.asleep (d : Dev) (n : Nat) : Bool := (d.dom n).st == .asleep

/-- PS_STAT of a domain. -/
def Dev.psCode (d : Dev) (n : Nat) : Nat :=
  match (d.dom n).st with
  | .awake => 0
  | .asleep => 1
  | .requested => 2
  | .waking => 3

/-- The quadrant of a cell or engine domain. -/
def domQuad (n : Nat) : Option Nat :=
  if n < 128 then some (n % 64 / 16) else if 136 ≤ n ∧ n < 152 then some ((n - 136) / 4) else none

/-- An enabled receive context uses group H (R264, R350). -/
def Dev.usesH (d : Dev) : Bool :=
  (List.range 128).any fun x => d.ctxOn x && !d.ctxTx x && d.hostSide

/-- The part of a precondition that commits, bursts and runs decide (Table 15.3, rule 0xD001). -/
def Dev.sleepCfg (d : Dev) (n : Nat) : Bool :=
  if n < 128 then
    !d.cellUsed n && !(List.range 128).any (fun x => d.ctxOn x && d.ctxTx x == decide (n < 64) && d.ctxHas x (n % 64)) &&
    (decide (n < 64) || !d.keep n) &&
    !(if n < 64 then (d.tx n).held else (d.rx (n - 64)).held)
  else if n < 132 then
    let q := n - 128
    !d.fb (.synCtrl (2 * q)) 0 && !d.fb (.synCtrl (2 * q + 1)) 0 &&
    ([0, 1, 2, 3].all fun b => !d.fb (.orxCtrl (4 * q + b)) 0) && !d.fb (.calCtrl q) 31 && !(d.calq q).busy
  else if n = 132 then !d.usesH
  else true

/-- The whole precondition of a sleep request. -/
def Dev.sleepOk (d : Dev) (n : Nat) : Bool :=
  d.sleepCfg n &&
  (if n < 128 then true
   else if n < 132 then
    let q := n - 128
    ((List.range 128).all fun c => c % 64 / 16 != q || d.asleep c) &&
    [0, 1, 2, 3].all fun e =>
      (d.eng (4 * q + e)).st == .halted || (d.eng (4 * q + e)).st == .faulted || (d.eng (4 * q + e)).st == .sleeping
   else if n < 135 then d.groupRun (n - 132)
   else if n = 135 then [128, 129, 130, 131].all d.asleep
   else true)

/-! ## The engine side of a sleep (R309, R317) -/

/-- An engine continues after the instruction that waited: EVL is cleared. -/
def Dev.engResume (d : Dev) (e : Nat) : Dev :=
  let v := d.eng e
  d.setEng e { v with st := .running, evl := false, wait := .none, pc := (v.pc + 4) % 2 ^ 32 }

/-- The halts that waited for an engine take effect (R317). -/
def Dev.engHalted (d : Dev) (e : Nat) : Dev :=
  let v := d.eng e
  v.halts.foldl (fun d c => d.finishPart c.1 c.2 (plain sOk)) (d.setEng e { v with st := .halted, wait := .none, halts := [] })

/-! ## Requests (R350–R353) -/

/-- Reply to the command part of a request. -/
def Dev.pReply (d : Dev) (cmd : Option (BitVec 8 × Nat)) (r : Res) : Dev :=
  match cmd with
  | some (tag, part) => d.finishPart tag part r
  | none => d

def Dev.pNote (d : Dev) (cmd : Option (BitVec 8 × Nat)) : Dev :=
  match cmd with
  | some (tag, _) => d.note tag sAccepted
  | none => d

def Dev.setPwr (d : Dev) (p : Pwr) : Dev := { d with pwr := p }

/-- A wake of a domain waits or runs. -/
def Dev.wakeDue (d : Dev) (n : Nat) : Bool :=
  d.pwr.wakes.any (fun r => r.d == n) ||
  match d.pwr.cur with
  | some t => t.kind == .wake && t.req.d == n
  | none => false

/-- A sleep transition of a domain runs. -/
def Dev.sleepRuns (d : Dev) (n : Nat) : Bool :=
  match d.pwr.cur with
  | some t => t.kind == .sleep && t.req.d == n
  | none => false

/-- A sleep request, its precondition judged on the projected state `pj` (R350). -/
def Dev.sleepReq (d pj : Dev) (n : Nat) (cmd : Option (BitVec 8 × Nat)) : Dev :=
  if d.asleep n ∧ !d.wakeDue n then d.pReply cmd (plain sOk)
  else if !pj.sleepOk n then
    d.pReply cmd (refusal sPrecondition (if n = 132 ∧ pj.groupRun 0 then 0x0D03 else 0x0D02))
  else
    let x := d.dom n
    let d := d.setDom n { x with held := true, st := if x.st == .awake then .requested else x.st }
    (d.setPwr { d.pwr with sleeps := d.pwr.sleeps ++ [{ d := n, cmd := cmd }] }).pNote cmd

/-- Queue a wake, the quadrant or chip that contains the domain first (R351). -/
def Dev.wakeQueue (d : Dev) (n : Nat) (cmd : Option (BitVec 8 × Nat)) : Dev :=
  let add (d : Dev) (m : Nat) (c : Option (BitVec 8 × Nat)) : Dev :=
    d.setPwr { d.pwr with wakes := d.pwr.wakes ++ [{ d := m, cmd := c }] }
  let down (d : Dev) (m : Nat) : Bool := (d.asleep m || d.sleepRuns m) && !d.wakeDue m
  let d := if n ≠ 135 ∧ down d 135 then add d 135 none else d
  let d := match domQuad n with
    | some q => if down d (128 + q) then add d (128 + q) none else d
    | none => d
  add d n cmd

/-- A domain that is awake, with no transition due, loses its mark. -/
def Dev.unheld (d : Dev) (n : Nat) : Dev :=
  if d.asleep n ∨ d.sleepRuns n ∨ d.wakeDue n then d else d.setDom n { d.dom n with st := .awake, held := false }

/-- The sleep requests of a domain that still wait for the mutex are withdrawn (R353). -/
def Dev.withdraw (d : Dev) (n : Nat) : Dev :=
  let mine := d.pwr.sleeps.filter fun r => r.d == n
  if mine.isEmpty then d
  else
    let d := (d.setPwr { d.pwr with sleeps := d.pwr.sleeps.filter fun r => r.d != n }).unheld n
    mine.foldl (fun d r => d.pReply r.cmd (plain sAborted)) d

/-- A wake request (R353). It withdraws the sleeps that still wait, also those behind a wake or a running sleep (log entry
15), and then waits for the wake of a domain that sleeps or will. -/
def Dev.wakeReq (d : Dev) (n : Nat) (cmd : Option (BitVec 8 × Nat)) : Dev :=
  if d.asleep n ∨ d.sleepRuns n ∨ d.wakeDue n then ((d.withdraw n).wakeQueue n cmd).pNote cmd
  else (d.withdraw n).pReply cmd (plain sOk)

/-! ## Transitions (R29, R350–R353) -/

/-- Group H's transmit direction sleeps while VC0 or VC1 packets wait: a wake is requested (R264). -/
def Dev.lgWake (d : Dev) : Dev :=
  if (d.lg 0).txsleep ∧ !d.wakeDue 132 ∧ (!(d.queueOf 0 0).isEmpty ∨ !(d.queueOf 0 1).isEmpty) then d.wakeQueue 132 none
  else d

/-- A sleep transition begins; an engine is SLEEPING from here, its cache invalid (R309). A domain that sleeps already
replies at once. -/
def Dev.sleepBegin (d : Dev) (r : PReq) : Dev :=
  if d.asleep r.d then d.pReply r.cmd (plain sOk)
  else
    let d := d.setDom r.d { d.dom r.d with st := .requested }
    let d := if 136 ≤ r.d then d.setEng (r.d - 136) { d.eng (r.d - 136) with st := .sleeping, cache := [] }
      else if 132 ≤ r.d ∧ r.d < 135 then d.txSleepBegin (r.d - 132) else d
    d.setPwr { d.pwr with cur := some { kind := .sleep, req := r, ends := d.now + us (sleepUs r.d) } }

/-- A wake transition begins; a domain that does not sleep replies at once. -/
def Dev.wakeBegin (d : Dev) (r : PReq) : Dev :=
  if !d.asleep r.d then d.pReply r.cmd (plain sOk)
  else
    let d := d.setDom r.d { d.dom r.d with st := .waking }
    let d := if 132 ≤ r.d ∧ r.d < 135 then d.txWakeBegin (r.d - 132) else d
    d.setPwr { d.pwr with cur := some { kind := .wake, req := r, ends := d.now + us (wakeUs r.d) } }

/-- The domain that contains domain `n` and sleeps: it wakes first (R351). -/
def Dev.shutIn (d : Dev) (n : Nat) : Option Nat :=
  if n ≠ 135 ∧ d.asleep 135 then some 135
  else match domQuad n with
    | some q => if d.asleep (128 + q) then some (128 + q) else none
    | none => none

/-- The next waiting transition takes the mutex: wakes before sleeps, no wake within WAKE_GAP, a containing domain that sleeps
before the domain; a thermal action goes first (R29, R351, R352). -/
def Dev.grantRow (d : Dev) : Dev :=
  let d := d.lgWake
  if d.pwr.cur.isSome ∨ !d.pwr.thermal.isEmpty then d
  else
    match d.pwr.gap, d.pwr.wakes with
    | false, r :: rest =>
      (match d.shutIn r.d with
       | some m => d.wakeBegin { d := m }
       | none => (d.setPwr { d.pwr with wakes := rest }).wakeBegin r)
    | _, _ =>
      match d.pwr.sleeps with
      | r :: rest => (d.setPwr { d.pwr with sleeps := rest }).sleepBegin r
      | [] => d

/-- The domain of an ended sleep is asleep. -/
def Dev.sleepDone (d : Dev) (n : Nat) : Dev :=
  let d := d.setDom n { d.dom n with st := .asleep }
  if 132 ≤ n ∧ n < 135 then d.txSleepNow (n - 132)
  else if n = 135 then [0, 1, 2, 3, 4].foldl (fun d i => d.setFabV i 0) d
  else d

/-- The domain of an ended wake is awake, a sleep behind the wake waiting, and no longer sleep-held; the next wake waits
WAKE_GAP. -/
def Dev.wakeDone (d : Dev) (n : Nat) : Dev :=
  let st : DomSt := if d.pwr.sleeps.any fun r => r.d == n then .requested else .awake
  let d := d.setDom n { d.dom n with st := st, held := false }
  let d := d.setPwr { d.pwr with gap := true, gapUntil := d.now + us (d.f .pmCfg 7 0) }
  if 64 ≤ n ∧ n < 128 then d.adcWake (n - 64)
  else if 132 ≤ n ∧ n < 135 then d.txWakeNow (n - 132)
  else if 136 ≤ n then
    let e := n - 136
    if (d.eng e).halts.isEmpty then d.engResume e else d.engHalted e
  else d

/-- A transition ends and frees the mutex (R350). -/
def Dev.transEnd (d : Dev) : Dev :=
  match d.pwr.cur with
  | some t =>
    let d := d.goTo t.ends
    let d := d.setPwr { d.pwr with cur := none }
    (match t.kind with
     | .sleep => (d.sleepDone t.req.d).pReply t.req.cmd (plain sOk)
     | .wake => (d.wakeDone t.req.d).pReply t.req.cmd (plain sOk)
     | .thermal => d)
  | none => d

/-- WAKE_GAP is over (R352). -/
def Dev.gapEnd (d : Dev) : Dev :=
  if d.pwr.gap then
    let d := d.goTo d.pwr.gapUntil
    d.setPwr { d.pwr with gap := false }
  else d

/-! ## Fabric voltage (R354) -/

/-- A fabric is awake: 0–3 the quadrants, 4 the chip. -/
def Dev.fabAwake (d : Dev) (i : Nat) : Bool := !d.asleep 135 && (decide (4 ≤ i) || !d.asleep (128 + i))

/-- Every 1 µs each awake fabric moves by at most 5 mV. -/
def Dev.voltageStep (d : Dev) : Dev :=
  let vmax := d.f (.plStep d.pwr.step) 29 24
  let target := max 64 (d.f .slackCfg 15 8)
  (List.range 5).foldl (fun d i =>
    if d.fabAwake i then
      let v := d.fabV i
      let s := d.slack i
      if vmax < v then d.setFabV i (v - 1)
      else if s < target ∧ v < vmax then d.setFabV i (v + 1)
      else if target + 8 ≤ s ∧ 0 < v then d.setFabV i (v - 1)
      else d
    else d) d

/-! ## Housekeeping (R355–R358, R374) -/

/-- The range of a supply channel in mV (Table 17.2). -/
def supplyRange (ch : Nat) (nom33 : Bool) : Nat × Nat :=
  if ch = 24 then (1700, 1950)
  else if ch ≤ 27 then (1710, 1890)
  else if ch ≤ 29 then (if nom33 then (3135, 3465) else (1710, 1890))
  else (530, 870)

/-- A sensor's reading (R355). -/
def Dev.convSensor (d : Dev) (ch : Nat) (v : Int) : Dev :=
  d.setSensor ch { d.sensor ch with temp := satTo 16 v }

/-- A supply's reading (R356). -/
def Dev.convSupply (d : Dev) (ch : Nat) (v : Int) : Dev :=
  let r := ch - 24
  let x := d.supply r
  let mv := v.toNat % 65536
  let nom := (ch == 28 || ch == 29) && decide (2500 ≤ mv)
  let rg := supplyRange ch nom
  let ok := decide (rg.1 ≤ mv) && decide (mv ≤ rg.2)
  let d := d.setSupply r { mv := mv, inRange := ok, nom33 := nom, out := !ok }
  if !ok ∧ !x.out then d.fault 0x0405 0 (d.locOf 0 0) ch else d

/-- An AUXMON reading (R356). -/
def Dev.convAux (d : Dev) (ch : Nat) (v : Int) : Dev :=
  let a := ch - 32
  let mv := v.toNat % 65536
  let out := decide (mv < d.f (.auxLim a) 15 0) || decide (d.f (.auxLim a) 31 16 < mv)
  let was := (d.auxMon a).out
  let d := d.setAuxMon a { mv := mv, out := out }
  if out ∧ !was then d.event 178 (d.locOf 0 0) ch else d

/-- The round runs. -/
def Dev.hkRuns (d : Dev) : Bool :=
  match d.boot.phase with
  | .up | .tripped | .trDone => true
  | _ => false

/-- Every 200 µs the next channel is converted (R355). -/
def Dev.hkConvert (d : Dev) (v : Int) : Dev :=
  if d.hkRuns ∧ d.pwr.conv < 40 then
    let ch := d.pwr.conv
    let d := d.goTo d.pwr.convAt
    let d := d.setPwr { d.pwr with conv := ch + 1, convAt := d.pwr.convAt + us 200 }
    if ch < 24 then d.convSensor ch v else if ch < 32 then d.convSupply ch v else d.convAux ch v
  else d

/-- The sensors of a group: quadrants 0–3, the central four 4. -/
def sensorGroup (g : Nat) : List Nat := if g < 4 then (List.range 5).map fun i => 5 * g + i else [20, 21, 22, 23]
def groupOfSensor (i : Nat) : Nat := if i < 20 then i / 5 else 4

/-- Insert in ascending order. -/
def ins (v : Int) : List Int → List Int
  | [] => [v]
  | x :: xs => if v ≤ x then v :: x :: xs else x :: ins v xs

/-- Twice the median. -/
def median2 (l : List Int) : Int :=
  let s := l.foldl (fun a v => ins v a) []
  match s[(s.length - 1) / 2]?, s[s.length / 2]? with
  | some a, some b => a + b
  | _, _ => 0

/-- A sensor meets a condition of R357 in this round; its group's other valid sensors are those valid before it. -/
def Dev.sensorBad (d : Dev) (i : Nat) : Bool :=
  let x := d.sensor i
  let others := ((sensorGroup (groupOfSensor i)).filter fun j => j != i && (d.sensor j).valid).map fun j =>
    (d.sensor j).temp
  decide (x.temp < -440) || decide (1200 < x.temp) ||
  (x.seen && decide (160 < dist x.temp x.prev)) ||
  (decide (2 ≤ others.length) && decide (400 < dist (2 * x.temp) (median2 others)))

/-- A sensor after the round (R357). -/
def nextSensor (x : Sensor) (bad : Bool) : Sensor :=
  let x := { x with seen := true, prev := x.temp }
  if x.failed then
    (if bad then { x with good := 0 }
     else if x.good + 1 = 16 then { x with good := 0, failed := false, valid := true }
     else { x with good := x.good + 1 })
  else if bad then { x with failed := true, valid := false, good := 0 }
  else { x with valid := true }

/-- The sensors are judged, and new failures reported. -/
def Dev.judgeSensors (d : Dev) : Dev :=
  let bad := (List.range 24).map fun i => (i, d.sensorBad i)
  let d' := bad.foldl (fun s b => s.setSensor b.1 (nextSensor (d.sensor b.1) b.2)) d
  bad.foldl (fun s b =>
    if b.2 ∧ !(d.sensor b.1).failed then
      s.fault 0x0406 0 (if b.1 < 20 then s.locOf 1 (b.1 / 5) else s.locOf 0 0) b.1
    else s) d'

/-- The highest of a list. -/
def maxInt : List Int → Option Int
  | [] => none
  | x :: xs => match maxInt xs with
    | some y => some (max x y)
    | none => some x

/-- The valid readings of some sensors. -/
def Dev.validTemps (d : Dev) (l : List Nat) : List Int :=
  (l.filter fun i => (d.sensor i).valid).map fun i => (d.sensor i).temp

/-- The value G of a group (R358). -/
def Dev.groupG (d : Dev) (g : Nat) : Option Int :=
  let l := sensorGroup g
  match maxInt (d.validTemps l) with
  | some v => if l.any fun i => (d.sensor i).failed then some (v + 80) else some v
  | none => (maxInt (d.validTemps (List.range 24))).map fun v => v + 80

/-- The governing temperature (R358); none when no sensor is valid. -/
def Dev.govTemp (d : Dev) : Option Int :=
  maxInt ((List.range 5).filterMap d.groupG)

/-! ## The ladder (R359–R361) -/

/-- The step that the ladder heads for. -/
def Dev.ladder (d : Dev) : Nat :=
  match d.pwr.thermal.getLast? with
  | some k => k
  | none => d.pwr.step

/-- Ask for a step. -/
def Dev.ladderTo (d : Dev) (k : Nat) : Dev :=
  if k = d.ladder then d else d.setPwr { d.pwr with thermal := d.pwr.thermal ++ [k] }

/-- The ladder after a round (R360). -/
def Dev.ladderRound (d : Dev) : Dev :=
  if d.pwr.nogov then (d.setPwr { d.pwr with hot := 0, cool := 0 }).ladderTo 7
  else
    let sp : Int := ((8 * d.f .pmCfg 15 8 : Nat) : Int)
    let t := d.pwr.tgov
    if sp ≤ t then
      let h := min 15 (d.pwr.hot + 1)
      let d := d.setPwr { d.pwr with hot := h, cool := 0 }
      if 2 ≤ h then d.ladderTo (min 7 (d.ladder + 1)) else d
    else if t < sp - 24 then
      if d.pwr.cool + 1 = 4 then
        let d := d.setPwr { d.pwr with hot := 0, cool := 0 }
        if d.ladder = 0 ∨ d.ladder ≤ d.f .plMin 2 0 ∨ (List.range 24).any (fun i => (d.sensor i).failed) then d
        else d.ladderTo (d.ladder - 1)
      else d.setPwr { d.pwr with hot := 0, cool := d.pwr.cool + 1 }
    else d.setPwr { d.pwr with hot := 0, cool := 0 }

/-- The end of a round: sensors, governing temperature and ladder, HK_ROUND, and the calibration temperatures (R232,
R355). With no valid sensor T_gov is a free value. -/
def Dev.hkRound (d : Dev) : Dev :=
  if d.pwr.conv = 40 then
    let d := d.setPwr { d.pwr with conv := 0 }
    let d := d.judgeSensors
    let d := match d.govTemp with
      | some t => d.setPwr { d.pwr with tgov := t, nogov := false }
      | none => (d.setPwr { d.pwr with tgov := sx 16 d.free.toNat, nogov := true }).used
    let d := d.ladderRound
    let d := d.event 177 (d.locOf 0 0) 0
    [0, 1, 2, 3].foldl Dev.calTemp d
  else d

/-- A step takes effect with all its caps (R361): DPD_CAP from the next path-block boundary, streams shed or restored,
THROTTLE. -/
def Dev.stepTo (d : Dev) (k : Nat) : Dev :=
  let d := d.setPwr { d.pwr with step := k }
  let d := (List.range 64).foldl Dev.modeChange d
  let s := d.beamShed
  let d := d.setBeamShed s
  d.event 176 (d.locOf 0 0) (k + 256 * b2n (!s.isEmpty))

/-- A waiting step takes the mutex for 2 µs as soon as it is free (R30, R352). -/
def Dev.throttleRow (d : Dev) : Dev :=
  match d.pwr.cur, d.pwr.thermal with
  | none, k :: rest =>
    let d := d.setPwr { d.pwr with
      thermal := rest, cur := some { kind := .thermal, req := { d := 0 }, ends := d.now + us 2 } }
    if k = d.pwr.step then d else d.stepTo k
  | _, _ => d

/-- PL_MIN is written: deeper than the step that the ladder heads for, the ladder moves there at once (R360). Every change
takes the mutex for 2 µs as a thermal action (R352), with the step as it is when the ladder does not move. -/
def Dev.plMinSet (d : Dev) (v : Nat) : Dev :=
  let old := d.f .plMin 2 0
  let d := d.setBits .plMin 7 v
  if d.ladder < v ∨ v ≠ old then
    (d.setPwr { d.pwr with thermal := d.pwr.thermal ++ [max v d.ladder] }).throttleRow
  else d

/-! ## Chip states (R348) -/

/-- PWR_STAT.CHIP. -/
def Dev.chipState (d : Dev) : Nat :=
  if d.boot.phase ≠ .up ∧ d.boot.phase ≠ .tripped ∧ d.boot.phase ≠ .trDone then 0
  else if d.asleep 135 then 3
  else if (List.range 8).any (fun n => d.fb (.synCtrl n) 0) ∨
          (List.range 128).any (fun c => d.windowsInUse c || !(d.bursts c).isEmpty) ∨
          (List.range 128).any d.ctxOn then 2
  else 1

/-! ## Boot, shutdown, restart (R6, R346, R347, R363, R364) -/

/-- The boot state: everything is lost but the clock, the free-value count and the JTAG TAP. -/
def Dev.bootState (d : Dev) (ph : Phase) (reason : Nat) : Dev :=
  { ({} : Dev) with
    now := d.now, fresh := d.fresh, boot := { phase := ph, reason := reason, riseAt := d.now }
    jtag := { ({} : Jtag) with ir := d.jtag.ir, boundary := d.jtag.boundary } }

/-- The chip is in SHUTDOWN (R363). -/
def Dev.isDown (d : Dev) : Bool := d.boot.phase == .shutdown

/-- PORn is low for the time of a pulse (R346); in SHUTDOWN it has no effect (R364), and a
PORn that is low already starts no pulse. -/
def Dev.pornLow (d : Dev) (p : PornPulse) : Dev :=
  if d.isDown || d.boot.phase == .held then d else
  match p with
  | .short => d
  | .between => if Config.pornActs d.fresh then d.used.bootState .held 2 else d.used
  | .full => d.bootState .held 2

/-- PORn rises: SHUTDOWN when a comparator reads 135 °C or more, else the boot sequence (R347). -/
def Dev.pornHigh (d : Dev) (hot : Bool) : Dev :=
  if d.boot.phase = .held then { d with boot := { d.boot with phase := if hot then .shutdown else .start, riseAt := d.now } }
  else d

/-- 1 ms later all five fabrics stand at 0.72 V. -/
def Dev.fabricsUp (d : Dev) : Dev :=
  if d.boot.phase = .start then
    let d := d.goTo (d.boot.riseAt + ms 1)
    { d with boot := { d.boot with phase := .fabrics } }
  else d

/-- Boot completes: CHIP reads IDLE, RESTART fires with its reason, the housekeeping round begins (R347). -/
def Dev.restart (d : Dev) : Dev :=
  if d.boot.phase = .fabrics then
    let d := { d with boot := { d.boot with phase := .up }, pwr := { d.pwr with convAt := d.now + us 200 } }
    d.fire 1 { cause := 0x0408, loc := d.locOf 0 0, detail := BitVec.ofNat 16 d.boot.reason, ts := d.ts }
  else d

/-- A comparator reads 135 °C for 10 µs: FE_PA and FE_AUX go inactive (R363). -/
def Dev.trip (d : Dev) : Dev :=
  match d.boot.phase with
  | .up | .start | .fabrics => { d with boot := { d.boot with phase := .tripped, riseAt := d.now } }
  | .held | .tripped | .trDone | .shutdown => d

/-- 200 ns later FE_TR goes to its RX level. -/
def Dev.tripTr (d : Dev) : Dev :=
  if d.boot.phase = .tripped then
    let d := d.goTo (d.boot.riseAt + ns 200)
    { d with boot := { d.boot with phase := .trDone } }
  else d

/-- 1 µs after the trip the regulators switch off: DACs OFF, lanes idle, EVENTn released, and the contents of every unit
are gone (R6). The pins keep the polarity that they had. -/
def Dev.tripDown (d : Dev) : Dev :=
  if d.boot.phase = .trDone then
    let d := d.goTo (d.boot.riseAt + us 1)
    let e := d.bootState .shutdown d.boot.reason
    { e with regs := d.regs, rf := { e.rf with polSet := d.rf.polSet } }
  else d

/-- All comparators below 100 °C for 1 s: the boot state, with the reason THERMAL (R364). -/
def Dev.coolRestart (d : Dev) : Dev := if d.isDown then d.bootState .start 3 else d

end Sys2Proof.Machine
end

