-- ==== Sys2Proof/Machine/Timebase.lean ====
section
/-! DEFINITION. The timebase: reference detection, arming, frames, SYNC_OUT, slack, and the alignment of a lattice
(R33, R43–R45, R59, R62, R65, R66). -/

namespace Sys2Proof.Machine

/-- Replace the timebase. -/
def Dev.setTb (d : Dev) (x : Tb) : Dev := { d with tb := x }

/-- TB_STATUS.STATE. -/
def TbState.code : TbState → Nat
  | .noRef => 0
  | .idle => 1
  | .armed => 2
  | .run => 3

/-- REF_SEL of a frequency. -/
def refCode : RefSel → Nat
  | .f122 => 1
  | .f245 => 2
  | .f491 => 3

/-- 20 µs after REF and IDLE are both present the timebase leaves NO_REF, and lane groups make their first attempt
(R43, R243). -/
def Dev.refFound (d : Dev) (sel : RefSel) : Dev :=
  if d.boot.phase = .up ∧ d.tb.st = .noRef then
    let d := d.setTb { d.tb with st := .idle, refSel := refCode sel }
    [0, 1, 2].foldl (fun d g =>
      let x := d.lg g
      if x.st = .listen ∧ x.attemptAt.isNone then d.setLg g { x with attemptAt := some d.now } else d) d
  else d

/-- Anything is placed on the present timeline (R44); a window that runs on after its table was replaced (R109) is. -/
def Dev.placed (d : Dev) : Bool :=
  (List.range 128).any (fun c => d.windowsInUse c || !(d.bursts c).isEmpty) ||
  (List.range 64).any (fun p => (d.tx p).cur.isSome || (d.rx p).cur.isSome) ||
  d.cmd.groups.any (fun g => g.2.st == .accepted) ||
  (List.range 128).any (fun x => (d.ctx x).slot.isSome || (d.ctx x).bound.isSome) ||
  (List.range 64).any (fun p => (d.path p).swap.isSome) ||
  (List.range 16).any (fun b => (List.range 5).any (fun s => (d.slot b s).cap.isSome) || !(d.block b).mis.isEmpty) ||
  (List.range 4).any (fun q => (d.calq q).busy) ||
  d.cmd.flight.any (fun f => f.held)

/-- A write of 1 to ARM is refused with PRECONDITION. -/
def Dev.armRefused (d : Dev) : Bool :=
  match d.tb.st with
  | .noRef => true
  | .run => d.placed
  | _ => false

/-- The timebase stops: TIMESTAMP 0, background steps withdrawn, synthesisers back in PHASE (R44). Stream samples that the ingress
store holds stay there at their chip ticks, since nothing says that they leave it (DESIGN CHOICE, log entry 40). -/
def Dev.stopTb (d : Dev) : Dev :=
  let d := d.setTb { d.tb with st := .armed, tick0At := none, syncOut := false }
  let d := [0, 1, 2, 3].foldl (fun d q => d.bgAbandon q fun _ => true) d
  (List.range 8).foldl Dev.synStop d

/-- A write of 1 to TB_CTRL.ARM (R44). -/
def Dev.armWrite (d : Dev) : Dev :=
  if d.armRefused then d
  else match d.tb.st with
    | .idle => d.setTb { d.tb with st := .armed, tick0At := none }
    | .run => d.stopTb
    | _ => d

/-- In ARMED the first FRAME edge reads FRAME_NEXT and fixes tick 0, 64 ticks on (R44, R376). -/
def Dev.armEdge (d : Dev) : Dev :=
  if d.tb.st = .armed ∧ d.tb.tick0At.isNone then
    d.setTb { d.tb with frame0 := d.f .frameNext 22 0, tick0At := some (d.now + 64) }
  else d

/-- The frame number at chip tick `t`. -/
def Dev.frameNo (d : Dev) (t : Nat) : Nat := d.lin t / Config.frameTicks % Config.frameWrap

/-- A frame marker leaves the head down the chord (R65, Table 11.8). -/
def Dev.sendMark (d : Dev) : Dev :=
  if d.role = 1 then d.push 2 1 (.lctl 3 (BitVec.ofNat 64 (d.frameNo d.now))) else d

/-- Tick 0: the timebase enters RUN, and phase measurements run (R44, R105), and live schedules take effect (R176). -/
def Dev.tbRun (d : Dev) : Dev :=
  match d.tb.st, d.tb.tick0At with
  | .armed, some t =>
    let d := d.goTo t
    let d := d.setTb { d.tb with st := .run, t0 := d.now, tick0At := none, frameOk := true, syncOut := true,
                                 edgeAt := some d.now, frameAt := d.now + Config.frameTicks }
    let d := (List.range 128).foldl Dev.runEntry d
    (List.range 8).foldl Dev.synRun d.sendMark
  | _, _ => d

/-- A FRAME edge sampled in RUN (R45). -/
def Dev.edgeRow (d : Dev) : Dev :=
  if d.running then
    let ok := decide (d.inFrame d.now = 0)
    d.setTb { d.tb with frameOk := ok, edgeAt := if ok then some d.now else d.tb.edgeAt }
  else d

/-- A frame starts: FRAME_OK, SYNC_OUT and the head's marker (R45, R65, R66). -/
def Dev.frameRow (d : Dev) : Dev :=
  if d.running then
    let t := d.tb.frameAt
    let d := d.goTo t
    let d := d.setTb { d.tb with frameOk := d.tb.edgeAt == some t, syncOut := true, frameAt := t + Config.frameTicks }
    d.sendMark
  else d

/-- 64 ticks after tick 0 SYNC_OUT goes low (R66). -/
def Dev.syncLow (d : Dev) : Dev :=
  if d.tb.syncOut then
    let d := d.goTo (d.tb.frameAt - Config.frameTicks + 64)
    d.setTb { d.tb with syncOut := false }
  else d

/-- A fabric that the present configuration asks nothing of (R59; DEDUCED, log entry 35). A quadrant fabric: no cell in use, no
enabled context on its paths, no engine at work, no busy channel, its ORXs off and no calibration. The chip fabric: no lane group
enabled and no busy channel. -/
def Dev.noDemand (d : Dev) (i : Nat) : Bool :=
  if i < 4 then
    ((List.range 128).all fun c => c % 64 / 16 != i || !(d.cellUsed c || if c < 64 then (d.tx c).cur.isSome else (d.rx (c - 64)).cur.isSome)) &&
    ((List.range 128).all fun x => !(d.ctxOn x && (d.ctxPaths x).any fun p => p / 16 == i)) &&
    ([0, 1, 2, 3].all fun e => [VeSt.halted, .faulted, .sleeping].contains (d.eng (4 * i + e)).st) &&
    ((List.range 8).all fun c => (d.chan (8 * i + c)).st == .idle || (d.chan (8 * i + c)).st == .halted) &&
    ([0, 1, 2, 3].all fun b => !d.fb (.orxCtrl (4 * i + b)) 0) && !d.fb (.calCtrl i) 31 && !(d.calq i).busy
  else ([0, 1, 2].all fun g => !d.lgEn g) && (List.range 16).all fun c => (d.chan (32 + c)).st == .idle || (d.chan (32 + c)).st == .halted

/-- The slack of a fabric as it reads: 255 without demand, else what was measured, saturating at 255 (R59). -/
def Dev.slackRead (d : Dev) (i v : Nat) : Nat := if d.noDemand i then 255 else min 255 v

/-- The slack of a fabric is reported; SLACK_LOW once below WARN, again only after WARN + 4 (R59, R62). -/
def Dev.slackRow (d : Dev) (i v : Nat) : Dev :=
  let warn := d.f .slackCfg 7 0
  let v := d.slackRead i v
  let d := d.setSlack i v
  if v < warn then
    if d.slackLow i then d
    else (d.setSlackLow i true).event (88 + i) (if i < 4 then d.locOf 1 i else d.locOf 0 0) v
  else if warn + 4 ≤ v then d.setSlackLow i false
  else d

/-! ## Lattice alignment -/

/-- A signed offset within half a frame. -/
def signedTick (v : Int) : Int :=
  let f : Int := ((Config.frameTicks : Nat) : Int)
  let m := v % f
  if 2 * m < f then m else m - f

/-- A member receives a frame marker (R65): it passes it on with its own hop added and notes its offset. -/
def Dev.markRow (d : Dev) (latSum : Nat) (word : BitVec 64) : Dev :=
  if 2 ≤ d.role then
    let sum := latSum + d.tb.hopLat
    let off := signedTick (((d.inFrame d.now : Nat) : Int) - ((sum : Nat) : Int))
    let d := if d.running then
        d.setTb { d.tb with offset := off, err := max (-127) (min 127 off), markFrame := d.frameNo d.now }
      else d
    if d.role = 2 then
      d.push 2 1 (.lctl 3 (BitVec.ofNat 64 (word.toNat % 2 ^ 23 + sum % 65536 * 2 ^ 32)))
    else d
  else d

/-- The STATUS word of a member (Table 11.8). An offset beyond the 16 bits of its field saturates (DESIGN CHOICE, log entry 40: R65
says so of ERR only). -/
def Dev.statusWord (d : Dev) : BitVec 64 :=
  BitVec.ofNat 64 (d.tb.markFrame % 2 ^ 23 + unsx 16 (satTo 16 d.tb.offset) * 2 ^ 24 + (d.role - 1) * 2 ^ 40 +
    b2n d.upOk * 2 ^ 42 + b2n d.downOk * 2 ^ 43)

/-- A STATUS word shows member `k` misaligned (R65): its offset exceeds TOL, or its frame number is that of none of the markers that
it can have seen last when it answered: from the one before the longest way there and back to the latest (DEDUCED, log entry
40). -/
def Dev.misaligned (d : Dev) (k : Nat) (w : BitVec 64) : Bool :=
  let t := max d.tb.t0 (d.now - 2 * Config.hopTicks * k)
  decide (w.toNat % 2 ^ 23 ≠ d.frameNo t ∧ w.toNat % 2 ^ 23 ≠ d.frameNo d.now) || decide (d.f .tbAlign 15 8 < (sx 16 (w.toNat / 2 ^ 24)).natAbs)

/-- The head receives a member's STATUS (R65, R188). -/
def Dev.statusRow (d : Dev) (k : Nat) (w : BitVec 64) : Dev :=
  if d.role = 1 ∧ 1 ≤ k ∧ k ≤ d.last then
    let m := d.member k
    let bad := d.running && d.misaligned k w
    let up := w.getLsbD 43
    let hop := decide (k < d.last)
    let d := d.setMember k { m with word := w, polled := true, answered := true, missed := 0, silentTold := false,
                                    misTold := bad, hopUp := hop && up,
                                    hopFail := hop && !up && (m.hopFail || m.hopUp) }
    let d := if bad ∧ !m.misTold then d.fault 0x0501 0 (tgtWord k 0 0) 0 else d
    if hop ∧ m.hopUp ∧ !up then d.fault 0x0503 0 (tgtWord k 0 0) 0 else d
  else d

/-- The head holds a hop before chip `k` as failed (R188). -/
def Dev.beyondFail (d : Dev) (k : Nat) : Bool :=
  d.lat.hop0Fail || (List.range k).any fun i => (d.member i).hopFail

/-- The ticks from the poll before member `k` to that of member `k`, of `n` members: a round takes 50 µs, 98,304 ticks, and its polls
are spaced evenly (DESIGN CHOICE, log entry 40: the spec gives the period of the round alone). -/
def pollStep (n k : Nat) : Nat := us 50 * k / n - us 50 * (k - 1) / n

/-- The head polls the next member, a full round every 50 µs; a member that missed three polls is reported (R33). -/
def Dev.pollRow (d : Dev) : Dev :=
  if d.role = 1 ∧ 1 ≤ d.last then
    let k := d.lat.next
    let d := d.goTo (d.lat.polledAt + pollStep d.last k)
    let m := d.member k
    let n := if m.polled ∧ !m.answered then m.missed + 1 else m.missed
    let told := decide (3 ≤ n) && !m.silentTold && !d.beyondFail k
    let d := d.setMember k { m with polled := true, answered := false, missed := n, silentTold := m.silentTold || told }
    let d := if told then d.fault 0x0502 0 (tgtWord k 0 0) 0 else d
    let d := { d with lat := { d.lat with next := if k < d.last then k + 1 else 1, polledAt := d.now } }
    d.push 2 1 (.lctl 1 (BitVec.ofNat 64 k))
  else d

/-- SILENT of LAT.MEMBERS (R372). -/
def Member.silent (m : Member) : Bool := !m.polled || decide (1 ≤ m.missed)

end Sys2Proof.Machine
end

