-- ==== Sys2Proof/Machine/Checks.lean ====
section
/-! DEFINITION. The software check units CU0 to CU3 (R294) and the channel state machine of the DMA (R318–R328). -/

namespace Sys2Proof.Machine

/-! ## DMA registers -/

/-- The unit of a channel: quadrants 0–3, the chip 4 (R318). -/
def dmaUnit (ch : Nat) : Nat := if ch < 32 then ch / 8 else 4

/-- A channel in TARGET form (Table 3.5). -/
def Dev.chanLoc (d : Dev) (ch : Nat) : BitVec 16 := d.locOf 6 (16 + ch)

/-- The event source of a channel (Table 14.1). -/
def chanSource (ch : Nat) : Nat := 128 + ch

/-- Fields of Table 13.1. -/
def Dev.dmaSrc (d : Dev) (ch : Nat) : Nat := (d.reg (.dmaR ch 0)).toNat
def Dev.dmaDst (d : Dev) (ch : Nat) : Nat := (d.reg (.dmaR ch 1)).toNat
def Dev.dmaCount (d : Dev) (ch : Nat) : Nat := d.f (.dmaR ch 2) 23 0
def Dev.dmaBurst (d : Dev) (ch : Nat) : Nat := d.f (.dmaR ch 3) 22 16
def Dev.dmaLink (d : Dev) (ch : Nat) : Bool := d.fb (.dmaR ch 3) 12
def Dev.dmaStream (d : Dev) (ch : Nat) : Bool := d.fb (.dmaR ch 3) 4
def Dev.dmaRetries (d : Dev) (ch : Nat) : Nat := d.f (.dmaR ch 3) 31 28
def Dev.dmaQid (d : Dev) (ch : Nat) : Nat := d.f (.dmaR ch 4) 31 27
def Dev.dmaHigh (d : Dev) (ch : Nat) : Nat := d.f (.dmaR ch 4) 26 14
def Dev.dmaLow (d : Dev) (ch : Nat) : Nat := d.f (.dmaR ch 4) 12 0

/-- A channel is running for R294: PACED, RUN or HALTED (R329). -/
def Dev.dmaBusy (d : Dev) (ch : Nat) : Bool := !((d.chan ch).st == .idle)

/-! ## Check units -/

/-- CHAN names a running chip channel: writes to the unit are ignored (R294). -/
def Dev.cuBound (d : Dev) (k : Nat) : Bool :=
  decide (d.f (.cuCfg k) 20 16 < 16) && d.dmaBusy (32 + d.f (.cuCfg k) 20 16)

/-- Feed bytes to a check unit. -/
def Dev.cuBytes (d : Dev) (k : Nat) (bs : List Byte) : Dev :=
  d.setReg (.cuVal k) (mkw (bs.foldl (crcByte (d.f (.cuCfg k) 1 0)) (d.reg (.cuVal k)).toNat))

/-- CU_INIT.INIT. -/
def Dev.cuInitGo (d : Dev) (k : Nat) : Dev :=
  if d.cuBound k then d else d.setReg (.cuVal k) (mkw (crcInit (d.f (.cuCfg k) 1 0)))

/-- CU_FEED and CU_FEED8. -/
def Dev.cuFeedGo (d : Dev) (k : Nat) (bs : List Byte) : Dev := if d.cuBound k then d else d.cuBytes k bs

/-- A write of CU_VAL. -/
def Dev.cuRestore (d : Dev) (k : Nat) (v : Word) : Dev := if d.cuBound k then d else d.setReg (.cuVal k) v

/-- CU_RES: CU_VAL XOR the final XOR, masked to the width. -/
def Dev.cuResult (d : Dev) (k : Nat) : Word :=
  let p := d.f (.cuCfg k) 1 0
  mkw (((d.reg (.cuVal k)).toNat ^^^ crcXor p) % 2 ^ crcWidth p)

/-- A beat of a chip channel feeds the units that CHAN binds to it (R329). -/
def Dev.feedBound (d : Dev) (ch : Nat) (bs : List Byte) : Dev :=
  (List.range 4).foldl
    (fun d k => if d.f (.cuCfg k) 20 16 < 16 ∧ 32 + d.f (.cuCfg k) 20 16 = ch then d.cuBytes k bs else d) d

/-! ## Pacing (R323) -/

/-- The level of queue `k` of unit `u`. -/
def Dev.pqLevel (d : Dev) (u k : Nat) : Nat := d.f (.pqLevel u k) 15 0

/-- The request of a channel after LEVEL or PACE changed: asserted from HIGH on, withdrawn from LOW down, kept between
(R323). -/
def Dev.dmaRequest (d : Dev) (ch : Nat) : Bool :=
  let q := d.dmaQid ch
  if q = 0 ∨ 16 < q then false
  else
    let l := d.pqLevel (dmaUnit ch) (q - 1)
    if d.dmaHigh ch ≤ l then true else if l ≤ d.dmaLow ch then false else (d.chan ch).req

/-- A channel follows its request: PACED with the request asserted enters RUN; between bursts, RUN with the request withdrawn
enters PACED. -/
def Dev.dmaPace (d : Dev) (ch : Nat) : Dev :=
  let x := d.chan ch
  let r := d.dmaRequest ch
  let wait := x.st == .run && x.left == 0 && !r && d.dmaQid ch != 0
  d.setChan ch { x with req := r, st := if x.st == .paced && r then .run else if wait then .paced else x.st,
                        stalled := x.stalled && !wait }

/-- The channels of a unit. -/
def unitChans (u : Nat) : List Nat :=
  if u < 4 then (List.range 8).map (8 * u + ·) else (List.range 16).map (32 + ·)

/-- LEVEL of a queue becomes `v`; the channels that name it follow. -/
def Dev.pqSet (d : Dev) (u k v : Nat) : Dev :=
  let d := d.setReg (.pqLevel u k) (mkw v)
  (unitChans u).foldl (fun d ch => if d.dmaQid ch = k + 1 then d.dmaPace ch else d) d

/-- PQ_ADD: saturating at 65,535 (Table 13.2). -/
def Dev.pqAddGo (d : Dev) (u k v : Nat) : Dev := d.pqSet u k (min 65535 (d.pqLevel u k + v))

/-! ## Start, end, halt (R319, R320, R326–R328) -/

/-- A configuration fault of R319. -/
def Dev.dmaConfigBad (d : Dev) (ch : Nat) : Bool :=
  let q := d.dmaQid ch
  decide (d.dmaSrc ch % 4 ≠ 0) || decide (d.dmaDst ch % 4 ≠ 0) || decide (d.dmaCount ch % 4 ≠ 0) ||
  decide (d.dmaBurst ch = 0) || decide (64 < d.dmaBurst ch) || decide (16 < q) ||
  (decide (q ≠ 0) && decide (d.dmaHigh ch ≤ d.dmaLow ch)) || (d.dmaLink ch && decide (ch < 32))

/-- The CAPTURE packet of a channel is closed and enters egress (R328). -/
def Dev.dmaPacket (d : Dev) (ch : Nat) : Dev :=
  let x := d.chan ch
  if x.out.isEmpty then d.setChan ch { x with bursts := 0 }
  else (d.setChan ch { x with bursts := 0, out := [] }).push 0 7
    (.capture (mkw x.outAddr) (BitVec.ofNat 8 (ch - 32)) x.out)

/-- The WAIT command of a channel gets its final reply. -/
def Dev.dmaReply (d : Dev) (ch : Nat) (r : Res) : Dev :=
  match (d.chan ch).tag with
  | some t => (d.setChan ch { d.chan ch with tag := none }).finishPart t (d.chanLoc ch).toNat r
  | none => d

/-- A channel completes (R320). -/
def Dev.dmaDone (d : Dev) (ch : Nat) : Dev :=
  let d := d.dmaPacket ch
  let d := d.setChan ch { d.chan ch with st := .idle, left := 0, abort := false, stalled := false, retry := 0, word := none }
  let d := if d.fb (.dmaR ch 3) 27 then d.event (chanSource ch) (d.chanLoc ch) 0 else d
  d.dmaReply ch (plain sOk)

/-- A channel halts with an error code at an access (R320, R326). -/
def Dev.dmaHalt (d : Dev) (ch err addr dir : Nat) : Dev :=
  let d := d.dmaPacket ch
  let d := d.setChan ch { d.chan ch with st := .halted, err := err, failAddr := addr, failDir := dir, left := 0,
                                         abort := false, stalled := false, word := none }
  d.event (chanSource ch) (d.chanLoc ch) err

/-- The checks of START, and the state that it enters (R319). The first request is that of the queue's level. -/
def Dev.dmaEnter (d : Dev) (ch : Nat) : Dev :=
  if d.dmaConfigBad ch then (d.setChan ch { d.chan ch with retry := 0 }).dmaHalt ch 3 0 0
  else (d.setChan ch { d.chan ch with
    st := if d.dmaQid ch = 0 then .run else .paced, err := 0, retry := 0, failAddr := 0, failDir := 0, left := 0,
    bursts := 0 }).dmaPace ch

/-- A write of START = 1 (R319). -/
def Dev.dmaStartGo (d : Dev) (ch : Nat) : Dev :=
  if (d.chan ch).st == .idle && decide (d.dmaCount ch ≠ 0) then d.dmaEnter ch else d

/-- A write of RESUME = 1 (R327); with COUNT 0 it changes nothing, as START does (DEDUCED, log entry 16). -/
def Dev.dmaResumeGo (d : Dev) (ch : Nat) : Dev :=
  if (d.chan ch).st == .halted && decide (d.dmaCount ch ≠ 0) then d.dmaEnter ch else d

/-- The channel is back in IDLE after an abort (R327). -/
def Dev.dmaIdle (d : Dev) (ch : Nat) : Dev :=
  let d := d.dmaPacket ch
  let d := d.setChan ch { d.chan ch with st := .idle, err := 0, retry := 0, failAddr := 0, failDir := 0, left := 0,
                                         abort := false, stalled := false, word := none }
  d.dmaReply ch (plain sAborted)

/-- A write of ABORT = 1: a beat in progress completes first (R327). -/
def Dev.dmaAbortGo (d : Dev) (ch : Nat) : Dev :=
  let x := d.chan ch
  match x.st with
  | .idle => d
  | .run => if x.left = 0 then d.dmaIdle ch else d.setChan ch { x with abort := true }
  | _ => d.dmaIdle ch

/-- A write of word `k` of a channel's registers (R319): all of them in IDLE; in HALTED also SRC, DST and COUNT; the
action bits of CTRL as its state before the write admits. -/
def Dev.dmaWrite (d : Dev) (ch k : Nat) (v : Word) : Dev :=
  let st := (d.chan ch).st
  let land := st == .idle || (st == .halted && decide (k < 3))
  let d := if land && decide (k < 5) then
      d.setBits (.dmaR ch k) (Reg.stored (.dmaR ch k)) v.toNat else d
  let d := if k = 4 ∧ st = .idle then d.dmaPace ch else d
  if k ≠ 3 then d
  else match st with
    | .idle => if bitOf v 0 then d.dmaStartGo ch else d
    | .halted => if bitOf v 3 then d.dmaAbortGo ch else if bitOf v 2 then d.dmaResumeGo ch else d
    | _ => if bitOf v 3 then d.dmaAbortGo ch else d

/-! ## Bursts and stalls (R323, R328) -/

/-- The words that wait in the VC7 egress store of group H. -/
def Dev.vc7Words (d : Dev) : Nat :=
  ((d.queueOf 0 7).map fun p => match p with
    | .capture _ _ l => l.length + 4
    | .bulkData _ _ _ l => l.length + 4
    | _ => 4).foldl (· + ·) 0

/-- The store has room for a packet of 512 words, which an empty store must have; its size is not stated (log entry 17). -/
def Dev.vc7Room (d : Dev) : Bool := decide (d.vc7Words ≤ Config.vc7Store)

/-- A channel may issue its next burst. -/
def Dev.dmaMayBurst (d : Dev) (ch : Nat) : Bool :=
  let x := d.chan ch
  x.st == .run && decide (x.left = 0)

/-- A running channel issues a burst of min(BURST, COUNT/4) beats; a link channel stalls while its packet has no room. -/
def Dev.dmaBurstRow (d : Dev) (ch : Nat) : Dev :=
  let x := d.chan ch
  if d.dmaMayBurst ch then
    (if d.dmaLink ch && !d.vc7Room then d.setChan ch { x with stalled := true }
     else d.setChan ch { x with left := min (d.dmaBurst ch) (d.dmaCount ch / 4), stalled := false })
  else d

/-- A stalled channel goes on when room appears. -/
def Dev.dmaStallEnd (d : Dev) (ch : Nat) : Dev :=
  let x := d.chan ch
  if x.stalled && d.vc7Room then d.setChan ch { x with stalled := false } else d

/-- The registers and the queue after a completed beat that moved word `w` (R318, R323, R328, R329). -/
def Dev.beatMoved (d : Dev) (ch : Nat) (w : Word) : Dev :=
  let x := d.chan ch
  let s := d.dmaSrc ch
  let d := d.setChan ch (if d.dmaLink ch
    then { x with outAddr := if x.out.isEmpty then s else x.outAddr, out := x.out ++ [w] } else x)
  let d := if d.fb (.dmaR ch 3) 8 then d.setReg (.dmaR ch 0) (mkw (s + 4)) else d
  let d := if d.fb (.dmaR ch 3) 9 && !d.dmaLink ch then d.setReg (.dmaR ch 1) (mkw (d.dmaDst ch + 4)) else d
  let d := d.setReg (.dmaR ch 2) (mkw (d.dmaCount ch - 4))
  let d := d.feedBound ch (wordBytes w)
  let q := d.dmaQid ch
  let d := d.setChan ch { d.chan ch with left := (d.chan ch).left - 1, retry := 0, word := none }
  if q = 0 then d else d.pqSet (dmaUnit ch) (q - 1) (d.pqLevel (dmaUnit ch) (q - 1) - 1)

/-- What follows a completed beat: an abort, completion, or the end of a burst (R320, R323, R327, R328). -/
def Dev.beatNext (d : Dev) (ch : Nat) : Dev :=
  let x := d.chan ch
  if d.dmaCount ch = 0 then d.dmaDone ch
  else if x.abort then d.dmaIdle ch
  else if x.left = 0 then
    let d := if x.bursts = 7 then d.dmaPacket ch else d.setChan ch { x with bursts := x.bursts + 1 }
    let x := d.chan ch
    d.setChan ch { x with st := if d.dmaQid ch ≠ 0 && !x.req then .paced else .run }
  else d

/-- A beat failed at an address (R326): a streaming channel retries a MEMORY failure, otherwise the channel halts and its
command is answered (R330). RETRY counts the failed attempts as far as its four bits go. -/
def Dev.beatFailed (d : Dev) (ch addr dir : Nat) (memory : Bool) : Dev :=
  let x := d.chan ch
  if memory && d.dmaStream ch && decide (x.retry < d.dmaRetries ch) then d.setChan ch { x with retry := x.retry + 1 }
  else if x.abort then d.dmaIdle ch
  else
    let d := d.setChan ch { x with retry := if memory then min 15 (x.retry + 1) else x.retry }
    let d := d.dmaHalt ch (if memory then 2 else 1) addr dir
    if memory then
      (match x.tag with
       | some _ => d.dmaReply ch (d.memInternal addr)
       | none => if addr < 0x1000000 then d.fault 0x0404 0 (d.locOf 0 0) 0
                 else d.fault 0x0302 (addr / 0x1000000 - 1) (d.locOf 1 (addr / 0x1000000 - 1)) 0)
    else d.dmaReply ch (refusal sBadParam 0xFFFE (d.chanLoc ch).toNat)

end Sys2Proof.Machine
end

