-- ==== Sys2Proof/Machine/Engine.lean ====
section
/-! DEFINITION. The vertex engines without their instructions: registers, faults, data cache, write buffer, control block,
images and loading (R297–R317). -/

namespace Sys2Proof.Machine

/-! ## Registers (R297) -/

/-- s0 reads 0 and ignores writes. -/
def Ve.sreg (x : Ve) (i : Nat) : Word := if i = 0 then 0 else Tbl.get (fun _ => 0) x.s i
def Ve.setS (x : Ve) (i : Nat) (w : Word) : Ve := if i = 0 then x else { x with s := Tbl.set (fun _ => 0) x.s i w }

/-- Lane `l` of vector `v`. -/
def Ve.lane (x : Ve) (v l : Nat) : Word := Tbl.get (fun _ => 0) x.v (16 * v + l)
def Ve.setLane (x : Ve) (v l : Nat) (w : Word) : Ve := { x with v := Tbl.set (fun _ => 0) x.v (16 * v + l) w }

/-- The lanes of a vector. -/
def Ve.lanes (x : Ve) (v : Nat) : List Word := (List.range 16).map (x.lane v)
def Ve.setLanes (x : Ve) (v : Nat) (l : List Word) : Ve :=
  (List.range 16).foldl (fun x i => x.setLane v i (wordAt l i)) x

/-- Accumulator `k`: I at 2k, Q at 2k + 1. -/
def Ve.acc (x : Ve) (k part : Nat) : Int := Tbl.get (fun _ => 0) x.a (2 * k + part)
def Ve.setAcc (x : Ve) (k part : Nat) (n : Int) : Ve := { x with a := Tbl.set (fun _ => 0) x.a (2 * k + part) n }

/-- The instruction memory address of PC. -/
def pcAddr (pc : Nat) : Nat := (0xF0000000 + pc) % 2 ^ 32

/-- An engine in TARGET form, and the unit number of its parts. -/
def Dev.engLoc (d : Dev) (e : Nat) : BitVec 16 := d.locOf 6 e

/-- The engine is HALTED or FAULTED. -/
def Dev.engStopped (d : Dev) (e : Nat) : Bool := (d.eng e).st == .halted || (d.eng e).st == .faulted

/-- The wake condition of R308: EVL or the request line. -/
def Dev.engWakes (d : Dev) (e : Nat) : Bool := (d.eng e).evl || (d.tgt e).line

/-! ## Memory faults -/

/-- The report of an uncorrectable error by its memory (Table 1.8, R36). -/
def Dev.memReport (d : Dev) (a : Nat) : Dev :=
  if a < 0x1000000 then d.fault 0x0404 0 (d.locOf 0 0) 0
  else d.fault 0x0302 (a / 0x1000000 - 1) (d.locOf 1 (a / 0x1000000 - 1)) 0

/-! ## Write buffer (R311) -/

/-- Write an entry into memory; a word written whole holds no error any more. -/
def Dev.putEntry (d : Dev) (w : WLine) : Dev :=
  let d := w.bytes.foldl (fun d b => { d with mem := Memory.write d.mem (w.base + b.1) b.2 }) d
  { d with bad := d.bad.filter fun a => !([0, 1, 2, 3].all fun i => w.bytes.any fun b => w.base + b.1 == a + i) }

/-- The oldest entry drains. -/
def Dev.drainOne (d : Dev) (e : Nat) : Dev :=
  let x := d.eng e
  match x.wbuf with
  | [] => d
  | w :: rest => (d.setEng e { x with wbuf := rest }).putEntry w

/-- Entries drain, oldest first, `n` of them. -/
def Dev.drainN (d : Dev) (e : Nat) : Nat → Dev
  | 0 => d
  | n + 1 => (d.drainOne e).drainN e n

/-- The whole buffer drains. -/
def Dev.drainAll (d : Dev) (e : Nat) : Dev := d.drainN e (d.eng e).wbuf.length

/-- Entries drain until none holds the line. -/
def Dev.drainLine (d : Dev) (e base : Nat) : Dev :=
  let l := (d.eng e).wbuf
  if l.any fun w => w.base == base then d.drainN e (l.length - (l.reverse.findIdx fun w => w.base == base)) else d

/-- Bytes at offsets of a line over others. -/
def overBytes (old new : List (Nat × Byte)) : List (Nat × Byte) :=
  new ++ old.filter fun b => !new.any fun n => n.1 == b.1

/-- A store enters the write buffer: into the youngest entry of the same line, else a new one; a full buffer drains its
oldest entry first. -/
def Dev.bufferStore (d : Dev) (e base : Nat) (bs : List (Nat × Byte)) : Dev :=
  let x := d.eng e
  match x.wbuf.getLast? with
  | some w =>
    if w.base = base then d.setEng e { x with wbuf := x.wbuf.dropLast ++ [{ w with bytes := overBytes w.bytes bs }] }
    else
      let d := if 8 ≤ x.wbuf.length then d.drainOne e else d
      d.setEng e { d.eng e with wbuf := (d.eng e).wbuf ++ [{ base := base, bytes := bs }] }
  | none => d.setEng e { x with wbuf := [{ base := base, bytes := bs }] }

/-! ## Data cache (R310) -/

/-- The line that holds an address. -/
def lineBase (a : Nat) : Nat := a / 64 * 64

/-- The set of a line. -/
def lineSet (base : Nat) : Nat := base / 64 % 64

/-- A cached line. -/
def Ve.cached (x : Ve) (base : Nat) : Option CLine := x.cache.find? fun c => c.base == base

/-- A line becomes the most recently used one; the least recent of more than four of its set goes. -/
def Ve.useLine (x : Ve) (c : CLine) : Ve :=
  let rest := x.cache.filter fun y => y.base != c.base
  let set := rest.filter fun y => lineSet y.base == lineSet c.base
  let gone := (set.drop 3).map fun y => y.base
  { x with cache := c :: rest.filter fun y => !gone.contains y.base }

/-- A load of the line of a shared-memory address: from the cache, else fetched and allocated once the write buffer holds
it no more; none on an uncorrectable error. -/
def Dev.cacheLoad (d : Dev) (e base : Nat) : Dev × Option (List Byte) :=
  match (d.eng e).cached base with
  | some c => (d.setEng e ((d.eng e).useLine c), some c.bytes)
  | none =>
    let d := d.drainLine e base
    if d.badAt base 16 then (d, none)
    else
      let bs := Memory.readBytes d.mem base 64
      (d.setEng e ((d.eng e).useLine { base := base, bytes := bs }), some bs)

/-- A store updates a line that is present; it counts as a use. -/
def Dev.cacheStore (d : Dev) (e base : Nat) (bs : List (Nat × Byte)) : Dev :=
  match (d.eng e).cached base with
  | some c => d.setEng e ((d.eng e).useLine { c with bytes := bs.foldl (fun l b => l.set b.1 b.2) c.bytes })
  | none => d

/-- A store to shared memory: cache and write buffer. -/
def Dev.sharedStore (d : Dev) (e a : Nat) (bs : List Byte) : Dev :=
  let l := bs.zipIdx.map fun b => (a % 64 + b.2, b.1)
  (d.cacheStore e (lineBase a) l).bufferStore e (lineBase a) l

/-- CINV (R307). -/
def Dev.cinv (d : Dev) (e : Nat) (whole : Bool) (a : Nat) : Dev :=
  let x := d.eng e
  d.setEng e { x with cache := if whole then [] else x.cache.filter fun c => c.base != lineBase a }

/-! ## Faults (R305) -/

/-- An engine faults: FAULTED, its buffer drained, VE_FAULT reported. Cause 6 was reported by the memory. -/
def Dev.engFault (d : Dev) (e cause addr : Nat) : Dev :=
  let d := d.drainAll e
  let x := d.eng e
  let d := d.setEng e { x with st := .faulted, fcause := cause, fpc := x.pc, faddr := addr, wait := .none }
  if cause = 6 then d else d.fault 0x0306 (e / 4) (d.engLoc e) cause

/-! ## Control block (Table 12.9) -/

def VeSt.code : VeSt → Nat
  | .halted => 0
  | .running => 1
  | .waiting => 2
  | .sleeping => 3
  | .faulted => 4

/-- VE_STAT. -/
def Dev.veStat (d : Dev) (e : Nat) : Word :=
  let x := d.eng e
  mkw (x.st.code + 256 * (if x.st = .faulted then x.fcause else 0) + 65536 * b2n x.evl + 0x1000000 * x.wbuf.length)

/-- A word of the control block at offset `o`; FCAUSE, VE_FPC and VE_FADDR show a present fault only (R7). -/
def Dev.engCtrl (d : Dev) (e o : Nat) : Word :=
  let x := d.eng e
  if o = 0 then d.veStat e
  else if o = 4 then mkw x.pc
  else if o = 8 then (if x.st = .faulted then mkw x.fpc else 0)
  else if o = 12 then (if x.st = .faulted then mkw x.faddr else 0)
  else if o = 16 then 1
  else if 0x100 ≤ o ∧ o < 0x180 then (if d.engStopped e then x.sreg ((o - 0x100) / 4) else 0)
  else if 0x200 ≤ o ∧ o < 0x600 then
    (if d.engStopped e then x.lane ((o - 0x200) / 64) ((o - 0x200) % 64 / 4) else 0)
  else if 0x600 ≤ o ∧ o < 0x620 then
    let n := unsx 64 (x.acc ((o - 0x600) / 16) (o % 16 / 8))
    mkw (if o % 8 = 0 then n else n / 2 ^ 32)
  else 0

/-! ## Start, halt, wake (R309, R317) -/

/-- ENG.START. -/
def Dev.engStartGo (d : Dev) (e : Nat) (pc : Option Nat) : Dev :=
  let x := d.eng e
  d.setEng e { x with st := .running, fcause := 0, fpc := 0, faddr := 0, evl := false, cache := [], wait := .none, pc := pc.getD x.pc }

/-- ENG.HALT of one engine for a command part. -/
def Dev.engHaltGo (d : Dev) (e : Nat) (tag : BitVec 8) (part : Nat) : Dev :=
  let x := d.eng e
  match x.st with
  | .halted => d.finishPart tag part (plain sOk)
  | .faulted => d.finishPart tag part (plain sOk)
  | .sleeping =>
    let d := d.setEng e { x with halts := x.halts ++ [(tag, part)] }
    if d.wakeDue (136 + e) then d else d.wakeReq (136 + e) none
  | _ =>
    let d := if x.wait = .sleep then d.wakeReq (136 + e) none else d
    let d := d.drainAll e
    (d.setEng e { d.eng e with st := .halted, wait := .none }).finishPart tag part (plain sOk)

/-- ENG.KICK sets EVL in any state. -/
def Dev.engKickGo (d : Dev) (e : Nat) : Dev := d.setEng e { d.eng e with evl := true }

/-- A WAITING engine continues when its wake condition holds; a SLEEPING one raises a wake request (R308, R309). -/
def Dev.engineWakeRow (d : Dev) (e : Nat) : Dev :=
  let x := d.eng e
  if !d.engWakes e then d
  else match x.st with
    | .waiting => (if x.wait = .sleep then d.wakeReq (136 + e) none else d).engResume e
    | .sleeping => if d.wakeDue (136 + e) then d else d.wakeReq (136 + e) none
    | _ => d

/-! ## Images (R314, R315) -/

/-- The segments of an image: DEST and data, filling the words exactly. -/
def imageSegs : Nat → List Word → Option (List (Nat × List Word))
  | 0, [] => some []
  | 0, _ => none
  | n + 1, dest :: nw :: rest =>
    if 1 ≤ nw.toNat ∧ nw.toNat ≤ 65536 ∧ nw.toNat ≤ rest.length then
      (imageSegs n (rest.drop nw.toNat)).map fun l => (dest.toNat, rest.take nw.toNat) :: l
    else none
  | _, _ => none

/-- A segment lies in instruction memory or in data memory. -/
def segOk (s : Nat × List Word) : Bool :=
  let o := s.1 - 0xF0000000
  decide (0xF0000000 ≤ s.1) && decide (o % 4 = 0) &&
  (decide (o + 4 * s.2.length ≤ 0x10000) || (decide (0x10000 ≤ o) && decide (o + 4 * s.2.length ≤ 0x40000)))

/-- No two segments overlap. -/
def segsApart : List (Nat × List Word) → Bool
  | [] => true
  | s :: l => l.all (fun r => decide (s.1 + 4 * s.2.length ≤ r.1) || decide (r.1 + 4 * r.2.length ≤ s.1)) && segsApart l

/-- The checks of an image in their order (R315): its segments and ENTRY, or the DETAIL of the first failure. -/
def engImage (len : Nat) (ws : List Word) : Except Nat (List (Nat × List Word) × Nat) :=
  let w0 := wordAt ws 0
  let n := (wordAt ws 1).toNat
  let nseg := fld (wordAt ws 2) 15 0
  let entry := (wordAt ws 3).toNat
  if fld w0 15 0 ≠ 0x7E47 ∨ fld w0 23 16 ≠ 1 then .error 0x0A11
  else if 1 < fld w0 31 24 then .error 0x0A12
  else if 4 * n ≠ len ∨ n < 5 ∨ nseg = 0 ∨ 64 < nseg then .error 0x0A13
  else match imageSegs nseg ((ws.take (n - 1)).drop 4) with
    | none => .error 0x0A13
    | some segs =>
      if (wordAt ws (n - 1)).toNat ≠ crcOf 0 (wordsBytes (ws.take (n - 1))) then .error 0x0A14
      else if !segs.all segOk ∨ !segsApart segs ∨ entry % 4 ≠ 0 ∨ 0x10000 ≤ entry then .error 0x0A15
      else .ok (segs, entry)

/-- ENG.LOAD on one engine: the first pass (R315). -/
def Dev.engLoadGo (d : Dev) (e : Nat) (tag : BitVec 8) (part addr len : Nat) : Dev :=
  if (d.eng e).load.isSome then d.finishPart tag part (plain sBusy)
  else if !d.engStopped e then d.finishPart tag part (refusal sPrecondition 0x0A01)
  else if calAddrBad addr len then d.finishPart tag part (badWord 0)
  else if d.badAt addr (len / 4) then d.finishPart tag part (d.memInternal addr)
  else match engImage len (Memory.readWords d.mem addr (len / 4)) with
    | .error c => d.finishPart tag part (refusal sPrecondition c)
    | .ok _ => (d.setEng e { d.eng e with load := some (tag, part, addr) }).note tag sAccepted

/-- The segments of which the image words before word `4 + k` are known. -/
def segsBefore : Nat → List (Nat × List Word) → List (Nat × List Word)
  | _, [] => []
  | k, s :: l => (s.1, s.2.take (k - 2)) :: segsBefore (k - 2 - s.2.length) l

/-- The second pass reads the image up to its CHECK word, writes the segments and sets PC (R315). The image is read again: words
changed since are loaded unchecked (R316); an image that no longer parses loads nothing. An uncorrectable error leaves PC, with the
words before it written. -/
def Dev.engLoadEnd (d : Dev) (e : Nat) : Dev :=
  let x := d.eng e
  match x.load with
  | none => d
  | some (tag, part, addr) =>
    let d := d.setEng e { x with load := none }
    let n := min (Memory.readWord d.mem (addr + 4)).toNat 262144
    let ws := Memory.readWords d.mem addr n
    let segs := (imageSegs (fld (wordAt ws 2) 15 0) ((ws.take (n - 1)).drop 4)).getD []
    let put (d : Dev) (l : List (Nat × List Word)) : Dev :=
      l.foldl (fun d s => if segOk s then d.storeWords (engBase e + (s.1 - 0xF0000000)) s.2 else d) d
    match (List.range (n - 1)).find? fun k => d.badAt (addr + 4 * k) 1 with
    | some k => (put d (segsBefore (k - 4) segs)).finishPart tag part (d.memInternal (addr + 4 * k))
    | none =>
      let d := put d segs
      (if segs.isEmpty then d else d.setEng e { d.eng e with pc := (wordAt ws 3).toNat / 4 * 4 % 0x10000 }).finishPart tag part
        (plain sOk)

end Sys2Proof.Machine
end

