-- ==== Sys2Proof/Machine/OrxEnd.lean ====
section
/-! DEFINITION. How ORX jobs end, and the power of an ORX (R126, R144, R145). -/

namespace Sys2Proof.Machine

/-- A commit of EN = 1 (R144). -/
def Dev.orxPowerUp (d : Dev) (b : Nat) : Dev :=
  let x := d.block b
  if x.orx = .off then d.setBlock b { x with orx := .starting, orxAt := d.now, stop := false }
  else d.setBlock b { x with stop := false }

/-- A commit of EN = 0: at once, or at the end of the job in progress (R144). -/
def Dev.orxPowerDown (d : Dev) (b : Nat) : Dev :=
  let x := d.block b
  if x.orx = .busy then d.setBlock b { x with stop := true }
  else (d.setBlock b { x with orx := .off, orxJob := none, stop := false }).orxFlush b

/-- ORX_OVR of a block (Table 14.1). A fault that a command met raises no event (R34): ORX.CAPTURE has the flag in its
capture, a calibration step ends its run or update (Table 9.3), and MISMATCH.MEAS has no result field for it. -/
def Dev.orxOvrReport (d : Dev) (b : Nat) (who : OrxWho) (ovr : Bool) : Dev :=
  let told := match who with
    | .capture s => decide (s = 0) && (d.slotTag b).isSome
    | _ => true
  if ovr && !told then d.fault 0x0201 (b / 4) (d.locOf 2 b) 0 else d

/-- The step of a unit that starts at a tick. -/
def Dev.stepAt (d : Dev) (u : CalUnit) (start : Nat) : Option CalStep :=
  (d.calq (calQuad u)).steps.find? fun y => y.unit == u && y.start == start

/-- When the job in progress of a block ends, if that is known. The duration of a step holds the input switch of its job
(R219), which ends by the step's start (R224): the job ends one switch before the step does, so that the job of the next step
can be granted in time when the steps follow each other without pause, as Table 9.2 shows (DEDUCED, log entry 13). -/
def Dev.orxEndsAt (d : Dev) (b : Nat) : Option Nat :=
  let x := d.block b
  match x.orxJob with
  | none => none
  | some j =>
    match j.who with
    | .capture s =>
      (match (d.slot b s).cap with
       | some c => c.t0.map fun t => t + capL c.w0
       | none => none)
    | .mismatch tag =>
      (x.mis.find? fun m => m.tag == tag).map fun m => x.orxAt + m.n + 2 * Config.orxSwitch
    | .cal u start => (d.stepAt u start).map fun y => start + calTicks y.kind - Config.orxSwitch

/-- The intervals in which the job in progress of a block converts, last tick excluded: a capture from T0, a mismatch
measurement after each of its switches, a step after the switch of its job. -/
def Dev.orxConverts (d : Dev) (b : Nat) : List (Nat × Nat) :=
  let x := d.block b
  match x.orxJob, d.orxEndsAt b with
  | some j, some e =>
    (match j.who with
     | .capture s => ((d.slot b s).cap.bind fun c => c.t0).toList.map fun t => (t, e)
     | .mismatch tag => ((x.mis.find? fun m => m.tag == tag).toList.flatMap fun m =>
         [(x.orxAt + Config.orxSwitch, x.orxAt + Config.orxSwitch + m.n / 2), (e - m.n / 2, e)])
     | .cal _ start => [(start, e)])
  | _, _ => []

/-- An ORX conversion of a tick or of the half-tick after it is over-range: its I or Q code is saturated (R133, R145). -/
def orxSat (b t : Nat) : Bool :=
  [2 * t, 2 * t + 1].any fun h =>
    [(Config.orxSample b h).1, (Config.orxSample b h).2].any fun v => v.toNat / 16 == 0x7FF || v.toNat / 16 == 0x800

/-- The running capture of a block has met an over-range conversion before tick `t` (R145). -/
def Dev.orxOvr (d : Dev) (b t : Nat) : Bool :=
  (d.orxConverts b).any fun x => (List.range (min t x.2 - x.1)).any fun i => orxSat b (x.1 + i)

/-- An ORX job completes and goes back to its requester, flagged when over-range (R126, R145). -/
def Dev.orxJobEnd (d : Dev) (b : Nat) (r : OrxResult) : Dev :=
  match (d.block b).orxJob, d.orxEndsAt b with
  | some j, some t =>
    let d := d.goTo t
    let ovr := d.orxOvr b t
    let d := match j.who with
      | .capture s =>
        (match (d.slot b s).cap with
         | some c => (d.setSlot b s { d.slot b s with cap := some { c with ovr := ovr } }).orxRelease b
         | none => d.orxRelease b)
      | .mismatch tag =>
        (match (d.block b).mis.find? fun (m : Mis) => m.tag == tag with
         | some m =>
           ((d.setBlock b { d.block b with mis := (d.block b).mis.filter fun m => m.tag != tag }).orxRelease b).finishPart
             tag (d.locOf 3 m.path).toNat (okWords [r.w0, r.w1])
         | none => d.orxRelease b)
      | .cal u start => (d.orxRelease b).calJobEnd u start ovr
    d.orxOvrReport b j.who ovr
  | _, _ => d

/-- A job that measures nothing from outside ends of itself. -/
def Dev.orxEndsItself (d : Dev) (b : Nat) : Bool :=
  match (d.block b).orxJob with
  | some j => (match j.who with
    | .mismatch _ => false
    | _ => (d.orxEndsAt b).isSome)
  | none => false

end Sys2Proof.Machine
end

