-- ==== Sys2Proof/Machine/Flags.lean ====
section
/-! DEFINITION. Status fields: what the units show in their registers (the RO and unit-held fields of every field map),
and the words a read returns. -/

namespace Sys2Proof.Machine

/-! ## Identity and capabilities (R85, R95, R96) -/

/-- The capability entries of stepping A1: ID and body (Table 3.13). -/
def capEntries : List (Nat × List Nat) :=
  [ (0x1, [410000, 7125000, 64 * 65536 + 64]),
    (0x2, [7125000, 15350000]),
    (0x3, [0xF + 4 * 256]),
    (0x4, [8 + 0xF * 256 + 8 * 65536]),
    (0x5, [9 + 8 * 256 + 64 * 65536 + 16 * 0x1000000, 4]),
    (0x6, [0xF + 16 * 256]),
    (0x7, [7 + 16 * 256]),
    (0x8, [32 + 64 * 256 + 1024 * 65536]),
    (0x9, [16 + 0x21 * 256 + 26 * 65536 + 0x1000000]),
    (0xA, [1 + 16 * 256, 64 + 192 * 65536]),
    (0xB, [4096 + 32 * 65536 + 64 * 0x1000000, 1024]),
    (0xC, [8, 15360, 983040]) ]

/-- The words of the chain from offset `o`, each entry at VERSION 1. -/
def capChain : Nat → List (Nat × List Nat) → List Nat
  | _, [] => []
  | o, e :: rest =>
    let next := o + 8 + 4 * e.2.length
    ((e.2.length * 0x1000000 + 0x10000 + e.1) :: (if rest.isEmpty then 0 else next) :: e.2) ++ capChain next rest

/-- A word of the identity window. -/
def identWord (w : Nat) : Word :=
  if w = 0 then 0x00000E5A
  else if w = 1 then 0x00006464
  else if w = 2 then 0x00000011
  else if w = 3 then 0x00000100
  else if w < 64 then 0
  else mkw ((capChain 0x100 capEntries).getD (w - 64) 0)

/-! ## Staging (Table 3.11) -/

def GState.code : GState → Nat
  | .empty => 0
  | .opened => 1
  | .accepted => 2

/-- Number of fields staged in a group. -/
def Dev.fieldsIn (d : Dev) (g : Nat) : Nat := (d.cmd.staged.filter fun f => f.grp == g).length

/-- The boundary TIMESTAMP of an ACCEPTED group; 0 otherwise. -/
def Dev.grpBoundary (d : Dev) (g : Nat) : Nat :=
  if (d.grp g).st = .accepted then (d.tsAt (d.grp g).bnd).toNat else 0

/-! ## Synthesisers and cells -/

def SynSt.code : SynSt → Nat
  | .off => 0
  | .wait => 1
  | .bandcal => 2
  | .settle => 3
  | .phase => 4
  | .ready => 5
  | .unlocked => 6

def TxSeq.code : TxSeq → Nat
  | .gap => 0
  | .prep => 1
  | .queued => 2
  | .on => 3
  | .tail => 4
  | .dark => 5

def OrxSt.code : OrxSt → Nat
  | .off => 0
  | .starting => 1
  | .idle => 2
  | .busy => 3

/-- CELL_SEQ of a cell (Table 4.4). -/
def Dev.cellSeqWord (d : Dev) (c : Nat) : Nat :=
  let st := if c < 64 then (d.tx c).seq.code else if (d.rx (c - 64)).on then 3 else 0
  st + 256 * (d.bursts c).length

/-- ADC_STAT or DAC_STAT (Tables 5.7, 5.8). The state of a DAC pair that a calibration step holds is not stated: a free
value (log entry 18). -/
def Dev.convWord (d : Dev) (c : Nat) : Nat :=
  if c < 64 then (if (d.tx c).held then d.free.toNat % 4 else d.dacState c)
  else
    let x := d.rx (c - 64)
    x.adc.code + 16 * b2n x.ovr + 32 * b2n x.nbr

/-- Present levels of 32 pins. -/
def pinWord (f : Nat → Bool) (base : Nat) : Nat := (List.range 32).foldl (fun n i => n + b2n (f (base + i)) * 2 ^ i) 0

/-- ORX_STAT. -/
def Dev.orxWord (d : Dev) (b : Nat) : Nat :=
  let x := d.block b
  let src := match x.orxJob with
    | some j => j.src
    | none => 0
  b2n (d.orxOvr b (d.now + 1)) + 16 * (src % 8) + 256 * x.orx.code

/-- RFFE_STAT. -/
def Dev.rffeWord (d : Dev) (b : Nat) : Nat :=
  match (d.block b).rffeJob with
  | some j => 1 + 4 * (j.cls % 4)
  | none => 0

/-! ## Carriers, contexts, paths -/

/-- CARR_STAT. -/
def Dev.carrWord (d : Dev) (c k : Nat) : Nat :=
  let x := d.carrOf c k
  if c < 64 then d.txBlockKind c k
  else (match x.last with
    | some (_, code) => code % 4
    | none => 0) + 16 * b2n x.sat

/-- CTX_STAT. -/
def Dev.ctxStatWord (d : Dev) (x : Nat) : Nat :=
  let c := d.ctx x
  let slot := match c.slot with
    | some w => if w.held then 2 else 1
    | none => 0
  let k := if d.ctxTx x then d.txKindSat x else (c.kind, c.sat)
  k.1 % 4 + 16 * b2n k.2 + 256 * b2n c.fading + 512 * b2n c.bound.isSome + 65536 * slot

/-- CTX_ENTRY. -/
def Dev.ctxEntryWord (d : Dev) (x : Nat) : Nat :=
  let c := d.ctx x
  c.entry + 65536 * (if c.fading then c.from_ else c.entry)

/-- CTX_SCNT. -/
def Dev.ctxScntWord (d : Dev) (x : Nat) : Nat :=
  let c := d.ctx x
  let n (w : Option Swap) : Nat := match w with
    | some w => w.points.length
    | none => 0
  c.live.length + 256 * n c.bound + 65536 * n c.slot

/-- A schedule readback word (Table 7.2). -/
def Dev.schedWord (d : Dev) (x r k : Nat) : Nat :=
  let c := d.ctx x
  let pts (w : Option Swap) : List (Nat × Nat) := match w with
    | some w => w.points
    | none => []
  let l := match r with
    | 0 => c.live
    | 1 => pts c.bound
    | _ => pts c.slot
  match l[k]? with
  | some p => p.2 + 65536 * p.1
  | none => 0

/-- DPD_STAT and PP_STAT (Table 8.6). -/
def Dev.dpdStatWord (d : Dev) (p : Nat) : Nat :=
  let x := d.path p
  let bound := match x.swap with
    | some s => s.bound
    | none => false
  x.bankErr + 16 * x.gkind + 256 * b2n x.lock + 512 * b2n bound + 1024 * x.store + 4096 * d.effMode p d.now +
    65536 * d.liveSeq p
def Dev.ppStatWord (d : Dev) (p : Nat) : Nat := d.ppFlags p

/-! ## Calibration (Table 9.6) -/

/-- CAL_STAT. -/
def Dev.calStatWord (d : Dev) (q : Nat) : Nat :=
  let x := d.calq q
  b2n x.busy + 2 * b2n (x.steps.any fun y => y.bg && y.running) + 4 * b2n x.tvalid + 65536 * unsx 16 x.temp

/-- CAL_BGNOW: the update in progress of lowest UNIT and KIND. -/
def Dev.calBgnowWord (d : Dev) (q : Nat) : Nat :=
  match (d.calq q).bg with
  | [] => 0
  | u :: _ =>
    let placed := (d.calq q).steps.any fun y => y.bg && y.unit == u.task.unit && y.kind == u.task.kind
    0x80000000 + 0x40000000 * b2n placed + 0x1000000 * u.task.kind + 65536 * u.task.done + calIndex u.task.unit

/-- The cell of a TARGET index. -/
def cellOf (c : Nat) : CalUnit := if h : c < 128 then .cell ⟨c, h⟩ else .cell 0
def orxOf (b : Nat) : CalUnit := if h : b < 16 then .orx ⟨b, h⟩ else .orx 0

/-- The number of points of a unit and kind. -/
def Dev.calNpts (d : Dev) (u : CalUnit) (k : Nat) : Nat := ((d.calq (calQuad u)).points u k).length

/-- CAL_PTS of a path. -/
def Dev.calPtsWord (d : Dev) (p : Nat) : Nat :=
  let t := cellOf p
  let r := cellOf (64 + p)
  d.calNpts r 3 + 16 * d.calNpts r 2 + 256 * d.calNpts r 1 +
    65536 * d.calNpts t 6 + 0x100000 * d.calNpts t 5 + 0x1000000 * d.calNpts t 4

/-- The CAL_MATCH bit of a cell. -/
def Dev.calMatchBit (d : Dev) (c : Nat) : Bool :=
  let u := cellOf c
  let recs := (d.calq (calQuad u)).store.filter fun r => r.unit == u && !r.pts.isEmpty
  !recs.isEmpty && recs.all fun r => r.freq == d.calFreq u

/-- CAL_MATCH. -/
def Dev.calMatchWord (d : Dev) (q : Nat) : Nat :=
  (List.range 16).foldl (fun n j => n + b2n (d.calMatchBit (16 * q + j)) * 2 ^ j +
    b2n (d.calMatchBit (64 + 16 * q + j)) * 2 ^ (16 + j)) 0

/-! ## Link, packets, hub, power -/

def LgSt.code : LgSt → Nat
  | .off => 0
  | .listen => 1
  | .train => 2
  | .run => 3
  | .rate => 4

/-- LG_STAT. -/
def Dev.lgStatWord (d : Dev) (g : Nat) : Nat :=
  let x := d.lg g
  d.seqNow g + 65536 * b2n (d.peerAsleep g) + 0x20000 * b2n x.txsleep + 0x1000000 * x.rate + 0x10000000 * x.st.code

/-- LANE_STAT. -/
def Dev.laneStatWord (d : Dev) (n : Nat) : Nat :=
  let x := d.lane n
  b2n x.ready + 2 * b2n x.comma + 4 * b2n x.blk + 8 * b2n x.los + 256 * (x.eye % 256) + 65536 * (x.ctle % 32) +
    0x1000000 * (d.skewOf n % 256)

/-- The bytes that a bulk request takes in the VC7 ingress store: its packet (R290, R292). -/
def BulkJob.bytes (j : BulkJob) : Nat := 8 * (3 + (j.data.length + 1) / 2)

/-- The bytes of the requests in the store. -/
def Dev.bulkHeld (d : Dev) : Nat := (d.link.bulk.map BulkJob.bytes).foldl (· + ·) 0

/-- PKT_STAT. -/
def Dev.pktStatWord (d : Dev) : Nat :=
  b2n (d.framed 0) + 2 * b2n (d.framed 1) + 4 * b2n (d.framed 2) + 65536 * ((65536 - d.bulkHeld) / 64)

/-- SRC_Q. -/
def Dev.srcQWord (d : Dev) (s : Nat) : Nat :=
  let x := d.src s
  x.q.length + 256 * b2n x.lost + 0x1000000 * x.owner

/-- The words of an event target after THRESH, CLAIM and DONE (Table 14.5). -/
def Dev.tgtWordOf (d : Dev) (t k : Nat) : Nat :=
  let x := d.tgt t
  let info : Nat := match x.info with
    | some (_, r, lost) =>
      (match k with
       | 3 => r.loc.toNat + 65536 * r.cause.toNat
       | 4 => r.detail.toNat + 0x80000000 * b2n lost
       | 5 => r.ts.toNat % 2 ^ 32
       | _ => r.ts.toNat / 2 ^ 32)
    | none => 0
  if k = 7 then x.claims.length + 65536 * x.ann + 0x80000000 * b2n x.line else info

/-- PWR_STAT. -/
def Dev.pwrStatWord (d : Dev) : Nat :=
  d.chipState + 16 * b2n d.pwr.cur.isSome + 256 * d.pwr.step + 0x1000000 * (d.pwr.shed.filter d.ctxOn).length

/-- PS_STAT w. -/
def Dev.psStatWord (d : Dev) (w : Nat) : Nat :=
  (List.range 16).foldl (fun n i => n + (if 16 * w + i < 152 then d.psCode (16 * w + i) else 0) * 2 ^ (2 * i)) 0

/-- HK_GOV, HK_TEMP, HK_SUP (Table 15.5). -/
def Dev.hkGovWord (d : Dev) : Nat :=
  unsx 16 d.pwr.tgov + 65536 * b2n d.pwr.nogov + 0x1000000 * min 15 d.pwr.hot + 0x10000000 * min 15 d.pwr.cool
def Dev.hkTempWord (d : Dev) (i : Nat) : Nat := unsx 16 (d.sensor i).temp + 65536 * b2n (d.sensor i).valid
def Dev.hkSupWord (d : Dev) (r : Nat) : Nat :=
  (d.supply r).mv + 65536 * b2n (d.supply r).inRange + 0x20000 * b2n (d.supply r).nom33

/-! ## Channel registers (Table 13.1) -/

def DmaSt.code : DmaSt → Nat
  | .idle => 0
  | .paced => 1
  | .run => 2
  | .halted => 3

/-- STAT, FAIL_ADDR, FAIL_DIR and CTRL.START of a channel. -/
def Dev.dmaWord (d : Dev) (ch k : Nat) : Nat :=
  let x := d.chan ch
  match k with
  | 3 => b2n (d.dmaBusy ch)
  | 5 => x.st.code + 256 * x.err + 0x1000 * b2n x.req + 0x10000 * x.retry
  | 6 => x.failAddr
  | 7 => x.failDir
  | _ => 0

/-! ## Reads -/

/-- The latch number of a port (R46). Commands that reach a member over VC1 use the latch of the lanes, as VC0 does (DESIGN CHOICE,
log entry 40: R46 names VC0 and the JTAG path). A bulk request has one for its duration. -/
def portLatch : Port → Nat
  | .cmd .vc0 => 0
  | .cmd .vc1 => 0
  | .cmd .jtag => 1
  | .engine e => 2 + e.val
  | .dma ch => 18 + ch.val
  | .bulk => 66

/-- What the units show in a register: its RO and unit-held fields. -/
def Dev.unitWord (d : Dev) (p : Port) (r : Reg) : Nat :=
  match r with
  | .ident w => (identWord w).toNat
  | .cgStat g => (d.grp g).st.code + 65536 * min 65535 (d.fieldsIn g)
  | .cgBndLo g => d.grpBoundary g % 2 ^ 32
  | .cgBndHi g => d.grpBoundary g / 2 ^ 32
  | .tbStatus => d.tb.refSel + 4 * d.tb.st.code + 16 * b2n d.tb.frameOk
  | .tsLo => d.ts.toNat % 2 ^ 32
  | .tsHi => if d.running then d.latch (portLatch p) else 0
  | .slack0 => d.slack 0 + 0x100 * d.slack 1 + 0x10000 * d.slack 2 + 0x1000000 * d.slack 3
  | .slack1 => d.slack 4
  | .tbAlign => unsx 8 (max (-127) (min 127 d.tb.err)) + 65536 * (d.tb.hopLat % 65536)
  | .enW w => (d.arrayWord (fun s => s.en) w).toNat
  | .pendW w => (d.arrayWord (fun s => !s.q.isEmpty) w).toNat
  | .actW w => (d.arrayWord (fun s => s.act) w).toNat
  | .srcQ s => d.srcQWord s
  | .tgt t k => if k = 1 then d.claimValue t else if 3 ≤ k then d.tgtWordOf t k else 0
  | .dmaR ch k => d.dmaWord ch k
  | .pwrStat => d.pwrStatWord
  | .psStat w => d.psStatWord w
  | .hkGov => d.hkGovWord
  | .hkTemp i => d.hkTempWord i
  | .hkSup i => d.hkSupWord i
  | .hkAux a => (d.auxMon a).mv
  | .fabV0 => d.fabV 0 + 0x100 * d.fabV 1 + 0x10000 * d.fabV 2 + 0x1000000 * d.fabV 3
  | .fabV1 => d.fabV 4
  | .lgStat g => d.lgStatWord g
  | .lgMask g => (d.lg g).txmask + 65536 * d.rxok g
  | .lgPeer g => (d.lg g).peerTx + 65536 * (d.lg g).peerRxok
  | .lgPeerId g => (d.lg g).peerChip
  | .lgShed g => ((d.lg g).shed.filter d.ctxOn).length
  | .laneStat n => d.laneStatWord n
  | .laneDfe n t => unsx 8 (Tbl.get (fun _ => 0) (d.lane n).dfe t)
  | .pktStat => d.pktStatWord
  | .cuRes k => (d.cuResult k).toNat
  | .chordStat => b2n d.upOk + 2 * b2n d.downOk
  | .fePaPins i => pinWord d.fePa (32 * i)
  | .feTrPins i => pinWord d.feTr (32 * i)
  | .feAuxPins => pinWord (fun b => decide (b < 16) && d.feAuxPin b) 0
  | .synStat n => (d.syn n).st.code + 16 * b2n (d.syn n).lock + 256 * (d.syn n).div
  | .synPhase n => (d.syn n).corr
  | .ctxStat x => d.ctxStatWord x
  | .ctxEntry x => d.ctxEntryWord x
  | .ctxScnt x => d.ctxScntWord x
  | .sched x k i => d.schedWord x k i
  | .dpdSwap q => 0x80000000 * b2n (d.path q).swap.isSome
  | .dpdStat q => d.dpdStatWord q
  | .ppStat q => d.ppStatWord q
  | .calStat q => d.calStatWord q
  | .calBgnow q => d.calBgnowWord q
  | .calPts q => d.calPtsWord q
  | .calPtsOrx b => d.calNpts (orxOf b) 0
  | .calMatch q => d.calMatchWord q
  | .divStat k => (d.divp k).sel + 256 * (d.divp k).margin + 65536 * b2n (d.divp k).detected
  | .orxStat b => d.orxWord b
  | .rffeStat b => d.rffeWord b
  | .txCtl b s => 256 * d.rffeRes b s
  | .capMap b => (List.range 8).foldl (fun n r => n + d.region b r * 4 ^ r) 0
  | .cctl b s => 256 * (d.slot b s).result + 0x1000 * (d.slot b s).region + 0x10000 * (d.slot b s).status
  | .cellSeq c => d.cellSeqWord c
  | .convStat c => d.convWord c
  | .carrStat c k => d.carrWord c k
  | _ => 0

/-- The word that a read of a register returns (R2). -/
def Dev.regWord (d : Dev) (p : Port) (r : Reg) : Word :=
  mkw (((d.reg r).toNat &&& r.stored) ||| (d.unitWord p r &&& r.bits fun a => a == .ro || a == .lvu))

end Sys2Proof.Machine
end

