-- ==== Sys2Proof/Machine/Stage.lean ====
section
/-! DEFINITION. Staged copies and commit groups (R86–R93). -/

namespace Sys2Proof.Machine

/-! ## Fields -/

/-- A register word in which each ST field shows its staged copy (R3). -/
def Dev.stagedWord (d : Dev) (r : Reg) (w : Word) : Word :=
  r.stFields.foldl (fun w f => match d.stagedOf r.addr f.lo with
    | some s => withField w f.lo f.width s.val
    | none => w) w

/-! ## Groups -/

/-- Replace the staged fields. -/
def Dev.setStaged (d : Dev) (l : List SField) : Dev := { d with cmd := { d.cmd with staged := l } }

/-- A group that is not ACCEPTED is OPEN while it holds fields, EMPTY otherwise (R86). -/
def Dev.regroup (d : Dev) (g : Nat) : Dev :=
  let x := d.grp g
  if x.st = .accepted then d
  else if d.fieldsIn g = 0 then d.setGrp g {} else d.setGrp g { x with st := .opened }

/-- Stage one field in a group, out of the group that it was in (R86). -/
def Dev.stageField (d : Dev) (g a : Nat) (f : FieldD) (v : Word) : Dev :=
  let old := (d.stagedOf a f.lo).map fun s => s.grp
  let s : SField := { addr := a, lo := f.lo, width := f.width, grp := g, val := v.toNat / 2 ^ f.lo % 2 ^ f.width }
  let d := d.setStaged (d.cmd.staged.filter (fun x => !(x.addr == a && x.lo == f.lo)) ++ [s])
  let d := d.regroup g
  match old with
  | some o => if o = g then d else d.regroup o
  | none => d

/-- Group `g` is ACCEPTED, or a field of the register belongs to a group that is (R87, R92). -/
def Dev.frozen (d : Dev) (r : Reg) : Bool :=
  r.stFields.any fun f => match d.stagedOf r.addr f.lo with
    | some s => (d.grp s.grp).st == .accepted
    | none => false

/-- A write of the ST fields of a register into group `g`; refused when something of it is frozen (R87, R93). -/
def Dev.stageReg (d : Dev) (g : Nat) (r : Reg) (v : Word) : Dev :=
  if (d.grp g).st = .accepted ∨ d.frozen r then d
  else r.stFields.foldl (fun d f => d.stageField g r.addr f v) d

/-- Empty a group and drop its staged copies (R87). -/
def Dev.dropGroup (d : Dev) (g : Nat) : Dev :=
  (d.setStaged (d.cmd.staged.filter fun f => f.grp != g)).setGrp g {}

end Sys2Proof.Machine
end

