-- ==== Sys2Proof/Machine/RegAccess.lean ====
section
/-! DEFINITION. Reads and writes of the register space by every port (R2–R4, R83, R84, R300, R304, R321). -/

namespace Sys2Proof.Machine

/-! ## Reads -/

/-- Instruction memory is reached from outside only while its engine is HALTED or FAULTED (R300). -/
def Dev.imemOpen (d : Dev) (e : Nat) : Bool := d.engStopped e

/-- The word at an address as a read of this moment returns it. A capture region that is FILLING reads undefined (R210): a
free value. -/
def Dev.peek (d : Dev) (p : Port) (a : Nat) : Word :=
  match placeAt a with
  | .reg r => d.regWord p r
  | .chipMem => Memory.readWord d.mem a
  | .quadMem _ => Memory.readWord d.mem a
  | .capture b =>
    if d.region b ((a - capBase b) / 0x4000) = 1 then mkw (Config.freeWord (d.fresh + a)).toNat
    else Memory.readWord d.mem a
  | .imem _ => Memory.readWord d.mem a
  | .dmem _ => Memory.readWord d.mem a
  | .ctrl e o => d.engCtrl e o
  | .reserved => 0
  | .unmapped => 0

/-- What a read does besides: the latch of TS_HI (R46) and a claim (R335). -/
def Dev.readAct (d : Dev) (p : Port) (a : Nat) : Dev :=
  match placeAt a with
  | .reg .tsLo => d.setLatch (portLatch p) (d.ts.toNat / 2 ^ 32)
  | .reg (.tgt t 1) => d.claimRead t
  | .capture b => if d.region b ((a - capBase b) / 0x4000) = 1 then d.used else d
  | _ => d

/-- Read a word. -/
def Dev.readWord (d : Dev) (p : Port) (a : Nat) : Dev × Word := (d.readAct p a, d.peek p a)

/-- Read words at rising addresses. -/
def Dev.readRange (d : Dev) (p : Port) : Nat → Nat → Dev × List Word
  | _, 0 => (d, [])
  | a, n + 1 =>
    let r := d.readWord p a
    let rest := r.1.readRange p (a + 4) n
    (rest.1, r.2 :: rest.2)

/-! ## Writes -/

/-- PS_REQ: a request for a domain 0–135, the precondition judged on the projected state; one that fails is ignored
(R350). -/
def Dev.psReqGo (d : Dev) (n : Nat) (sleep : Bool) : Dev :=
  if 135 < n then d else if sleep then d.sleepReq d.projectAll n none else d.wakeReq n none

/-- DPD_SWAP (R204, R209): REQ = 1 requests, 0 cancels; a write that is ignored leaves BANK. -/
def Dev.dpdSwapWrite (d : Dev) (p : Nat) (v : Word) : Dev :=
  let x := d.path p
  let bound : Bool := match x.swap with
    | some s => s.bound
    | none => false
  if bound ∨ (bitOf v 31 ∧ x.lock) then d
  else
    let d := d.setBits (.dpdSwap p) 1 v.toNat
    if bitOf v 31 then d.swapRequest p (fld v 0 0) none else d.swapCancel p

/-- The parts of a register write that act at once: RW and LV fields, then the actions of the word (R2). -/
def Dev.writeLive (d : Dev) (r : Reg) (v : Word) : Dev :=
  match r with
  | .tbCtrl => if bitOf v 0 then d.armWrite else d
  | .enW w => arrayWrite Dev.enBit d w v
  | .pendW w => arrayWrite Dev.pendBit d w v
  | .actW w => arrayWrite Dev.actBit d w v
  | .enSet => d.setEn (fld v 8 0) true
  | .enClr => d.setEn (fld v 8 0) false
  | .pendSet => d.pendSet (fld v 8 0)
  | .pendClr => d.pendClr (fld v 8 0)
  | .tgt t k => if k = 2 then d.complete t (fld v 8 0) else d
  | .dmaR ch k => d.dmaWrite ch k v
  | .pqLevel u k => d.pqSet u k (fld v 15 0)
  | .pqAdd u k => d.pqAddGo u k (fld v 15 0)
  | .plMin => d.plMinSet (fld v 2 0)
  | .psReq => d.psReqGo (fld v 8 0) (bitOf v 31)
  | .cuInit k => if bitOf v 0 then d.cuInitGo k else d
  | .cuVal k => d.cuRestore k v
  | .cuFeed k => d.cuFeedGo k (wordBytes v)
  | .cuFeed8 k => d.cuFeedGo k [v.extractLsb' 0 8]
  | .dpdSwap p => d.dpdSwapWrite p v
  | .txCtl b s => if bitOf v 0 then d.rffeGo b s else d
  | .cctl b s => if bitOf v 0 then d.capGo b s else d
  | .capRel b => d.capRelease b (fld v 7 0)
  | _ => d.setBits r (r.bits fun a => a == .rw || a == .lv) v.toNat

/-- Write a word; ST fields land in group `g`, or nowhere when there is none (R2, R86, R93). -/
def Dev.writeWord (d : Dev) (g : Option Nat) (a : Nat) (v : Word) : Dev :=
  match placeAt a with
  | .reg r =>
    let d := match g with
      | some g => d.stageReg g r v
      | none => d
    d.writeLive r v
  | .chipMem => d.storeWords a [v]
  | .quadMem _ => d.storeWords a [v]
  | .imem e => if d.imemOpen e then d.storeWords a [v] else d
  | .dmem _ => d.storeWords a [v]
  | .capture _ => d
  | .ctrl _ _ => d
  | .reserved => d
  | .unmapped => d

/-- Write words at rising addresses. -/
def Dev.writeRange (d : Dev) (g : Option Nat) : Nat → List Word → Dev
  | _, [] => d
  | a, w :: ws => (d.writeWord g a w).writeRange g (a + 4) ws

/-- The group of ST writes by a port (R93); a command's staged part is the command's own affair. -/
def portGroup : Port → Option Nat
  | .engine _ => some 15
  | .dma _ => some 15
  | _ => none

/-- A write of one register word by a port (R2). A bulk request reaches no register (R291). -/
def Dev.portWrite (d : Dev) (p : Port) (a : Nat) (v : Word) : Dev :=
  if p = .bulk then d else d.writeWord (portGroup p) a v

/-! ## DMA beats (R321, R326) -/

/-- A read by a channel finds an address that it may read. -/
def Dev.dmaReadOk (d : Dev) (a : Nat) : Bool :=
  match placeAt a with
  | .imem e => d.imemOpen e
  | .unmapped => false
  | _ => true

/-- A write by a channel finds an address that it may write. -/
def Dev.dmaWriteOk (d : Dev) (a : Nat) : Bool :=
  match placeAt a with
  | .imem e => d.imemOpen e
  | .ctrl _ _ => false
  | .capture _ => false
  | .unmapped => false
  | _ => true

/-- A beat is in progress. -/
def Dev.beatRuns (d : Dev) (ch : Nat) : Bool :=
  let x := d.chan ch
  x.st == .run && decide (0 < x.left)

/-- The next beat would fail for its addresses: the read, then the write. -/
def Dev.beatReadBad (d : Dev) (ch : Nat) : Bool := !d.dmaReadOk (d.dmaSrc ch)
def Dev.beatWriteBad (d : Dev) (ch : Nat) : Bool := !d.dmaLink ch && !d.dmaWriteOk (d.dmaDst ch)

/-- A memory, which alone can hold an uncorrectable error. -/
def isMemory (a : Nat) : Bool :=
  match placeAt a with
  | .chipMem => true
  | .quadMem _ => true
  | .capture _ => true
  | .imem _ => true
  | .dmem _ => true
  | _ => false

/-- The source word of the present beat is there: it has been read, or its read meets no error. -/
def Dev.beatReadOk (d : Dev) (ch : Nat) : Bool :=
  (d.chan ch).word.isSome || (!d.beatReadBad ch && !d.badAt (d.dmaSrc ch) 1)

/-- The source read of a beat; a beat whose write is retried has done it (R326). -/
def Dev.beatWord (d : Dev) (ch : Fin 48) : Dev × Word :=
  match (d.chan ch.val).word with
  | some w => (d, w)
  | none => d.readWord (.dma ch) (d.dmaSrc ch.val)

/-- A beat completes (R322, R328): the source is read, the word written or sent, the registers advance. -/
def Dev.beatRow (d : Dev) (ch : Fin 48) : Dev :=
  let c := ch.val
  if d.beatRuns c && d.beatReadOk c && !d.beatWriteBad c then
    let r := d.beatWord ch
    let e := if r.1.dmaLink c then r.1 else r.1.portWrite (.dma ch) (r.1.dmaDst c) r.2
    if e.beatRuns c then (e.beatMoved c r.2).beatNext c else e
  else d

/-- The read of a beat fails (R326): for its address, or for an uncorrectable error of the memory there. -/
def Dev.readFails (d : Dev) (ch : Nat) (err : BeatErr) : Bool :=
  (d.chan ch).word.isNone && (match err with
    | .address => d.beatReadBad ch
    | .memory => isMemory (d.dmaSrc ch) && !d.beatReadBad ch)

/-- The write of a beat fails (R326); its source read has returned (R322). -/
def Dev.writeFails (d : Dev) (ch : Nat) (err : BeatErr) : Bool :=
  d.beatReadOk ch && !d.dmaLink ch && (match err with
    | .address => d.beatWriteBad ch
    | .memory => isMemory (d.dmaDst ch) && !d.beatWriteBad ch)

/-- A beat fails at its read or at its write; a failed write comes after the source read, whose word a retry writes again. -/
def Dev.beatFailRow (d : Dev) (ch : Fin 48) (write : Bool) (err : BeatErr) : Dev :=
  let c := ch.val
  if d.beatRuns c then
    if write then
      (if d.writeFails c err then
        let r := d.beatWord ch
        let e := r.1.setChan c { r.1.chan c with word := some r.2 }
        if e.beatRuns c then e.beatFailed c (e.dmaDst c) 1 (err == .memory) else e
       else d)
    else if d.readFails c err then d.beatFailed c (d.dmaSrc c) 0 (err == .memory) else d
  else d

end Sys2Proof.Machine
end

