-- ==== Sys2Proof/Machine/Rules.lean ====
section
/-! DEFINITION. The agreement rules of a commit (R89 and the rule tables of each chapter). -/

namespace Sys2Proof.Machine

/-- What a register's ST fields belong to, as the rule tables name it. -/
inductive Area where
  | table (t : Nat) | win (c : Nat) | lo (c : Nat) | keep (c : Nat) | fe | feMode (p : Nat) | syn (n : Nat)
  | div (k : Nat) | rffe (b : Nat) | orx (b : Nat) | chain (c : Nat) | carr (c k : Nat) | ctx (x : Nat)
  | pp (p : Nat) | pulse (q : Nat) | cal (q : Nat) | lg (g : Nat) | lane (n : Nat) | vc (v : Nat)
  | pm | pl | lat | other
deriving DecidableEq, Repr

/-- The area of a register. -/
def Reg.area : Reg → Area
  | .btCtrl t | .btEntry t _ => .table t
  | .winCtrl c | .winStart c _ | .winLen c _ => .win c
  | .cellLo c => .lo c
  | .convCfg c => if c < 64 then .other else .keep c
  | .feBudget | .fePaLead | .fePaLag | .feTrLead | .feTrLag => .fe
  | .feMode p => .feMode p
  | .synFreq n | .synCtrl n => .syn n
  | .divCtrl k | .divDet k | .divSeq k _ => .div k
  | .rffeCfg b | .timed b _ _ => .rffe b
  | .orxCtrl b | .orxAtt b => .orx b
  | .chainCfg c => .chain c
  | .carrCfg c k | .carrBridge c k | .carrNco c k | .carrPhase c k | .carrGain c k => .carr c k
  | .ctxCfg x | .ctxLo x | .ctxHi x => .ctx x
  | .pathCfg p | .cfrCfg p | .dpdCfg p | .dpdGrd p => .pp p
  | .pulseLen q _ | .pulseTap q _ _ => .pulse q
  | .calCtrl q | .calBgper q => .cal q
  | .calClass p => .cal (p / 16)
  | .lgCfg g => .lg g
  | .laneCtrl n => .lane n
  | .vcChk v => .vc v
  | .pmCfg => .pm
  | .plStep _ => .pl
  | .latCfg => .lat
  | _ => .other

/-- What a group's rules are evaluated on: the live state, the projected state at the boundary without and with the group,
the boundary tick (none outside RUN), the path of its command and the registers that it touches. -/
structure Env where
  live : Dev
  old : Dev
  new : Dev
  bnd : Option Nat
  path : Path
  regs : List Reg

def Env.touch (e : Env) (p : Area → Bool) : Bool := e.regs.any fun r => p r.area

/-- The field `hi:lo` of a register changes. -/
def Env.changed (e : Env) (r : Reg) (hi lo : Nat) : Bool := decide (e.old.f r hi lo ≠ e.new.f r hi lo)

/-- Any bit of a register changes. -/
def Env.diff (e : Env) (r : Reg) : Bool := e.old.reg r != e.new.reg r

/-- The location of the first failing unit; a rule with no unit gives the chip (Table 3.4a). -/
def Env.unit (e : Env) (level : Nat) (i : Nat) : Nat := (e.live.locOf level i).toNat
def Env.chip (e : Env) : Nat := e.unit 0 0
def Env.fails (e : Env) (level : Nat) (l : List Nat) (bad : Nat → Bool) : Option Nat :=
  (l.find? bad).map (e.unit level)
def Env.failsChip (e : Env) (bad : Bool) : Option Nat := if bad then some e.chip else none

/-- The tick lies at a multiple of 16 sample periods of a rate code; a reserved code sets no condition. -/
def onBlock (d : Dev) (t code : Nat) : Bool :=
  decide (code = 0) || decide (d.inFrame t % (16 * period code) = 0)

/-- Two intervals that repeat with period `p` overlap. -/
def onCircle (p : Nat) (a : Int) (la : Nat) (b : Int) (lb : Nat) : Bool :=
  decide (0 < la) && decide (0 < lb) && (decide ((b - a) % (p : Int) < la) || decide ((a - b) % (p : Int) < lb))

/-- Two single intervals overlap. -/
def onLine (a : Int) (la : Nat) (b : Int) (lb : Nat) : Bool :=
  decide (0 < la) && decide (0 < lb) && decide (a < b + lb) && decide (b < a + la)

/-- An interval as its first tick, counted from tick 0 of the timeline, and its length. -/
abbrev Span := Int × Nat

/-- The active interval of a window of a cell (R110, R131). -/
def Dev.activeOf (d : Dev) (c : Nat) (w : Nat × Nat) : Span :=
  ((w.1 : Int) - d.leadOf c, w.2 + d.leadOf c + d.lagOf c)

/-- The windows of a cell's own table, and their active intervals. -/
def Dev.winSpans (d : Dev) (c : Nat) : List Span := (d.winList c).map fun w => ((w.1 : Int), w.2)
def Dev.activeSpans (d : Dev) (c : Nat) : List Span := (d.winList c).map (d.activeOf c)

/-- The windows and active intervals of the pending bursts of a cell. -/
def Dev.burstSpan (d : Dev) (b : Burst) : Span := ((b.start : Int) - d.tb.t0, b.len)
def Dev.burstActive (d : Dev) (c : Nat) (b : Burst) : Span :=
  ((b.start : Int) - d.tb.t0 - d.leadOf c, b.len + d.leadOf c + d.lagOf c)

/-- A span meets one of a table's spans. -/
def meetsTable (p : Nat) (s : Span) (l : List Span) : Bool :=
  decide (p ≠ 0) && l.any fun x => onCircle p s.1 s.2 x.1 x.2
/-- A span meets one of some single spans. -/
def meetsAny (s : Span) (l : List Span) : Bool := l.any fun x => onLine s.1 s.2 x.1 x.2

/-- Two elements of a list, earlier and later, satisfy `p`. -/
def anyPair {α : Type} (p : α → α → Bool) : List α → Bool
  | [] => false
  | x :: xs => xs.any (p x) || anyPair p xs

/-! ## Chapter 2 -/

/-- Whether a boundary table breaks rule 0x2001 + `i` (Table 2.8). -/
def Dev.tableBad (d : Dev) (t : Nat) (i : Nat) : Bool :=
  let n := d.btCount t
  let es := List.range (min n 512)
  match i with
  | 0 => decide (n = 0) || decide (512 < n) || decide (d.btPeriod t = 0)
  | 1 => decide (d.btTick t 0 ≠ 0) || decide (d.btKind t 0 ≠ 2)
  | 2 => es.any fun k => decide (0 < k) && decide (d.btTick t k ≤ d.btTick t (k - 1))
  | 3 => decide (d.btPeriod t ≤ d.btTick t (min n 512 - 1))
  | _ => es.any fun k => d.btKind t k == 0 || d.btKind t k == 3

def Env.rule2 (e : Env) (i : Nat) : Option Nat :=
  e.failsChip ((List.range 16).any fun t => e.touch (fun a => a == .table t) && e.new.tableBad t i)

/-! ## Chapters 4 and 5 -/

/-- A commit that evaluates Table 4.6 (R113, R123, R132). -/
def isRf : Area → Bool
  | .win _ | .lo _ | .keep _ | .fe | .feMode _ | .syn _ | .div _ => true
  | _ => false

/-- Rules 0x4001 to 0x4003 for one cell. -/
def Dev.bad4001 (d : Dev) (c : Nat) : Bool := decide (32 < d.f (.winCtrl c) 5 0) || decide (d.winPeriod c = 0)
def Dev.bad4002 (d : Dev) (c : Nat) : Bool :=
  (d.winList c).any fun w => decide (w.1 % 16 ≠ 0) || decide (w.2 % 16 ≠ 0) || decide (w.2 < 16) ||
    decide (d.winPeriod c < w.1 + w.2)
def Dev.bad4003 (d : Dev) (c : Nat) : Bool :=
  let p := d.winPeriod c
  let l := d.activeSpans c
  anyPair (fun a b => decide (b.1 ≤ a.1)) (d.winSpans c) || l.any (fun a => decide (p < a.2)) ||
    anyPair (fun a b => onCircle p a.1 a.2 b.1 b.2) l

/-- Rule 0x4004 for one path. -/
def Dev.bad4004 (d : Dev) (p : Nat) : Bool :=
  let t := d.activeSpans p
  let r := d.winSpans (64 + p)
  !d.fdd p && !t.isEmpty && !r.isEmpty &&
    (decide (d.winPeriod p ≠ d.winPeriod (64 + p)) || t.any fun a => meetsTable (d.winPeriod p) a r)

/-- Rule 0x4005 for the bursts of one cell and, on the TX cell of a TDD path, for its path. -/
def Dev.bad4005 (d : Dev) (c : Nat) : Bool :=
  let mine := (d.bursts c).map (d.burstActive c)
  let rx := c + 64
  let theirs := (d.bursts rx).map d.burstSpan
  (mine.any fun a => meetsTable (d.winPeriod c) a (d.activeSpans c)) ||
  anyPair (fun a b => onLine a.1 a.2 b.1 b.2) mine ||
  (decide (c < 64) && !d.fdd c &&
    ((theirs.any fun w => meetsTable (d.winPeriod c) w (d.activeSpans c) || meetsAny w mine) ||
     mine.any fun a => meetsTable (d.winPeriod rx) a (d.winSpans rx)))

/-- The boundary lies in an active interval of a cell, live or projected (R113). -/
def Env.inActive (e : Env) (f : Dev → Dev) (c : Nat) : Bool :=
  match e.bnd with
  | some t => (f e.live).busyIn c t (t + 1) || (f e.new).busyIn c t (t + 1)
  | none => false

/-- Rule 0x4006 for one cell. -/
def Env.bad4006 (e : Env) (c : Nat) : Bool :=
  let synCh (n : Nat) : Bool := e.diff (.synFreq n) || e.diff (.synCtrl n)
  (e.diff (.cellLo (e.new.tableCell c)) || e.diff (.feMode (c % 64)) || synCh (e.old.synOf c) || synCh (e.new.synOf c)) &&
    e.inActive id c

def Dev.bad4007 (d : Dev) (n : Nat) : Bool :=
  d.fb (.synCtrl n) 0 && (decide (d.f (.synFreq n) 23 0 < 410000) || decide (15350000 < d.f (.synFreq n) 23 0))
def Dev.bad4008 (d : Dev) : Bool :=
  decide (d.trLead < 394) || decide (d.trLag < 197) || decide (d.f .feBudget 6 0 = 0) || decide (64 < d.f .feBudget 6 0)

/-- Rule 0x4009 for pair `k`. -/
def Dev.bad4009 (d : Dev) (k : Nat) : Bool :=
  let n := d.f (.divCtrl k) 10 0
  d.fb (.divCtrl k) 31 && (decide (n < 64) || decide (1024 < n) || decide (d.f (.divDet k) 31 16 < n))

/-- Rule 0x400A for block `b`. -/
def Dev.bad400A (d : Dev) (b : Nat) : Bool :=
  decide (d.f (.rffeCfg b) 7 0 < 38) || decide (d.f (.rffeCfg b) 15 8 < d.f (.rffeCfg b) 7 0) ||
  (List.range 16).any fun n => d.fb (.timed b n 2) 24 &&
    (let w := d.reg (.timed b n 0)
     !(Machine.txKind w == 1 || Machine.txKind w == 2 || Machine.txKind w == 4) || decide (4 < txN w))

/-- Rule 0x5001 for RX cell `c`: the lead is 4,916 ticks whatever KEEP is. -/
def Env.bad5001 (e : Env) (c : Nat) : Bool :=
  e.changed (.convCfg c) 0 0 && e.inActive (fun d => d.setReg (.convCfg (d.tableCell c)) 0) c

/-- Rule 0x5003 for the ORX of block `b`. -/
def Env.bad5003 (e : Env) (b : Nat) : Bool :=
  !e.old.fb (.orxCtrl b) 0 && e.new.fb (.orxCtrl b) 0 &&
    (let t := e.bnd.getD e.live.now
     (e.live.calq (b / 4)).steps.any fun y => calOrx y.kind && decide (y.unit ∈ blockUnits b) &&
       decide (t ≤ y.start + Config.orxStart) && decide (y.start ≤ t + Config.orxStart))

/-! ## Chapter 6 -/

/-- A commit that evaluates Table 6.6 (R167). -/
def isChain : Area → Bool
  | .chain _ | .carr _ _ | .win _ | .div _ => true
  | _ => false

/-- The enabled carriers of a cell. -/
def Dev.carrsOn (d : Dev) (c : Nat) : List Nat := (List.range 8).filter (d.carrOn c)

def Dev.bad6001 (d : Dev) (c : Nat) : Bool :=
  (d.carrsOn c).any fun k => decide (d.rate c k = 0) || decide (d.f (.carrBridge c k) 15 0 < 15)
def Dev.bad6002 (d : Dev) (c : Nat) : Bool :=
  decide (128 < ((d.carrsOn c).map fun k => 128 / period (d.rate c k)).sum)
/-- |F| counts 100 Hz; 0.4 × 1,966.08 MHz / P is 7,864,320 / P of them. -/
def Dev.bad6003 (d : Dev) (c : Nat) : Bool :=
  (d.carrsOn c).any fun k =>
    let f := (sx 24 (d.f (.carrNco c k) 23 0)).natAbs
    decide (8000000 * period (d.rate c k) < f * period (d.rate c k) + 7864320)
/-- Rule 0x6004 for a window of START `s` and length `n` on RX cell `c`. -/
def Dev.offRaster (d : Dev) (c s n : Nat) : Bool :=
  let m := ((d.carrsOn c).map fun k => 16 * period (d.rate c k)).foldl max 1
  decide (s % m ≠ 0) || decide (n % m ≠ 0)
def Dev.bad6004 (d : Dev) (c : Nat) : Bool :=
  (d.winList c).any (fun w => d.offRaster c w.1 w.2) ||
    (d.bursts c).any fun b => d.offRaster c (d.inFrame b.start) b.len
def Env.bad6005 (e : Env) (c : Nat) : Bool :=
  match e.bnd with
  | none => false
  | some t => (List.range 8).any fun k =>
      (e.changed (.carrCfg c k) 31 31 || e.changed (.carrCfg c k) 26 24) &&
      (e.old.carrOn c k || e.new.carrOn c k) &&
      !(onBlock e.live t (e.old.rate c k) && onBlock e.live t (e.new.rate c k))
/-- Rule 0x6006 for pair `k`. -/
def Dev.bad6006 (d : Dev) (k : Nat) : Bool :=
  let a := 64 + 2 * k
  let i := d.f (.divCtrl k) 26 24
  d.fb (.divCtrl k) 31 &&
    (d.carrOn a i != d.carrOn (a + 1) i || d.rate a i != d.rate (a + 1) i ||
     d.reg (.carrNco a i) != d.reg (.carrNco (a + 1) i) || d.reg (.carrPhase a i) != d.reg (.carrPhase (a + 1) i))

/-! ## Chapter 7 -/

/-- An enabled context uses carrier `k` of cell `c`. -/
def Dev.ctxUses (d : Dev) (x c k : Nat) : Bool :=
  d.ctxOn x && d.ctxCarrier x == k && d.ctxTx x == decide (c < 64) && d.ctxHas x (c % 64)

/-- A chain field of a carrier that a context of `l` uses, before or after. -/
def Env.touchUsed (e : Env) (p : Nat → Bool) : Bool :=
  e.touch fun a => match a with
    | .carr c k => (List.range 128).any fun x => p x && (e.old.ctxUses x c k || e.new.ctxUses x c k)
    | _ => false

def isCtx : Area → Bool
  | .ctx _ => true
  | _ => false

/-- A commit that evaluates Table 7.4 (R182). -/
def Env.streams (e : Env) : Bool := e.touch isCtx || e.touchUsed fun _ => true

def isLat : Area → Bool
  | .lat => true
  | _ => false
def isDiv : Area → Bool
  | .div _ => true
  | _ => false
def isPl : Area → Bool
  | .pl => true
  | _ => false

/-- Rule 0x7001 for one context. -/
def Dev.bad7001 (d : Dev) (x : Nat) : Bool :=
  let k := d.ctxCarrier x
  let cells := (d.ctxPaths x).map (d.ctxCell x)
  let same := match cells with
    | [] => true
    | c :: cs => cs.all fun y => d.rate y k == d.rate c k && d.f (.carrCfg y k) 19 16 == d.f (.carrCfg c k) 19 16
  d.ctxOn x && (decide (1 < d.ctxMode x) || cells.isEmpty || !(cells.all fun c => d.carrOn c k) || !same)

/-- Rates of the enabled contexts of a direction that satisfy `p`, in units of 15.36 MS/s. -/
def Dev.unitsOf (d : Dev) (tx : Bool) (p : Nat → Bool) : Nat :=
  (((List.range 128).filter fun x => d.ctxOn x && d.ctxTx x == tx && p x).map d.ctxUnits).sum

def Dev.bad7003 (d : Dev) (x : Nat) : Bool :=
  (bitList 64 (d.ctxMask x) ++ if d.ctxMode x = 1 then d.ctxPaths x else []).any fun p => decide (p % 2 = 1) && d.paired p

/-- The group on which a direction's chord traffic leaves; one that has none takes that of its arrival (R187). -/
def Dev.chordGroup (d : Dev) (tx : Bool) : Nat :=
  if tx then (if d.role = 3 then 1 else 2) else (if d.role = 1 then 2 else 1)

def Dev.bad7004 (d : Dev) (x : Nat) : Bool :=
  d.ctxChord x && (decide (d.ctxMode x ≠ 0) || decide (d.role = 0))
def Dev.chordOver (d : Dev) (tx : Bool) : Bool :=
  decide (d.role ≠ 0) && decide (chordLimit (d.lgRate (d.chordGroup tx)) < d.unitsOf tx d.ctxChord)

/-- The rate code of a context that is enabled and has an enabled carrier; 0 otherwise. -/
def Dev.liveRate (d : Dev) (x : Nat) : Nat :=
  match d.ctxLead x with
  | some c => if d.carrOn c (d.ctxCarrier x) then d.rate c (d.ctxCarrier x) else 0
  | none => 0

/-- Bits of CTX_CFG whose change rule 0x7005 binds: all but PRIO, COMP and SCALE. -/
def Env.ctxShape (e : Env) (x : Nat) : Bool :=
  e.old.ctxOn x != e.new.ctxOn x || e.old.ctxTx x != e.new.ctxTx x || e.old.ctxMode x != e.new.ctxMode x ||
  e.old.ctxChord x != e.new.ctxChord x || e.old.ctxCarrier x != e.new.ctxCarrier x ||
  e.changed (.ctxCfg x) 21 16 || e.diff (.ctxLo x) || e.diff (.ctxHi x)

def Env.bad7005 (e : Env) (x : Nat) : Bool :=
  match e.bnd with
  | none => false
  | some t => e.ctxShape x && !(onBlock e.live t (e.old.liveRate x) && onBlock e.live t (e.new.liveRate x))

/-! ## Chapters 8 and 9 -/

def isPp : Area → Bool
  | .pp _ | .pulse _ => true
  | _ => false

def Dev.bad8001 (d : Dev) (p : Nat) : Bool :=
  let lvl := sx 8 (d.f (.cfrCfg p) 15 8)
  d.fb (.cfrCfg p) 31 &&
    (decide (d.f (.cfrCfg p) 5 0 < 30) || decide (34 < d.f (.cfrCfg p) 5 0) || decide (lvl < -160) || decide (0 < lvl))
def Dev.bad8002 (d : Dev) (q : Nat) : Bool :=
  (List.range 4).any fun t =>
    decide (d.f (.pulseLen q t) 7 0 = 0) || decide (128 < d.f (.pulseLen q t) 7 0) || d.reg (.pulseTap q t 0) != 0x4000

/-! ## Chapters 10 and 11 -/

/-- The lanes that each group may have in a role (Table 10.1). -/
def roleLanes (role g : Nat) : Nat :=
  match role, g with
  | 0, 0 => 0xFFFF
  | 1, 0 => 0x00FF
  | 1, 2 => 0xFF00
  | 2, 1 => 0x00FF
  | 2, 2 => 0xFF00
  | 3, 1 => 0x00FF
  | _, _ => 0

/-- The projected state with the move that its role makes (R243). -/
def Env.moved (e : Env) : Dev := e.new.roleMove e.old.role

def isLink : Area → Bool
  | .lg _ | .lane _ | .lat => true
  | _ => false

def Dev.badA001 (d : Dev) (g : Nat) : Bool := d.lgEn g && (decide (d.lgRate g = 3) || decide (d.lanes g = 0))
def Dev.badA002 (d : Dev) (g : Nat) : Bool :=
  d.lgEn g && (decide (roleLanes d.role g = 0) || decide (d.lanes g &&& roleLanes d.role g ≠ d.lanes g))
def Dev.badA003 (d : Dev) (n : Nat) : Bool := decide (15 < d.f (.laneCtrl n) 2 0 + d.f (.laneCtrl n) 7 4)

/-- The group by which a command arrived (R267); VC1 reaches a chip in the boot state on group H. -/
def Dev.arrivalGroup (d : Dev) : Path → Option Nat
  | .vc0 => some (if d.hostSide then 0 else 1)
  | .vc1 => some d.upGroup
  | .jtag => none

def Env.badA004 (e : Env) : Bool :=
  match e.live.arrivalGroup e.path with
  | none => false
  | some g =>
    let en := e.changed (.lgCfg g) 31 31
    let r := e.changed (.lgCfg g) 17 16
    let l := e.changed (.lgCfg g) 15 0
    (r || l) && decide (1 < b2n en + b2n r + b2n l)

/-- Rule 0xB001: VC_CHK of VC0 or VC1 changes beside something else. -/
def Env.badB001 (e : Env) : Bool :=
  [0, 1].any fun v => e.diff (.vcChk v) && e.regs.any fun r => r != .vcChk v && e.diff r

def isVc : Area → Bool
  | .vc _ => true
  | _ => false

/-- TXMASK of group H decides, or its projected LANES while it has none outside RUN (R296). -/
def Env.noMask (e : Env) : Bool := !e.live.groupRun 0 && decide ((e.live.lg 0).txmask = 0)

/-- A commit that evaluates rule 0xB002 (R89, R296). -/
def Env.rxStreams (e : Env) : Bool :=
  (e.touch fun a => match a with
    | .ctx x => !e.old.ctxTx x || !e.new.ctxTx x
    | .vc _ => true
    | .lg 0 => e.noMask
    | .lat => true
    | _ => false) ||
  e.touchUsed fun x => !e.old.ctxTx x || !e.new.ctxTx x

def Env.badB002 (e : Env) : Bool :=
  let d := e.new
  let m := if e.noMask then e.moved.lanes 0 else (e.live.lg 0).txmask
  let r := if e.noMask then e.moved.lgRate 0 else (e.live.lg 0).rate
  decide (d.role ≤ 1) &&
    !(fitsC (((d.streamOrder false).filter d.countsH).map d.wireRate).sum r (popcount 16 m))

/-! ## Chapters 15 and 16 -/

/-- The location of a power domain (Table 15.3). -/
def Env.domLoc (e : Env) (n : Nat) : Nat :=
  if n < 128 then e.unit 3 n else if n < 132 then e.unit 1 (n - 128)
  else if 136 ≤ n then e.unit 6 (n - 136) else e.chip

/-- The group changes its EN or RATE, with which it leaves RUN. -/
def Env.leavesRun (e : Env) (g : Nat) : Bool := e.changed (.lgCfg g) 31 31 || e.changed (.lgCfg g) 17 16

/-- Rule 0xD001: the precondition of a sleep-held domain is broken. -/
def Env.ruleD001 (e : Env) : Option Nat :=
  ((List.range 152).find? fun n => (e.live.dom n).held &&
    (!e.new.sleepCfg n || (decide (132 ≤ n) && decide (n < 135) && e.leavesRun (n - 132)))).map e.domLoc

def Dev.badD002 (d : Dev) : Bool := decide (d.f .pmCfg 15 8 < 85) || decide (125 < d.f .pmCfg 15 8)
def Dev.badD003 (d : Dev) : Bool :=
  (List.range 8).any fun k =>
    let f (k hi lo : Nat) : Nat := d.f (.plStep k) hi lo
    decide (60 < f k 29 24) || decide (f k 17 16 = 3) || decide (32 < f k 13 8) || decide (f k 6 0 = 0) ||
    decide (64 < f k 6 0) ||
    (decide (0 < k) && (decide (f (k - 1) 29 24 < f k 29 24) || decide (f (k - 1) 17 16 < f k 17 16) ||
      decide (f (k - 1) 13 8 < f k 13 8) || decide (f (k - 1) 6 0 < f k 6 0)))

/-- Rule 0xD101 for a direction, and 0xD102 for a path. -/
def Dev.badD101 (d : Dev) (tx : Bool) : Bool := decide (32 * d.beamCap < d.unitsOf tx fun _ => true)
def Dev.badD102 (d : Dev) (p : Nat) : Bool := decide (d.f (.plStep d.pwr.step) 17 16 < d.f (.dpdCfg p) 1 0)

def Dev.badE001 (d : Dev) : Bool :=
  let c := d.chipNo
  let n := d.last
  match d.role with
  | 0 => decide (c ≠ 0) || decide (n ≠ 0)
  | 1 => decide (c ≠ 0) || decide (n = 0)
  | 2 => decide (c = 0) || decide (n ≤ c)
  | _ => decide (c ≠ n) || decide (n = 0)
def Dev.badE002 (d : Dev) (x : Nat) : Bool := decide (2 ≤ d.role) && d.ctxOn x && !d.ctxChord x
def Env.badE003 (e : Env) : Bool :=
  e.diff .latCfg && ((List.range 128).any fun c =>
    e.new.windowsInUse c || !(e.new.bursts c).isEmpty || e.new.ctxOn c)

/-! ## All rules -/

def cells : List Nat := List.range 128
def paths : List Nat := List.range 64
def rxCells : List Nat := (List.range 64).map (64 + ·)

/-- Apply a rule only when the group involves one of its fields (R89). -/
def onlyIf (c : Bool) (r : Option Nat) : Option Nat := if c then r else none

/-- The agreement rules in ascending code, each with the location of its first failing unit. -/
def Env.rules (e : Env) : List (Nat × Option Nat) :=
  let n := e.new
  let rf := e.touch isRf
  let ch := e.touch isChain
  let st := e.streams
  let tc (p : Area → Bool) := e.touch p
  [(0x2001, e.rule2 0), (0x2002, e.rule2 1), (0x2003, e.rule2 2), (0x2004, e.rule2 3), (0x2005, e.rule2 4),
   (0x4001, onlyIf rf (e.fails 3 cells n.bad4001)),
   (0x4002, onlyIf rf (e.fails 3 cells n.bad4002)),
   (0x4003, onlyIf rf (e.fails 3 cells n.bad4003)),
   (0x4004, onlyIf rf (e.fails 3 paths n.bad4004)),
   (0x4005, onlyIf rf (e.fails 3 cells n.bad4005)),
   (0x4006, onlyIf rf (e.fails 3 cells e.bad4006)),
   (0x4007, onlyIf rf ((List.range 8).find? n.bad4007 |>.map fun i => e.unit 6 (64 + i))),
   (0x4008, onlyIf rf (e.failsChip n.bad4008)),
   (0x4009, onlyIf (tc isDiv) ((List.range 32).find? n.bad4009 |>.map fun k => e.unit 2 (k / 2))),
   (0x400A, onlyIf (tc fun a => match a with | .rffe _ => true | _ => false) (e.fails 2 (List.range 16) n.bad400A)),
   (0x5001, onlyIf (tc fun a => match a with | .keep _ => true | _ => false) (e.fails 3 rxCells e.bad5001)),
   (0x5002, onlyIf (tc fun a => match a with | .keep _ => true | .div _ => true | _ => false)
     (e.fails 3 rxCells fun c => decide (c % 2 = 1) && n.paired (c - 64) && n.keep c)),
   (0x5003, onlyIf (tc fun a => match a with | .orx _ => true | _ => false) (e.fails 2 (List.range 16) e.bad5003)),
   (0x6001, onlyIf ch (e.fails 3 cells n.bad6001)),
   (0x6002, onlyIf ch (e.fails 3 cells n.bad6002)),
   (0x6003, onlyIf ch (e.fails 3 cells n.bad6003)),
   (0x6004, onlyIf ch (e.fails 3 rxCells n.bad6004)),
   (0x6005, onlyIf ch (e.fails 3 cells e.bad6005)),
   (0x6006, onlyIf ch ((List.range 32).find? n.bad6006 |>.map fun k => e.unit 3 (64 + 2 * k))),
   (0x7001, onlyIf st (e.fails 4 cells n.bad7001)),
   (0x7002, onlyIf st (e.failsChip ([false, true].any fun t => decide (1024 < n.unitsOf t fun _ => true)))),
   (0x7003, onlyIf (st || tc isDiv) (e.fails 4 cells n.bad7003)),
   (0x7004, onlyIf (st || tc isLink)
     (match e.fails 4 cells n.bad7004 with
      | some a => some a
      | none => e.failsChip ([false, true].any n.chordOver))),
   (0x7005, onlyIf st (e.fails 4 cells e.bad7005)),
   (0x8001, onlyIf (tc isPp) (e.fails 3 paths n.bad8001)),
   (0x8002, onlyIf (tc isPp) (e.fails 1 (List.range 4) n.bad8002)),
   (0x8003, onlyIf (tc isPp) (e.fails 3 paths fun p => decide (n.f (.dpdCfg p) 1 0 = 3))),
   (0x9001, onlyIf (tc fun a => match a with | .cal _ => true | _ => false)
     (e.fails 1 (List.range 4) fun q => decide (n.f (.calBgper q) 15 0 < 10) || decide (60000 < n.f (.calBgper q) 15 0))),
   (0xA001, onlyIf (tc isLink) (e.failsChip ((List.range 3).any e.moved.badA001))),
   (0xA002, onlyIf (tc isLink) (e.failsChip ((List.range 3).any e.moved.badA002))),
   (0xA003, onlyIf (tc isLink) (e.fails 5 (List.range 16) n.badA003)),
   (0xA004, onlyIf (tc isLink) (e.failsChip e.badA004)),
   (0xB001, onlyIf (tc isVc) (e.failsChip e.badB001)),
   (0xB002, onlyIf e.rxStreams (e.failsChip e.badB002)),
   (0xD001, e.ruleD001),
   (0xD002, onlyIf (tc fun a => a == .pm) (e.failsChip n.badD002)),
   (0xD003, onlyIf (tc isPl) (e.failsChip n.badD003)),
   (0xD101, onlyIf (st || tc isPl) (e.failsChip ([false, true].any n.badD101))),
   (0xD102, onlyIf (tc fun a => match a with | .pp _ => true | .pl => true | _ => false) (e.fails 3 paths n.badD102)),
   (0xE001, onlyIf (tc isLat) (e.failsChip n.badE001)),
   (0xE002, onlyIf (tc isLat || tc isCtx) (e.fails 4 cells n.badE002)),
   (0xE003, onlyIf (tc isLat) (e.failsChip e.badE003))]

/-- The refusal of the first failing rule (R88 step 2, Table 15.6). -/
def Env.refusal (e : Env) : Option Res :=
  e.rules.findSome? fun r => r.2.map fun aux =>
    Machine.refusal (if r.1 = 0xD101 ∨ r.1 = 0xD102 then sThermal else sMismatch) r.1 aux

/-- The registers that some fields lie in. -/
def regsOf (l : List SField) : List Reg :=
  (l.filterMap fun f => match placeAt f.addr with | .reg r => some r | _ => none).eraseDups

/-- The state without the acceptance of group `g`. -/
def Dev.without (d : Dev) (g : Nat) : Dev := d.setGrp g { d.grp g with st := .opened }

/-- The path of the command that committed a group. -/
def Dev.grpPath (d : Dev) (g : Nat) : Path :=
  match (d.grp g).tag with
  | some t => match d.flightOf t with
    | some f => f.hdr.path
    | none => .jtag
  | none => .jtag

/-- The rules of a group whose fields are `own` at boundary `bnd`, then those of the later ACCEPTED groups with it applied
(R89). -/
def Dev.agreement (d : Dev) (own : List SField) (bnd : Option Nat) (path : Path) : Option Res :=
  let u := bnd.getD d.now
  let e : Env := { live := d, old := d.projectAt u [] u, new := d.projectAt u own u, bnd := bnd, path := path,
                   regs := regsOf own }
  match e.refusal with
  | some r => some r
  | none =>
    (d.acceptedGroups.filter fun g => decide (u < g.2.bnd)).findSome? fun g =>
      let e : Env := { live := d, old := (d.without g.1).projectAt g.2.bnd own u, new := d.projectAt g.2.bnd own u,
                       bnd := some g.2.bnd, path := d.grpPath g.1, regs := regsOf (d.fieldsOf g.1) }
      e.refusal

end Sys2Proof.Machine
end

