-- ==== Sys2Proof/Machine/Apply.lean ====
section
/-! DEFINITION. What the application of a commit group does at its boundary (R88 step 4), unit by unit. -/

namespace Sys2Proof.Machine

/-- A register field as the block stood before, `o`, and stands now. -/
def differ (o d : Dev) (r : Reg) (hi lo : Nat) : Bool := decide (o.f r hi lo ≠ d.f r hi lo)

/-- The new check algorithms of a virtual channel come into effect (R276). -/
def Dev.polySet (d : Dev) (v : Nat) : Dev := (d.setInPoly v (d.f (.vcChk v) 5 4)).setEgPoly v (d.f (.vcChk v) 1 0)

/-- The algorithms whose superblock boundary has come. -/
def Dev.polySettle (d : Dev) : Dev :=
  let due := d.link.polyLater.filter fun e => decide (e.2 ≤ d.now)
  due.foldl (fun d e => d.polySet e.1)
    { d with link := { d.link with polyLater := d.link.polyLater.filter fun e => decide (d.now < e.2) } }

/-- FREQ or EN of a synthesiser (R102); the cells that select it are retuned for calibration. -/
def Dev.synApply (o d : Dev) (n : Nat) : Dev :=
  let on := d.fb (.synCtrl n) 0
  let was := o.fb (.synCtrl n) 0
  let fr := differ o d (.synFreq n) 23 0
  let d := if on != was || fr then d.calRetuned (n / 2) (fun c => o.synOf c == n) else d
  let d := if on && (!was || fr) then d.relock n else if !on && was then d.synOff n else d
  d.calWatch (n / 2)

/-- LO_SEL of a cell and of the cell that shares its tables (R108, R123): a cell that leaves a READY LO behaves as R106 and
R115 state. -/
def Dev.loApply (o d : Dev) (c : Nat) : Dev :=
  let mine := [c, c + 1].filter fun x => d.tableCell x == c && decide (x < 128)
  if differ o d (.cellLo c) 0 0 then
    let d := d.calRetuned (c % 64 / 16) fun x => mine.contains x
    let d := mine.foldl (fun d x =>
      if x < 64 then (if d.loReady x then d.rejoin x else d.darken x)
      else (d.markLo (x - 64)).disturb (x - 64) 196) d
    d.calWatch (c % 64 / 16)
  else d

/-- KEEP of an RX cell and of the cell that shares it (R131). -/
def Dev.keepApply (o d : Dev) (c : Nat) : Dev :=
  if differ o d (.convCfg c) 0 0 then
    ([c, c + 1].filter fun x => d.tableCell x == c && decide (x < 128)).foldl (fun d x => d.keepChanged (x - 64)) d
  else d

/-- A diversity pair is formed or dissolved: the LO of its cells may change, and with it the KEEP that they follow (R123, R129). -/
def Dev.divApply (o d : Dev) (k : Nat) : Dev :=
  if differ o d (.divCtrl k) 31 31 then
    let d := (d.markLo (2 * k)).markLo (2 * k + 1)
    let d := (d.keepChanged (2 * k)).keepChanged (2 * k + 1)
    d.setDivp k {}
  else d

/-- The timed entries of a block: one that a commit writes looks for triggers from the boundary on (R122). -/
def Dev.timedApply (d o : Dev) (b : Nat) : Dev :=
  (List.range 16).foldl (fun d e =>
    if o.reg (.timed b e 2) = d.reg (.timed b e 2) then d else d.setTimedFrom b e d.now) d

/-- EN of an ORX (R144). -/
def Dev.orxApply (o d : Dev) (b : Nat) : Dev :=
  let on := d.fb (.orxCtrl b) 0
  if on = o.fb (.orxCtrl b) 0 then d else if on then d.orxPowerUp b else (d.orxPowerDown b).calOrxOff b

/-- ATT, DELAY and SYNC of a cell's chain (R155, R156, R165); SYNC returns to 0. A SYNC that meets a change of EN or RATE of the
carrier acts with it, once (R166). -/
def Dev.chainApply (o d : Dev) (c : Nat) : Dev :=
  let d := if 64 ≤ c ∧ differ o d (.chainCfg c) 4 0 then d.disturb (c - 64) 39 else d
  let d := if 64 ≤ c ∧ differ o d (.chainCfg c) 27 16 then d.delayChange c else d
  let m := d.f (.chainCfg c) 15 8
  let d := (List.range 8).foldl (fun d k =>
    if nbit m k ∧ d.carrOn c k then
      (if 64 ≤ c then d.cut c k
       else if o.carrOn c k ∧ o.rate c k = d.rate c k then d.txChange o c k else d)
    else d) d
  d.setBits (.chainCfg c) 0xFF00 0

/-- EN, RATE, FREQ and PHASE of a carrier (Tables 6.3 and 6.5). -/
def Dev.carrApply (o d : Dev) (c k : Nat) : Dev :=
  let on := d.carrOn c k
  if !on then d
  else if c < 64 then (if !o.carrOn c k ∨ differ o d (.carrCfg c k) 26 24 then d.txChange o c k else d)
  else if !o.carrOn c k ∨ differ o d (.carrCfg c k) 26 24 then d.cut c k
  else if 64 ≤ c ∧ (differ o d (.carrNco c k) 23 0 ∨ differ o d (.carrPhase c k) 15 0) then d.cut c k
  else d

/-- A context is enabled: it streams from here on, with the entry that its live schedule has in force (R176). What it delivered
before stays with the weights of its time. -/
def Dev.ctxEnable (d : Dev) (x : Nat) : Dev :=
  let c := d.ctx x
  let e := if d.running then (d.entryAt (d.ctxTable x 0) c.live d.now).getD c.entry else c.entry
  d.setCtx x { c with entry := e, from_ := e, hist := ((d.now, d.entryWords (d.ctxTx x) e) :: c.hist).take 64,
                      fading := false, fetch := [], ready := [], changed := d.now + 1, issued := d.now + 1, sat := false }

/-- A context that is disabled is no longer a shed stream (R262, R361). -/
def Dev.unshed (d : Dev) (x : Nat) : Dev :=
  let d := [0, 1, 2].foldl (fun d g =>
    if (d.lg g).shed.contains x then d.setLg g { d.lg g with shed := (d.lg g).shed.filter (· != x) } else d) d
  { d with pwr := { d.pwr with shed := d.pwr.shed.filter (· != x) } }

/-- EN, MODE and DIR of a context (R169, R180). -/
def Dev.ctxApply (o d : Dev) (x : Nat) : Dev :=
  let ended := (o.ctxOn x && !d.ctxOn x) || o.ctxMode x != d.ctxMode x || o.ctxTx x != d.ctxTx x
  let d := if ended then d.swapsEnd x else d
  let d := if o.ctxOn x ∧ ¬ d.ctxOn x then d.unshed x else d
  if d.ctxOn x ∧ (¬ o.ctxOn x ∨ o.ctxTx x ≠ d.ctxTx x) then d.ctxEnable x else d

/-- Background updates that background work no longer covers end (log entry 13). -/
def Dev.calCover (d : Dev) (q : Nat) : Dev :=
  d.bgAbandon q fun t => !d.fb (.calCtrl q) 31 || !d.fb (.calCtrl q) t.kind || !d.calEligible t.unit

/-- LG_CFG of a group (R256). -/
def Dev.lgApply (o d : Dev) (g : Nat) (tag : Option (BitVec 8)) : Dev := d.lgChanged g (o.lgEn g) (o.lgRate g) (o.lanes g) tag

/-- VC_CHK: VC0 and VC1 wait for the final reply of the commit, the others for the first superblock boundary from now on (R276), of
the group toward the host, for VC6 of a head of group D (log entry 38). -/
def Dev.vcApply (d : Dev) (v : Nat) (tag : Option (BitVec 8)) : Dev :=
  if v < 2 then
    (match tag with
     | some t => { d with link := { d.link with polyWait := d.link.polyWait ++ [(v, t)] } }
     | none => d.polySet v)
  else
    let g := if v = 6 ∧ d.role = 1 then 2 else d.upGroup
    let at_ := if d.groupRun g then d.boundaryFrom g else d.now
    ({ d with link := { d.link with polyLater := d.link.polyLater ++ [(v, at_)] } } : Dev).polySettle

/-- LAT_CFG: group H becomes U or back, and the head starts its polls afresh (R243, R368); the boot state of group H ends
(log entry 24). -/
def Dev.latApply (o d : Dev) : Dev :=
  let d := d.roleMove o.role
  if o.reg .latCfg = d.reg .latCfg then { d with lat := { d.lat with set := true } }
  else { d with lat := { set := true }, beam := { d.beam with psum := [] } }

/-- MODE and DPD_GRD of a path (R200, R207). -/
def Dev.ppApply (d o : Dev) (p : Nat) : Dev :=
  let d := if differ o d (.dpdCfg p) 1 0 ∨ o.reg (.dpdGrd p) ≠ d.reg (.dpdGrd p) then
    d.setPath p { d.path p with grds := d.now :: (d.path p).grds.filter fun t => decide (d.now ≤ t + keepTicks) } else d
  d.modeChange p

/-- One area of the block after a commit. -/
def Dev.areaApply (o : Dev) (tag : Option (BitVec 8)) (d : Dev) (a : Area) : Dev :=
  match a with
  | .win c => d.calRecheck (c % 64 / 16)
  | .fe => [0, 1, 2, 3].foldl Dev.calRecheck d
  | .feMode _ => { d with rf := { d.rf with polSet := true } }
  | .syn n => d.synApply o n
  | .lo c => d.loApply o c
  | .keep c => (d.keepApply o c).calRecheck (c % 64 / 16)
  | .div k => (d.divApply o k).calRecheck (k / 8)
  | .orx b => d.orxApply o b
  | .chain c => d.chainApply o c
  | .carr c k => (d.carrApply o c k).calCover (c % 64 / 16)
  | .ctx x => d.ctxApply o x
  | .pp p => d.ppApply o p
  | .cal q => d.calCover q
  | .lg g => d.lgApply o g tag
  | .vc v => if o.reg (.vcChk v) = d.reg (.vcChk v) then d else d.vcApply v tag
  | .pl => ((List.range 64).foldl Dev.modeChange d).dropShed
  | .lat => d.latApply o
  | .rffe b => d.timedApply o b
  | .table _ | .pulse _ | .lane _ | .pm | .other => d

/-- Where an area stands among those of one commit: synthesisers before the cells that select them, carriers before the
contexts that use them, groups before the role that moves them. -/
def Area.rank : Area → Nat
  | .syn _ => 0
  | .lo _ | .div _ => 1
  | .carr _ _ => 2
  | .ctx _ => 4
  | .lat => 6
  | .lg _ => 5
  | _ => 3

/-- Staged values become live at this tick, and the units follow (R55, R88 step 4). -/
def Dev.applyFields (d : Dev) (own : List SField) (tag : Option (BitVec 8)) : Dev :=
  let areas := ((regsOf own).map Reg.area).eraseDups
  let n := (d.notePast (own.map fun f => f.addr).eraseDups).overlay own
  let n := (List.range 7).foldl (fun n r => (areas.filter fun a => a.rank == r).foldl (Dev.areaApply d tag) n) n
  n.relines

/-! ## Groups -/

/-- End the parts on this chip of a command that have no result, with a given TS. -/
def Dev.finishMine (d : Dev) (tag : BitVec 8) (r : Res) (ts : BitVec 48) : Dev :=
  match d.flightOf tag with
  | none => d
  | some f =>
    (f.parts.filter fun p => p.res.isNone && p.unit / 0x2000 == d.chipNo).foldl
      (fun d p => d.finishPartAt tag p.unit r ts) d

/-- The result words that a final OK has kept. -/
def Dev.kept (d : Dev) (tag : BitVec 8) : List Word :=
  match d.flightOf tag with
  | some f => f.keep
  | none => []

/-- A command's final OK is sent. -/
def Dev.replyLeaves (d : Dev) (tag : BitVec 8) : Bool :=
  match d.flightOf tag with
  | some f => f.hdr.rr
  | none => false

/-- The application of an ACCEPTED group at its boundary (R88 step 4): the values become live, the group is EMPTY, and the
final OK carries the boundary tick. -/
def Dev.applyGroup (d : Dev) (g : Nat) : Dev :=
  let x := d.grp g
  if x.st = .accepted then
    let d := d.goTo x.bnd
    let own := d.fieldsOf g
    let ts := d.tsAt x.bnd
    let wait := match x.tag with
      | some t => if d.replyLeaves t then some t else none
      | none => none
    let d := (d.dropGroup g).applyFields own wait
    match x.tag with
    | some t => d.finishMine t (okWords (d.kept t)) ts
    | none => d
  else d

/-- An ACCEPTED group whose boundary comes is applied; of its changes, those of SRC_CFG and TGT_THR reach the request lines after
the firings of that tick (R88, R337, R341). -/
def Dev.groupBoundary (d : Dev) (g : Nat) : Dev :=
  if (d.grp g).st = .accepted then
    let d := d.goTo (d.grp g).bnd
    (d.holdHub ((d.fieldsOf g).map fun f => f.addr)).applyGroup g
  else d

/-- Step 1 and 2 of R88 for some fields. -/
def Dev.commitCheck (d : Dev) (own : List SField) (h : Hdr) : Except Res (Option Nat) :=
  match d.fixBoundary h with
  | .error r => .error r
  | .ok b =>
    match d.agreement own b h.path with
    | some r => .error r
    | none => .ok b

/-- Steps 3 and 4 of R88: the group is ACCEPTED; outside RUN it is applied at once. -/
def Dev.commitAccept (d : Dev) (g : Nat) (b : Option Nat) (h : Hdr) : Dev :=
  let d := d.setGrp g { st := .accepted, bnd := b.getD d.now, seq := d.cmd.seq, tag := some h.tag }
  let d := { d with cmd := { d.cmd with seq := d.cmd.seq + 1 } }
  let d := if h.bnd = 0 then d else d.note h.tag sAccepted
  if b.isNone then d.applyGroup g else d

/-! ## Writes of ST fields by a command (R86, R92) -/

/-- One write of a register: the register, the bits that the command writes, and their values. -/
structure RWrite where
  reg : Reg
  mask : Nat
  val : Word

/-- The whole of a register is written. -/
def whole (r : Reg) (v : Word) : RWrite := { reg := r, mask := 0xFFFFFFFF, val := v }

/-- The ST fields of some writes, for group `g`; of two writes of a field the later one counts. -/
def stFieldsOf (g : Nat) (ws : List RWrite) : List SField :=
  ws.foldl (fun l w => (w.reg.stFields.filter fun f => f.mask &&& w.mask != 0).foldl (fun l f =>
    l.filter (fun s => !(s.addr == w.reg.addr && s.lo == f.lo)) ++
      [{ addr := w.reg.addr, lo := f.lo, width := f.width, grp := g, val := w.val.toNat / 2 ^ f.lo % 2 ^ f.width }]) l) []

/-- One of the fields belongs to an ACCEPTED group (R87, R92). -/
def Dev.anyFrozen (d : Dev) (own : List SField) : Bool :=
  own.any fun f => match d.stagedOf f.addr f.lo with
    | some s => (d.grp s.grp).st == .accepted
    | none => false

/-- Put staged fields in their group, out of the groups that held them (R86, R92). -/
def Dev.stageFields (d : Dev) (own : List SField) : Dev :=
  let lost := (own.filterMap fun f => (d.stagedOf f.addr f.lo).map fun s => s.grp).eraseDups
  let d := d.setStaged (d.cmd.staged.filter (fun s => !own.any fun f => f.addr == s.addr && f.lo == s.lo) ++ own)
  (lost ++ (own.map fun f => f.grp).eraseDups).foldl Dev.regroup d

/-- The private group of a tag (R92). -/
def privateGroup (tag : BitVec 8) : Nat := 16 + tag.toNat

/-- What the ST part of a command meets before it acts: a refusal, or the boundary of its private group; with CG_VALID 1
the fields are staged without one (R83, R92). -/
def Dev.stageCheck (d : Dev) (h : Hdr) (ws : List RWrite) : Except Res (Option Nat) :=
  if h.cg then
    let own := stFieldsOf h.group.toNat ws
    if own.isEmpty then .ok none
    else if (d.grp h.group.toNat).st = .accepted ∨ d.anyFrozen own then .error (plain sBusy)
    else .ok none
  else
    let own := stFieldsOf (privateGroup h.tag) ws
    if own.isEmpty then .ok none
    else if d.anyFrozen own then .error (plain sBusy)
    else d.commitCheck own h

end Sys2Proof.Machine
end

