-- ==== Sys2Proof/Machine/Operands.lean ====
section
/-! DEFINITION. Targets, parameter forms and the checks that every command meets (R67–R79). -/

namespace Sys2Proof.Machine

/-! ## TARGET (R77) -/

def Hdr.chip (h : Hdr) : Nat := h.target.toNat / 0x2000
def Hdr.level (h : Hdr) : Nat := h.target.toNat / 0x400 % 8
def Hdr.index (h : Hdr) : Nat := h.target.toNat % 0x400

/-- One level that an opcode accepts: the indices it takes there, and whether INDEX 0x3FF addresses all of them (R78). -/
structure Lv where
  level : Nat
  first : Nat
  count : Nat
  many : Bool := true

def Lv.indices (l : Lv) : List Nat := (List.range l.count).map (l.first + ·)

/-- The units that a level and an index name; none when the opcode does not accept them. -/
def unitsAt (lvs : List Lv) (level index : Nat) : Option (List Nat) :=
  match lvs.find? fun l => l.level == level with
  | some l => if index = 0x3FF ∧ 1 ≤ level ∧ level ≤ 6 then (if l.many then some l.indices else none)
              else if l.first ≤ index ∧ index < l.first + l.count then some [index] else none
  | none => none

/-- The unit of a part, in TARGET form. -/
def Dev.unitOf (d : Dev) (level i : Nat) : Nat := (d.locOf level i).toNat

/-! ## Commands as bytes -/

/-- The bytes of a command packet with a TARGET (Tables 3.1 and 3.2). -/
def commandBytes (opc : Nat) (h : Hdr) (target : Nat) (ps : List Word) : List Byte :=
  withCrc (natBytes 2 opc ++ [h.tag, BitVec.ofNat 8 (b2n h.rr + 2 * b2n h.cg + 4 * h.bnd.toNat)] ++
    natBytes 2 target ++ [BitVec.ofNat 8 (h.group.toNat + 16 * h.btable.toNat), 0] ++
    natBytes 2 (4 * ps.length) ++ natBytes 6 h.bts.toNat ++ wordsBytes ps)

/-- Pass a command down the chain over VC1 (R33). REPLY_REQ is set on the way, so that this chip learns when the tag is out
of flight (DESIGN CHOICE, log entry 22). -/
def Dev.sendDown (d : Dev) (opc : Nat) (h : Hdr) (target : Nat) (ps : List Word) : Dev :=
  d.push 2 1 (.command (commandBytes opc { h with rr := true } target ps))

/-- Chips beyond this one that it can reach down the chain. -/
def Dev.below (d : Dev) (k : Nat) : Bool :=
  (d.role == 1 || d.role == 2) && decide (d.chipNo < k) && decide (k ≤ d.last)

/-! ## Opcodes -/

/-- An opcode: its number, the LEN it accepts, its levels, whether level code 7 is one, the refusal of a parameter for one
unit, and its action on the units. -/
structure Op where
  opc : Nat
  len : List Word → Bool
  lvs : List Lv
  all : Bool := false
  check : Dev → Hdr → List Word → Nat → Nat → Option Res := fun _ _ _ _ _ => none
  act : Dev → Hdr → List Word → Nat → List Nat → Dev

/-- Exactly `n` parameter words. -/
def exactly (n : Nat) (ps : List Word) : Bool := ps.length == n

/-- Parameter word `i`. -/
def arg (ps : List Word) (i : Nat) : Word := (ps[i]?).getD 0

/-- Parameter word `i` is refused when `bad` holds (R70 step 6, Table 3.4a). -/
def refuseIf (i : Nat) (bad : Bool) : Option Res := if bad then some (badWord i) else none

/-- The first refusal of a list. -/
def firstOf (l : List (Option Res)) : Option Res := l.findSome? id

/-- A header field that the command uses is invalid (R70 step 6). -/
def refuseHeader (bad : Bool) : Option Res := if bad then some badHeader else none

/-- A command that writes ST fields and commits them by itself uses BOUNDARY and BTS (R70, R92). -/
def stHeader (h : Hdr) : Option Res := refuseHeader (!h.cg && badBoundary h)

/-- End a command as a whole with a result, whatever its parts (R78). -/
def Dev.endWhole (d : Dev) (tag : BitVec 8) (r : Res) : Dev :=
  match d.flightOf tag with
  | some f => (d.land tag).final f.opc f.hdr r
  | none => d

/-- The first refusal over the addressed units; with several units, AUX names the one that failed (R78). -/
def Dev.refused (d : Dev) (op : Op) (h : Hdr) (ps : List Word) (level : Nat) (l : List Nat) : Option Res :=
  l.findSome? fun i => (op.check d h ps level i).map fun r => if hdrMany h then { r with aux := d.unitOf level i } else r

/-- Check the parameters, then act on the units of this chip. -/
def Dev.runHere (d : Dev) (op : Op) (h : Hdr) (ps : List Word) (level : Nat) (l : List Nat) : Dev :=
  match d.refused op h ps level l with
  | some r => d.final op.opc h r
  | none => op.act (d.launch op.opc h ps (l.map (d.unitOf level))) h ps level l

/-- A part of a level-7 command goes to member `k`, or ends with LINK when its hop is down (R78, R79). -/
def Dev.sendPart (op : Op) (h : Hdr) (ps : List Word) (d : Dev) (k : Nat) : Dev :=
  let u := (tgtWord k 0 0).toNat
  if d.downOk then d.sendDown op.opc h u ps else d.finishPart h.tag u (plain sLink)

/-- A command at level code 7: this chip's part and, on the head, one part for each member. R78 does not say how a command that a
member receives over JTAG would reach the other chips: it acts on that member alone (DESIGN CHOICE, log entry 40). -/
def Dev.runAll (d : Dev) (op : Op) (h : Hdr) (ps : List Word) : Dev :=
  match d.refused op h ps 0 [0] with
  | some r => d.final op.opc h r
  | none =>
    let ks := if d.role = 1 then (List.range d.last).map (· + 1) else []
    let d := d.launch op.opc h ps (d.unitOf 0 0 :: ks.map fun k => (tgtWord k 0 0).toNat)
    op.act (ks.foldl (Dev.sendPart op h ps) d) h ps 0 [0]

/-- A single chip that has committed no LAT_CFG since it came up is in the boot state, in which the head of a lattice reaches it on
group H (R243, Table 11.3; DEDUCED, log entry 24). -/
def Dev.bootLat (d : Dev) : Bool := d.role == 0 && !d.lat.set

/-- A command is for this chip: its CHIP field, or, in the boot state, a chip that the head reaches over VC1 on group H whatever CHIP
says (Table 18.3). -/
def Dev.forMe (d : Dev) (h : Hdr) : Bool := Hdr.chip h == d.chipNo || (h.path == .vc1 && d.bootLat)

/-! ## Writes of registers by a command -/

/-- A range holds instruction memory of an engine that is neither HALTED nor FAULTED: a write is refused (R300), and so is
a read (DEDUCED, log entry 21). -/
def Dev.imemShut (d : Dev) (a n : Nat) : Bool :=
  (List.range n).any fun i => match placeAt (a + 4 * i) with
    | .imem e => !d.imemOpen e
    | _ => false

/-- The registers of a range, each with its address and the word written there. -/
def rangeRegs : Nat → List Word → List (Reg × Word)
  | _, [] => []
  | a, w :: ws => (match placeAt a with
    | .reg r => [(r, w)]
    | _ => []) ++ rangeRegs (a + 4) ws

/-- The ST writes of a range. -/
def rangeWrites (a : Nat) (ws : List Word) : List RWrite := (rangeRegs a ws).map fun x => whole x.1 x.2

/-- A range holds an ST field. -/
def rangeStages (a : Nat) (ws : List Word) : Bool := (rangeRegs a ws).any fun x => !x.1.stFields.isEmpty

/-- A range writes 1 to TB_CTRL.ARM (R44). -/
def rangeArms (a : Nat) (ws : List Word) : Bool := (rangeRegs a ws).any fun x => x.1 == .tbCtrl && bitOf x.2 0

/-- A write of a range by a command: refusals first, then ST fields are staged or committed and the other fields act in
address order (R83). -/
def Dev.rangeWrite (d : Dev) (h : Hdr) (a : Nat) (ws : List Word) (res : List Word) : Dev :=
  let st := rangeWrites a ws
  match d.stageCheck h st with
  | .error r => d.endWhole h.tag r
  | .ok b =>
    if d.imemShut a ws.length then d.endWhole h.tag (refusal sPrecondition 0x0A01)
    else if rangeArms a ws ∧ d.armRefused then d.endWhole h.tag (plain sPrecondition)
    else
      let g := if h.cg then h.group.toNat else privateGroup h.tag
      let own := stFieldsOf g st
      let d := (d.stageFields own).writeRange none a ws
      if h.cg ∨ own.isEmpty then d.finishAll h.tag (okWords res)
      else (d.updFlight h.tag fun f => { f with keep := res }).commitAccept g b h

/-- The word that REG.MODIFY writes (R82). -/
def modified (old mask val : Word) : Word := (old &&& ~~~mask) ||| (val &&& mask)

/-- Remember the REG.MODIFY whose write is to come, or none. -/
def Dev.setModify (d : Dev) (x : Option (BitVec 8 × Word)) : Dev := { d with cmd := { d.cmd with modify := x } }

/-- The write of a REG.MODIFY, formed with the word it read: what hardware, engines or channels wrote since is overwritten
(R82). -/
def Dev.modifyEnd (d : Dev) : Dev :=
  match d.cmd.modify with
  | some (tag, old) =>
    let d := d.setModify none
    match d.flightOf tag with
    | some f => d.rangeWrite f.hdr (arg f.params 0).toNat [modified old (arg f.params 1) (arg f.params 2)] [old]
    | none => d
  | none => d

/-- The checks of R70 from step 2 on, and the action; a REG.MODIFY before it writes first, so that it is atomic against other
commands (R82). A member or tail that receives over JTAG the CHIP of a chip nearer the head cannot pass the command on: R79 gives no
reply for it, and the block answers BAD_TARGET (DESIGN CHOICE, log entry 40). -/
def runOp (op : Op) (h : Hdr) (ps : List Word) (d : Dev) : Dev :=
  let d := d.modifyEnd
  if d.boot.phase ≠ .up then d
  else if d.inFlight h.tag then d.refuseDup op.opc h
  else if 256 < ps.length ∨ ¬ op.len ps then d.final op.opc h badHeader
  else if Hdr.level h = 7 then
    (if op.all ∧ Hdr.index h = 0x3FF then d.runAll op h ps else d.final op.opc h (plain sBadTarget))
  else if d.forMe h then
    (match unitsAt op.lvs (Hdr.level h) (Hdr.index h) with
     | some l => d.runHere op h ps (Hdr.level h) l
     | none => d.final op.opc h (plain sBadTarget))
  else if d.below (Hdr.chip h) then
    (if d.downOk then
      (d.launch op.opc h ps [h.target.toNat]).sendDown op.opc h h.target.toNat ps
     else d.final op.opc h (plain sLink))
  else d.final op.opc h (plain sBadTarget)

/-! ## Common actions -/

/-- End the part of one unit. -/
def Dev.done (d : Dev) (h : Hdr) (level i : Nat) (r : Res) : Dev := d.finishPart h.tag (d.unitOf level i) r

/-- Each unit acts at once and its part ends. -/
def eachNow (f : Dev → Nat → Nat → Dev × Res) (d : Dev) (h : Hdr) (level : Nat) (l : List Nat) : Dev :=
  l.foldl (fun d i => let r := f d level i
                      r.1.done h level i r.2) d

/-- A command that returns words and changes nothing. -/
def answer (f : Dev → Nat → Nat → List Word) (d : Dev) (h : Hdr) (level : Nat) (l : List Nat) : Dev :=
  eachNow (fun d lv i => (d, okWords (f d lv i))) d h level l

/-- The fields that a unit's writes stage in a command's group. -/
def stMine (h : Hdr) (ws : List RWrite) : List SField :=
  stFieldsOf (if h.cg then h.group.toNat else privateGroup h.tag) ws

/-- A refusal of a command's private group as a whole: where it carries no location of its own, AUX names the first of several
units (R78). -/
def atFirst (d : Dev) (h : Hdr) (level : Nat) (l : List Nat) (r : Res) : Res :=
  if hdrMany h ∧ r.detail = 0 then { r with aux := d.unitOf level (l.headD 0) } else r

/-- The writes of several units, committed by the command itself: one private group, so that one frozen field refuses it, with
the field's unit in AUX (R78, R92). -/
def Dev.stCommit (d : Dev) (h : Hdr) (level : Nat) (l : List Nat) (ws : Nat → List RWrite) : Dev :=
  let own := stMine h (l.flatMap ws)
  match l.find? fun i => d.anyFrozen (stMine h (ws i)) with
  | some i => d.endWhole h.tag (if hdrMany h then { plain sBusy with aux := d.unitOf level i } else plain sBusy)
  | none =>
    if own.isEmpty then d.finishAll h.tag (plain sOk)
    else match d.commitCheck own h with
      | .error r => d.endWhole h.tag (atFirst d h level l r)
      | .ok b => (d.stageFields own).commitAccept (privateGroup h.tag) b h

/-- A command that writes ST fields (R86, R92). With CG_VALID 1 each unit stages its own writes, and one whose group or field is
frozen returns BUSY by itself (R78). -/
def Dev.stAct (d : Dev) (h : Hdr) (level : Nat) (l : List Nat) (ws : Nat → List RWrite) : Dev :=
  if h.cg then
    eachNow (fun d _ i => match d.stageCheck h (ws i) with
      | .error r => (d, r)
      | .ok _ => (d.stageFields (stMine h (ws i)), plain sOk)) d h level l
  else d.stCommit h level l ws

/-- A command that only writes ST fields of each unit. One that writes none ignores BOUNDARY (R70 step 6, R92). -/
def stagingOp (opc : Nat) (len : List Word → Bool) (lvs : List Lv) (check : List Word → Nat → Nat → Option Res)
    (writes : List Word → Nat → Nat → List RWrite) : Op :=
  { opc := opc, len := len, lvs := lvs
    check := fun _ h ps lv i => firstOf [check ps lv i, if (stMine h (writes ps lv i)).isEmpty then none else stHeader h]
    act := fun d h ps lv l => d.stAct h lv l (writes ps lv) }

/-- A command that returns words of one unit. -/
def readingOp (opc : Nat) (len : List Word → Bool) (lvs : List Lv) (words : Dev → List Word → Nat → List Word) : Op :=
  { opc := opc, len := len, lvs := lvs.map fun l => { l with many := false }
    act := fun d h ps lv l => answer (fun d _ i => words d ps i) d h lv l }

/-! ## Levels -/

def atChip : Lv := { level := 0, first := 0, count := 1 }
def atQuad : Lv := { level := 1, first := 0, count := 4 }
def atBlock : Lv := { level := 2, first := 0, count := 16 }
def atCell : Lv := { level := 3, first := 0, count := 128 }
def atTx : Lv := { level := 3, first := 0, count := 64 }
def atRx : Lv := { level := 3, first := 64, count := 64 }
def atCtx : Lv := { level := 4, first := 0, count := 128 }
def atLane : Lv := { level := 5, first := 0, count := 32 }
def atEngine : Lv := { level := 6, first := 0, count := 16 }
def atDma : Lv := { level := 6, first := 16, count := 48 }
def atSyn : Lv := { level := 6, first := 64, count := 8 }

end Sys2Proof.Machine
end

