-- ==== Sys2Proof/Machine/Device.lean ====
section
/-! DEFINITION. Opcode families 0x00 to 0x02: device, register access, staging and commit (R80–R96). -/

namespace Sys2Proof.Machine

/-! ## Family 0x00 -/

/-- NOP (Table 3.7). -/
def opNop : Op :=
  { opc := 0x0000, len := exactly 0, lvs := [atChip], all := true
    act := fun d h _ lv l => eachNow (fun d _ _ => (d, plain sOk)) d h lv l }
def doNop (h : Hdr) (ps : List Word) (d : Dev) : Dev := runOp opNop h ps d

/-- ID.GET: the first four words of the identity window. -/
def opIdGet : Op := readingOp 0x0001 (exactly 0) [atChip] fun _ _ _ => [0, 1, 2, 3].map identWord
def doIdGet (h : Hdr) (ps : List Word) (d : Dev) : Dev := runOp opIdGet h ps d

/-- The offsets of the capability entries. -/
def capOffsets : Nat → List (Nat × List Nat) → List Nat
  | _, [] => []
  | o, e :: rest => o :: capOffsets (o + 8 + 4 * e.2.length) rest

/-- The words of the chain from offset `o`: the whole rest of it, which is below 1,020 bytes in stepping A1 (R96). -/
def capFrom (o : Nat) : List Word :=
  ((capChain 0x100 capEntries).drop ((o - 0x100) / 4)).map mkw

/-- CAP.WALK. -/
def opCapWalk : Op :=
  { readingOp 0x0002 (exactly 1) [atChip] fun _ ps _ =>
      0 :: capFrom (if arg ps 0 = 0 then 0x100 else (arg ps 0).toNat) with
    check := fun _ _ ps _ _ =>
      refuseIf 0 (arg ps 0 != 0 && !(capOffsets 0x100 capEntries).contains (arg ps 0).toNat) }
def doCapWalk (h : Hdr) (ps : List Word) (d : Dev) : Dev := runOp opCapWalk h ps d

/-! ### TAG.ABORT (R83, R180) -/

/-- The command of a tag waits for a synthesiser: it is HELD (R110, R115). -/
def Dev.heldNow (d : Dev) (tag : BitVec 8) (c : Nat) : Bool :=
  !d.loReady c && (d.flightOf tag).any fun f => f.held

/-- A HELD burst whose active interval has begun ends: it raises nothing more, a TX window goes DARK, and an RX window runs out. -/
def Dev.dropHeld (d : Dev) (tag : BitVec 8) (c : Nat) : Dev :=
  let d := d.setBursts c ((d.bursts c).map fun b => if b.tag = tag then { b with replied := true } else b)
  if c < 64 ∧ ((d.tx c).seq = .prep ∨ (d.tx c).seq = .queued) then d.setTx c { d.tx c with seq := .dark } else d

/-- Bursts of a tag that have not begun, or that are HELD, end. -/
def Dev.abortBursts (d : Dev) (tag : BitVec 8) : Dev :=
  (List.range 128).foldl (fun d c =>
    match (d.bursts c).find? fun b => b.tag == tag && !b.replied with
    | some b =>
      if b.begun then (if d.heldNow tag c then (d.dropHeld tag c).finishPart tag (d.unitOf 3 c) (plain sAborted) else d)
      else (d.setBursts c ((d.bursts c).filter fun b => b.tag != tag || b.replied)).finishPart tag (d.unitOf 3 c)
        (plain sAborted)
    | none => d) d

/-- Swaps of a tag in the SLOT end. -/
def Dev.abortSwaps (d : Dev) (tag : BitVec 8) : Dev :=
  (List.range 128).foldl (fun d x =>
    match (d.ctx x).slot with
    | some w => if w.tag = tag then d.abortSlot x else d
    | none => d) d

/-- Block jobs of a tag that wait in a queue end: a mismatch measurement, a capture in slot 0, a mailbox transfer. -/
def Dev.abortJobs (d : Dev) (tag : BitVec 8) : Dev :=
  (List.range 16).foldl (fun d b =>
    let x := d.block b
    let d := if x.orxQ.any fun j => j.who == .mismatch tag then
        match x.mis.find? fun m => m.tag == tag with
        | some m =>
          (d.setBlock b { x with orxQ := x.orxQ.filter (fun j => j.who != .mismatch tag),
                                 mis := x.mis.filter fun m => m.tag != tag }).finishPart tag (d.unitOf 3 m.path)
            (plain sAborted)
        | none => d
      else d
    let d := match d.slotTag b, (d.slot b 0).cap with
      | some (t, u), some c =>
        if t = tag ∧ c.granted.isNone ∧ c.t0.isNone then (d.capFail b 0 sAborted).finishPart tag u (plain sAborted) else d
      | _, _ => d
    let x := d.block b
    if x.rffeTag = some tag ∧ x.rffeQ.any fun j => j.who == .slot 0 then
      let d := d.setBlock b { x with rffeQ := x.rffeQ.filter fun j => j.who != .slot 0 }
      (d.setRffeRes b 0 0).rffeReply b (plain sAborted)
    else d) d

/-- Bank swaps of a tag that are pending end. -/
def Dev.abortBanks (d : Dev) (tag : BitVec 8) : Dev :=
  (List.range 64).foldl (fun d p =>
    match (d.path p).swap with
    | some s => if s.tag = some tag ∧ !s.bound then
        (d.setPath p { d.path p with swap := none }).endSwap p s.tag (plain sAborted) else d
    | none => d) d

/-- Sleep and wake requests of a tag that wait for the mutex are withdrawn. -/
def Dev.abortPower (d : Dev) (tag : BitVec 8) : Dev :=
  let mine (r : PReq) : Bool := match r.cmd with
    | some (t, _) => t == tag
    | none => false
  let gone := d.pwr.sleeps.filter mine ++ d.pwr.wakes.filter mine
  let d := d.setPwr { d.pwr with sleeps := d.pwr.sleeps.filter (fun r => !mine r),
                                 wakes := d.pwr.wakes.filter fun r => !mine r }
  gone.foldl (fun d r =>
    let d := if (d.dom r.d).st = .requested ∧ !(d.sleepRuns r.d) ∧ !(d.pwr.sleeps.any fun s => s.d == r.d) then
        d.setDom r.d { d.dom r.d with st := .awake, held := false } else d
    d.pReply r.cmd (plain sAborted)) d

/-- An accepted commit whose boundary lies more than 2,048 ticks ahead ends: a host group is OPEN again, a private group is
discarded. -/
def Dev.abortCommit (d : Dev) (tag : BitVec 8) : Dev :=
  match d.cmd.groups.find? fun e => e.2.st == .accepted && e.2.tag == some tag && decide (d.now + 2048 < e.2.bnd) with
  | some (g, _) =>
    let d := if g < 16 then (d.setGrp g { st := .opened }).regroup g else d.dropGroup g
    d.finishMine tag (plain sAborted) d.ts
  | none => d

/-- The number of parts of a tag that have no result. -/
def Dev.openParts (d : Dev) (tag : BitVec 8) : Nat :=
  match d.flightOf tag with
  | some f => (f.parts.filter fun p => p.res.isNone).length
  | none => 0

/-- Everything of a tag that TAG.ABORT reaches. -/
def Dev.abortTag (d : Dev) (tag : BitVec 8) : Dev :=
  (((((d.abortCommit tag).abortBursts tag).abortSwaps tag).abortJobs tag).abortBanks tag).abortPower tag

/-- TAG.ABORT: OK when it ended something, otherwise PRECONDITION and no change. -/
def opTagAbort : Op :=
  { opc := 0x0003, len := exactly 1, lvs := [atChip]
    act := fun d h ps lv l => eachNow (fun d _ _ =>
      let t : BitVec 8 := BitVec.ofNat 8 (arg ps 0).toNat
      let e := d.abortTag t
      if t ≠ h.tag ∧ e.openParts t < d.openParts t then (e, plain sOk) else (d, plain sPrecondition)) d h lv l }
def doTagAbort (h : Hdr) (ps : List Word) (d : Dev) : Dev := runOp opTagAbort h ps d

/-! ## Family 0x01 -/

/-- The refusals of an address and a count that lie in parameter words 0 and 1 (R83). -/
def rangeRefusal (a n : Nat) : Option Res :=
  firstOf [refuseIf 0 (placeAt a == .unmapped), refuseIf 1 (decide (n = 0) || decide (255 < n)),
           refuseIf 0 (!rangeMapped a n)]

/-- The first word of a range that holds an uncorrectable error. -/
def Dev.rangeError (d : Dev) (a : Nat) : Nat → Option Nat
  | 0 => none
  | n + 1 => if isMemory a && d.badAt a 1 then some a else d.rangeError (a + 4) n

/-- Why a range that passes the parameter checks cannot be read: closed instruction memory, or an uncorrectable error. -/
def Dev.readRefusal (d : Dev) (a n : Nat) : Option Res :=
  if d.imemShut a n then some (refusal sPrecondition 0x0A01) else (d.rangeError a n).map d.memInternal

/-- REG.READ. -/
def opRegRead : Op :=
  { opc := 0x0100, len := exactly 2, lvs := [atChip]
    check := fun _ _ ps _ _ => rangeRefusal (arg ps 0).toNat (arg ps 1).toNat
    act := fun d h ps lv l => eachNow (fun d _ _ =>
      match d.readRefusal (arg ps 0).toNat (arg ps 1).toNat with
      | some r => (d, r)
      | none =>
        let r := d.readRange (.cmd h.path) (arg ps 0).toNat (arg ps 1).toNat
        (r.1, okWords r.2)) d h lv l }
def doRegRead (h : Hdr) (ps : List Word) (d : Dev) : Dev := runOp opRegRead h ps d

/-- REG.WRITE. -/
def opRegWrite : Op :=
  { opc := 0x0101, len := fun ps => decide (2 ≤ ps.length), lvs := [atChip]
    check := fun _ h ps _ _ => firstOf [rangeRefusal (arg ps 0).toNat (ps.length - 1),
      if rangeStages (arg ps 0).toNat ps.tail then stHeader h else none]
    act := fun d h ps _ _ => d.rangeWrite h (arg ps 0).toNat ps.tail [] }
def doRegWrite (h : Hdr) (ps : List Word) (d : Dev) : Dev := runOp opRegWrite h ps d

/-- REG.MODIFY reads the word; its write comes later, before the next command and before the clock advances (`Dev.modifyEnd`,
log entry 20). -/
def opRegModify : Op :=
  { opc := 0x0102, len := exactly 3, lvs := [atChip]
    check := fun _ h ps _ _ => firstOf [rangeRefusal (arg ps 0).toNat 1,
      if rangeStages (arg ps 0).toNat [0] then stHeader h else none]
    act := fun d h ps _ _ =>
      let a := (arg ps 0).toNat
      match d.readRefusal a 1 with
      | some r => d.endWhole h.tag r
      | none =>
        let r := d.readWord (.cmd h.path) a
        r.1.setModify (some (h.tag, r.2)) }
def doRegModify (h : Hdr) (ps : List Word) (d : Dev) : Dev := runOp opRegModify h ps d

/-! ## Family 0x02 -/

/-- The staged words of a range. -/
def Dev.stagedRange (d : Dev) (p : Path) : Nat → Nat → Dev × List Word
  | _, 0 => (d, [])
  | a, n + 1 =>
    let r := d.readWord (.cmd p) a
    let w := match placeAt a with
      | .reg x => r.1.stagedWord x r.2
      | _ => r.2
    let rest := r.1.stagedRange p (a + 4) n
    (rest.1, w :: rest.2)

/-- STAGE.READ. -/
def opStageRead : Op :=
  { opRegRead with
    opc := 0x0200
    act := fun d h ps lv l => eachNow (fun d _ _ =>
      match d.readRefusal (arg ps 0).toNat (arg ps 1).toNat with
      | some r => (d, r)
      | none =>
        let r := d.stagedRange h.path (arg ps 0).toNat (arg ps 1).toNat
        (r.1, okWords r.2)) d h lv l }
def doStageRead (h : Hdr) (ps : List Word) (d : Dev) : Dev := runOp opStageRead h ps d

/-- COMMIT of a group on this chip (R88). -/
def Dev.commitGo (d : Dev) (h : Hdr) : Dev :=
  let g := h.group.toNat
  let u := d.unitOf 0 0
  if (d.grp g).st = .accepted then d.finishPart h.tag u (plain sBusy)
  else if d.fieldsIn g = 0 then
    match d.fixBoundary h with
    | .error r => d.finishPart h.tag u r
    | .ok b => d.finishPartAt h.tag u (plain sOk) (match b with | some t => d.tsAt t | none => 0)
  else
    match d.commitCheck (d.fieldsOf g) h with
    | .error r => d.finishPart h.tag u r
    | .ok b => d.commitAccept g b h

/-- COMMIT. -/
def opCommit : Op :=
  { opc := 0x0201, len := exactly 0, lvs := [atChip], all := true
    check := fun _ h _ _ _ => firstOf [refuseHeader (!h.cg), refuseHeader (badBoundary h)]
    act := fun d h _ _ _ => d.commitGo h }
def doCommit (h : Hdr) (ps : List Word) (d : Dev) : Dev := runOp opCommit h ps d

/-- DISCARD (R87). -/
def opDiscard : Op :=
  { opc := 0x0202, len := exactly 0, lvs := [atChip], all := true
    act := fun d h _ lv l => eachNow (fun d _ _ =>
      if (d.grp h.group.toNat).st = .accepted then (d, plain sBusy) else (d.dropGroup h.group.toNat, plain sOk))
      d h lv l }
def doDiscard (h : Hdr) (ps : List Word) (d : Dev) : Dev := runOp opDiscard h ps d

end Sys2Proof.Machine
end

