-- ==== Sys2Proof/Machine/RfFamily.lean ====
section
/-! DEFINITION. Opcode family 0x03: synthesisers, cells, RFFE, diversity and mismatch (R114, R118–R127). -/

namespace Sys2Proof.Machine

/-- SYN.SET. -/
def opSynSet : Op :=
  stagingOp 0x0300 (exactly 2) [atSyn] (fun _ _ _ => none) fun ps _ i =>
    [whole (.synFreq (i - 64)) (arg ps 0), whole (.synCtrl (i - 64)) (arg ps 1)]
def doSynSet (h : Hdr) (ps : List Word) (d : Dev) : Dev := runOp opSynSet h ps d

/-- SYN.GET. -/
def opSynGet : Op :=
  readingOp 0x0301 (exactly 0) [atSyn] fun d _ i =>
    [d.regWord (.cmd .vc0) (.synStat (i - 64)), d.regWord (.cmd .vc0) (.synPhase (i - 64))]
def doSynGet (h : Hdr) (ps : List Word) (d : Dev) : Dev := runOp opSynGet h ps d

/-- CELL.LO. -/
def opCellLo : Op :=
  stagingOp 0x0302 (exactly 1) [atCell] (fun _ _ _ => none) fun ps _ c => [whole (.cellLo c) (arg ps 0)]
def doCellLo (h : Hdr) (ps : List Word) (d : Dev) : Dev := runOp opCellLo h ps d

/-- WIN.SET: a cell has 32 window registers. -/
def opWinSet : Op :=
  stagingOp 0x0303 (fun ps => ps.length == 1 + 2 * fld (arg ps 0) 5 0) [atCell]
    (fun ps _ _ => refuseIf 0 (decide (32 < fld (arg ps 0) 5 0)))
    fun ps _ c => whole (.winCtrl c) (arg ps 0) :: (List.range (fld (arg ps 0) 5 0)).flatMap fun w =>
      [whole (.winStart c w) (arg ps (1 + 2 * w)), whole (.winLen c w) (arg ps (2 + 2 * w))]
def doWinSet (h : Hdr) (ps : List Word) (d : Dev) : Dev := runOp opWinSet h ps d

/-! ## WIN.BURST (R114) -/

/-- A TIMESTAMP in two parameter words. -/
def argTs (ps : List Word) (i : Nat) : BitVec 48 :=
  BitVec.ofNat 48 ((arg ps i).toNat + 2 ^ 32 * fld (arg ps (i + 1)) 15 0)

/-- The refusals of a burst's parameters (R41, R114, R167). -/
def Dev.burstRefusal (d : Dev) (ps : List Word) (c : Nat) : Option Res :=
  let ts := argTs ps 0
  let n := (arg ps 2).toNat
  let m := ((d.carrsOn c).map fun k => 16 * period (d.rate c k)).foldl max 1
  firstOf [refuseIf 0 (!tsValid ts || (decide (64 ≤ c) && decide (linOfTs ts % Config.frameTicks % m ≠ 0))),
    refuseIf 2 (decide (n % 16 ≠ 0) || decide (n < 16) || decide (Config.frameTicks < n) ||
      (decide (64 ≤ c) && decide (n % m ≠ 0)))]

/-- The burst breaks rule 0x4005 on its cell or, on the RX cell of a TDD path, on the TX cell of the path. -/
def Dev.burstClash (d : Dev) (c : Nat) (b : Burst) : Bool :=
  let n := d.setBursts c (d.bursts c ++ [b])
  n.bad4005 c || (decide (64 ≤ c) && n.bad4005 (c - 64))

/-- The checks of one burst in their order, or its start as a chip tick (R114). -/
def Dev.burstCheck (d : Dev) (ps : List Word) (tag : BitVec 8) (c : Nat) : Except Res Nat :=
  if !d.running then .error (plain sPrecondition)
  else match d.ahead (argTs ps 0) with
    | none => .error (plain sLate)
    | some x =>
      if x < Config.commitLead ∨ x < d.leadOf c + 2048 then .error (plain sLate)
      else if d.burstClash c { start := d.now + x, len := (arg ps 2).toNat, tag := tag } then .error (plain sPrecondition)
      else if 4 ≤ (d.bursts c).length then .error (plain sResource)
      else .ok (d.now + x)

/-- WIN.BURST on one cell: refused, or pending, with HELD while its LO is not READY. -/
def Dev.burstGo (d : Dev) (h : Hdr) (ps : List Word) (c : Nat) : Dev :=
  match d.burstCheck ps h.tag c with
  | .error r => d.done h 3 c r
  | .ok t =>
    let d := d.setBursts c (d.bursts c ++ [{ start := t, len := (arg ps 2).toNat, tag := h.tag }])
    let d := d.note h.tag sAccepted
    let d := if d.loReady c then d else d.note h.tag sHeld
    d.calRecheck (c % 64 / 16)

def opWinBurst : Op :=
  { opc := 0x0304, len := exactly 3, lvs := [atCell]
    check := fun d _ ps _ c => d.burstRefusal ps c
    act := fun d h ps _ l => l.foldl (fun d c => d.burstGo h ps c) d }
def doWinBurst (h : Hdr) (ps : List Word) (d : Dev) : Dev := runOp opWinBurst h ps d

/-! ## RFFE (R118–R122) -/

/-- RFFE.XFER on one block: slot 0 takes the transaction (R119, R121). -/
def Dev.xferGo (d : Dev) (h : Hdr) (ps : List Word) (b : Nat) : Dev :=
  if d.fe33 then d.done h 2 b (plain sPrecondition)
  else if d.rffeRes b 0 = 1 then d.done h 2 b (plain sBusy)
  else
    let d := d.setReg (.txn b 0) (mkw ((arg ps 0).toNat &&& 0xFFFFFFFC))
    let d := (List.range 4).foldl (fun d k => d.setReg (.txData b 0 k) (arg ps (1 + k))) d
    let d := d.note h.tag sAccepted
    (d.setBlock b { d.block b with rffeTag := some h.tag }).rffeGo b 0

/-- RFFE.XFER: INDEX 0x3FF only for the write KINDs (R78); an illegal sequence or a class below 2 is a bad parameter. -/
def opRffeXfer : Op :=
  { opc := 0x0310, len := exactly 5, lvs := [atBlock]
    check := fun _ _ ps _ _ => refuseIf 0 (!txLegal (arg ps 0) || decide (txClass (arg ps 0) < 2))
    act := fun d h ps _ l => l.foldl (fun d b => d.xferGo h ps b) d }
def doRffeXfer (h : Hdr) (ps : List Word) (d : Dev) : Dev :=
  runOp { opRffeXfer with lvs := [{ atBlock with many := !txRead (arg ps 0) }] } h ps d

/-- RFFE.TIMED. -/
def opRffeTimed : Op :=
  stagingOp 0x0311 (fun ps => decide (2 ≤ ps.length) && ps.length == 2 + 3 * (arg ps 1).toNat) [atBlock]
    (fun ps _ _ => firstOf [refuseIf 0 (decide (16 < (arg ps 0).toNat)),
      refuseIf 1 (decide (16 < (arg ps 0).toNat + (arg ps 1).toNat))])
    fun ps _ b => (List.range (arg ps 1).toNat).flatMap fun i => [0, 1, 2].map fun k =>
      whole (.timed b ((arg ps 0).toNat + i) k) (arg ps (2 + 3 * i + k))
def doRffeTimed (h : Hdr) (ps : List Word) (d : Dev) : Dev := runOp opRffeTimed h ps d

/-! ## Diversity (R123, R124) -/

/-- DIV.SET. -/
def opDivSet : Op :=
  stagingOp 0x0320 (exactly 3) [atBlock] (fun _ _ _ => none) fun ps _ b =>
    let k := 2 * b + fld (arg ps 0) 0 0
    [whole (.divCtrl k) (arg ps 1), whole (.divDet k) (arg ps 2)]
def doDivSet (h : Hdr) (ps : List Word) (d : Dev) : Dev := runOp opDivSet h ps d

/-- DIV.SEQ. -/
def opDivSeq : Op :=
  stagingOp 0x0321 (fun ps => decide (2 ≤ ps.length)) [atBlock]
    (fun ps _ _ => refuseIf 0 (decide (fld (arg ps 0) 25 16 % 4 ≠ 0) ||
      decide (1024 < fld (arg ps 0) 25 16 + 4 * (ps.length - 1))))
    fun ps _ b => (List.range (ps.length - 1)).map fun i =>
      whole (.divSeq (2 * b + fld (arg ps 0) 0 0) (fld (arg ps 0) 25 16 / 4 + i)) (arg ps (1 + i))
def doDivSeq (h : Hdr) (ps : List Word) (d : Dev) : Dev := runOp opDivSeq h ps d

/-! ## Mismatch (R126) -/

/-- MISMATCH.MEAS queues its class-2 job: it needs FE_AUX in MODE 0b01, and an ORX that is not OFF (R143, R144). -/
def Dev.mismatchGo (d : Dev) (h : Hdr) (ps : List Word) (p : Nat) : Dev :=
  let b := p / 4
  if d.f (.feAux b) 1 0 ≠ 1 ∨ (d.block b).orx = .off then d.done h 3 p (plain sPrecondition)
  else
    let d := d.note h.tag sAccepted
    let d := d.setBlock b { d.block b with
      mis := (d.block b).mis ++ [{ tag := h.tag, path := p, n := fld (arg ps 0) 15 0, since := d.now }] }
    d.orxEnqueue b { who := .mismatch h.tag, cls := 2, pos := p % 4, src := p % 4, since := d.now }

def opMismatch : Op :=
  { opc := 0x0330, len := exactly 1, lvs := [{ atTx with many := false }]
    check := fun _ _ ps _ _ => refuseIf 0 (decide (fld (arg ps 0) 15 0 < 256) || decide (16384 < fld (arg ps 0) 15 0))
    act := fun d h ps _ l => l.foldl (fun d p => d.mismatchGo h ps p) d }
def doMismatchMeas (h : Hdr) (ps : List Word) (d : Dev) : Dev := runOp opMismatch h ps d

end Sys2Proof.Machine
end

