-- ==== Sys2Proof/Machine/ChainFamily.lean ====
section
/-! DEFINITION. Opcode families 0x04 to 0x06: converters, chains and beams (R139–R146, R168, R173–R180, R190). -/

namespace Sys2Proof.Machine

/-- A register as a command reads it. -/
def Dev.shown (d : Dev) (r : Reg) : Word := d.regWord (.cmd .vc0) r

/-! ## Family 0x04 (Table 5.10) -/

def opAdcSet : Op := stagingOp 0x0400 (exactly 1) [atRx] (fun _ _ _ => none) fun ps _ c => [whole (.convCfg c) (arg ps 0)]
def doAdcSet (h : Hdr) (ps : List Word) (d : Dev) : Dev := runOp opAdcSet h ps d

def opDacSet : Op := stagingOp 0x0401 (exactly 1) [atTx] (fun _ _ _ => none) fun ps _ c => [whole (.convCfg c) (arg ps 0)]
def doDacSet (h : Hdr) (ps : List Word) (d : Dev) : Dev := runOp opDacSet h ps d

def opConvGet : Op := readingOp 0x0402 (exactly 0) [atCell] fun d _ c => [d.shown (.convStat c), d.shown (.convCfg c)]
def doConvGet (h : Hdr) (ps : List Word) (d : Dev) : Dev := runOp opConvGet h ps d

def opOrxSet : Op :=
  stagingOp 0x0410 (exactly 2) [atBlock] (fun _ _ _ => none) fun ps _ b =>
    [whole (.orxCtrl b) (arg ps 0), whole (.orxAtt b) (arg ps 1)]
def doOrxSet (h : Hdr) (ps : List Word) (d : Dev) : Dev := runOp opOrxSet h ps d

def opOrxGet : Op :=
  readingOp 0x0411 (exactly 0) [atBlock] fun d _ b => [d.shown (.orxStat b), d.shown (.orxCtrl b), d.shown (.orxAtt b)]
def doOrxGet (h : Hdr) (ps : List Word) (d : Dev) : Dev := runOp opOrxGet h ps d

/-! ## Family 0x05 (R168) -/

/-- CHAIN.SET: a TX cell takes no DELAY, ATT or SYNC. -/
def opChainSet : Op :=
  stagingOp 0x0500 (exactly 1) [atCell]
    (fun ps _ c => refuseIf 0 (decide (c < 64) && decide ((arg ps 0).toNat &&& 0x0FFFFF1F ≠ 0)))
    fun ps _ c => [whole (.chainCfg c) (arg ps 0)]
def doChainSet (h : Hdr) (ps : List Word) (d : Dev) : Dev := runOp opChainSet h ps d

def opCarrSet : Op :=
  stagingOp 0x0501 (exactly 6) [atCell] (fun ps _ _ => refuseIf 0 (decide (7 < (arg ps 0).toNat))) fun ps _ c =>
    let k := (arg ps 0).toNat
    [whole (.carrCfg c k) (arg ps 1), whole (.carrBridge c k) (arg ps 2), whole (.carrNco c k) (arg ps 3),
     whole (.carrPhase c k) (arg ps 4), whole (.carrGain c k) (arg ps 5)]
def doCarrSet (h : Hdr) (ps : List Word) (d : Dev) : Dev := runOp opCarrSet h ps d

def opCarrGain : Op :=
  stagingOp 0x0502 (exactly 2) [atCell] (fun _ _ _ => none) fun ps _ c =>
    (bitList 8 (fld (arg ps 0) 7 0)).map fun k => whole (.carrGain c k) (arg ps 1)
def doCarrGain (h : Hdr) (ps : List Word) (d : Dev) : Dev := runOp opCarrGain h ps d

def opChainSync : Op :=
  stagingOp 0x0503 (exactly 1) [atCell] (fun _ _ _ => none) fun ps _ c =>
    [{ reg := .chainCfg c, mask := 0xFF00, val := mkw (fld (arg ps 0) 7 0 * 256) }]
def doChainSync (h : Hdr) (ps : List Word) (d : Dev) : Dev := runOp opChainSync h ps d

def opChainGet : Op :=
  { readingOp 0x0504 (exactly 1) [atCell] fun d ps c =>
      let k := (arg ps 0).toNat
      [.chainCfg c, .carrCfg c k, .carrBridge c k, .carrNco c k, .carrPhase c k, .carrGain c k, .carrStat c k].map d.shown
    with check := fun _ _ ps _ _ => refuseIf 0 (decide (7 < (arg ps 0).toNat)) }
def doChainGet (h : Hdr) (ps : List Word) (d : Dev) : Dev := runOp opChainGet h ps d

/-! ## Family 0x06 (R190) -/

def opCtxSet : Op :=
  stagingOp 0x0600 (exactly 3) [atCtx] (fun _ _ _ => none) fun ps _ x =>
    [whole (.ctxCfg x) (arg ps 0), whole (.ctxLo x) (arg ps 1), whole (.ctxHi x) (arg ps 2)]
def doCtxSet (h : Hdr) (ps : List Word) (d : Dev) : Dev := runOp opCtxSet h ps d

def opCtxGet : Op :=
  readingOp 0x0601 (exactly 0) [atCtx] fun d _ x =>
    [.ctxCfg x, .ctxLo x, .ctxHi x, .ctxStat x, .ctxEntry x, .ctxScnt x].map d.shown
def doCtxGet (h : Hdr) (ps : List Word) (d : Dev) : Dev := runOp opCtxGet h ps d

/-- The first of some point words whose SYM does not rise above the one before it. -/
def flatPoint : Nat → List Word → Option Nat
  | _, [] => none
  | _, [_] => none
  | i, a :: b :: l => if fld b 24 16 ≤ fld a 24 16 then some (i + 1) else flatPoint (i + 1) (b :: l)

/-- The refusals of BEAM.SWAP's parameters (R177). -/
def swapRefusal (h : Hdr) (ps : List Word) : Option Res :=
  firstOf [refuseIf 0 (decide (fld (arg ps 0) 29 24 = 0) || decide (32 < fld (arg ps 0) 29 24) ||
      decide (1024 < fld (arg ps 0) 10 0)),
    (flatPoint 1 ps.tail).map badWord, refuseHeader h.cg, refuseHeader (badBoundary h)]

/-- The swap that a command carries. -/
def swapOf (h : Hdr) (ps : List Word) (start : Nat) : Swap :=
  { tag := h.tag, points := ps.tail.map fun w => (fld w 24 16, fld w 11 0), fade := fld (arg ps 0) 10 0,
    shape := fld (arg ps 0) 16 16, start := start, btable := h.btable.toNat }

/-- BEAM.SWAP: every context holds, replaces and fades its own swap; outside RUN it starts abruptly (R177). -/
def opBeamSwap : Op :=
  { opc := 0x0602, len := fun ps => ps.length == 1 + fld (arg ps 0) 29 24, lvs := [atCtx]
    check := fun _ h ps _ _ => swapRefusal h ps
    act := fun d h ps _ l =>
      match d.fixBoundary h with
      | .error r => l.foldl (fun d x => d.done h 4 x r) d
      | .ok (some t) => l.foldl (fun d x => d.swapEnter x (swapOf h ps t)) d
      | .ok none => l.foldl (fun d x => d.swapAtOnce x (swapOf h ps d.now)) (d.note h.tag sAccepted) }
def doBeamSwap (h : Hdr) (ps : List Word) (d : Dev) : Dev := runOp opBeamSwap h ps d

/-- The refusals of a first entry and a count (Table 7.6). -/
def entriesRefusal (ps : List Word) : Option Res :=
  let m := (arg ps 1).toNat
  refuseIf 1 (decide (m = 0) || decide (15 < m) || decide (4096 < fld (arg ps 0) 11 0 + m))

/-- The address of the first entry that a command names, in quadrant `q` (R173). -/
def entryAddr (q : Nat) (w : Word) : Nat := quadMem q + (if bitOf w 31 then 0x40000 else 0) + 64 * fld w 11 0

def opWtWrite : Op :=
  { opc := 0x0610, len := fun ps => decide (2 ≤ ps.length) && ps.length == 2 + 16 * (arg ps 1).toNat, lvs := [atQuad]
    check := fun _ _ ps _ _ => entriesRefusal ps
    act := fun d h ps lv l => eachNow (fun d _ q => (d.storeWords (entryAddr q (arg ps 0)) (ps.drop 2), plain sOk)) d h lv l }
def doWtWrite (h : Hdr) (ps : List Word) (d : Dev) : Dev := runOp opWtWrite h ps d

def opWtRead : Op :=
  { opc := 0x0611, len := exactly 2, lvs := [{ atQuad with many := false }]
    check := fun _ _ ps _ _ => entriesRefusal ps
    act := fun d h ps lv l => eachNow (fun d _ q =>
      let a := entryAddr q (arg ps 0)
      let n := 16 * (arg ps 1).toNat
      (d, if d.badAt a n then d.memInternal a else okWords (Memory.readWords d.mem a n))) d h lv l }
def doWtRead (h : Hdr) (ps : List Word) (d : Dev) : Dev := runOp opWtRead h ps d

end Sys2Proof.Machine
end

