-- ==== Sys2Proof/Machine/PathFamily.lean ====
section
/-! DEFINITION. Opcode family 0x07: path processing and observation captures (R204–R218, Table 8.9). -/

namespace Sys2Proof.Machine

/-- PP.SET. -/
def opPpSet : Op :=
  stagingOp 0x0700 (exactly 4) [atTx] (fun _ _ _ => none) fun ps _ p =>
    [whole (.pathCfg p) (arg ps 0), whole (.cfrCfg p) (arg ps 1), whole (.dpdCfg p) (arg ps 2),
     whole (.dpdGrd p) (arg ps 3)]
def doPpSet (h : Hdr) (ps : List Word) (d : Dev) : Dev := runOp opPpSet h ps d

/-- CFR.PULSE: the taps past 127 have no register (R195). -/
def opCfrPulse : Op :=
  stagingOp 0x0701 (fun ps => decide (2 ≤ ps.length) && ps.length == 2 + (arg ps 1).toNat) [atQuad]
    (fun ps _ _ => refuseIf 1 (decide ((arg ps 1).toNat < 1) || decide (128 < (arg ps 1).toNat)))
    fun ps _ q =>
      let t := fld (arg ps 0) 1 0
      whole (.pulseLen q t) (arg ps 1) ::
        (List.range (arg ps 1).toNat).map fun i => whole (.pulseTap q t i) (arg ps (2 + i))
def doCfrPulse (h : Hdr) (ps : List Word) (d : Dev) : Dev := runOp opCfrPulse h ps d

/-- A bound swap of a path. -/
def Dev.swapBound (d : Dev) (p : Nat) : Bool :=
  match (d.path p).swap with
  | some s => s.bound
  | none => false

/-- DPD.SWAP on one path: refused under the guard lock (R209), and while a swap is bound, which cannot be replaced (R205). -/
def Dev.dpdSwapGo (d : Dev) (h : Hdr) (bank p : Nat) : Dev :=
  if (d.path p).lock then d.done h 3 p (refusal sPrecondition 0x0307)
  else if d.swapBound p then d.done h 3 p (plain sBusy)
  else ((d.note h.tag sAccepted).setBits (.dpdSwap p) 1 bank).swapRequest p bank (some h.tag)

def opDpdSwap : Op :=
  { opc := 0x0710, len := exactly 1, lvs := [atTx]
    act := fun d h ps _ l => l.foldl (fun d p => d.dpdSwapGo h (fld (arg ps 0) 0 0) p) d }
def doDpdSwap (h : Hdr) (ps : List Word) (d : Dev) : Dev := runOp opDpdSwap h ps d

/-- DPD.CLEAR (R209). -/
def opDpdClear : Op :=
  { opc := 0x0711, len := exactly 0, lvs := [atTx]
    act := fun d h _ lv l => eachNow (fun d _ p => (d.dpdClear p, plain sOk)) d h lv l }
def doDpdClear (h : Hdr) (ps : List Word) (d : Dev) : Dev := runOp opDpdClear h ps d

/-- PP.GET. -/
def opPpGet : Op :=
  readingOp 0x0712 (exactly 0) [atTx] fun d _ p =>
    [.pathCfg p, .cfrCfg p, .dpdCfg p, .dpdGrd p, .dpdSwap p, .dpdStat p, .ppStat p].map d.shown
def doPpGet (h : Hdr) (ps : List Word) (d : Dev) : Dev := runOp opPpGet h ps d

/-- ORX.CAPTURE takes slot 0 of its block and ends with the STATUS that the slot reaches (R218). -/
def Dev.orxCaptureGo (d : Dev) (h : Hdr) (ps : List Word) (p : Nat) : Dev :=
  let b := p / 4
  if (d.slot b 0).result = 1 then d.done h 3 p (plain sBusy)
  else
    let d := d.setReg (.creq b 0 0) (arg ps 0)
    let d := d.setReg (.creq b 0 1) (arg ps 1)
    let d := d.setReg (.creq b 0 2) (mkw (fld (arg ps 2) 15 0))
    let d := d.capGo b 0
    if (d.slot b 0).result = 1 then d.note h.tag sAccepted else d

def opOrxCapture : Op :=
  { opc := 0x0720, len := exactly 3, lvs := [{ atTx with many := false }]
    act := fun d h ps _ l => l.foldl (fun d p => d.orxCaptureGo h ps p) d }
def doOrxCapture (h : Hdr) (ps : List Word) (d : Dev) : Dev := runOp opOrxCapture h ps d

/-- CAP.RELEASE. -/
def opCapRelease : Op :=
  { opc := 0x0721, len := exactly 1, lvs := [atBlock]
    act := fun d h ps lv l => eachNow (fun d _ b => (d.capRelease b (fld (arg ps 0) 7 0), plain sOk)) d h lv l }
def doCapRelease (h : Hdr) (ps : List Word) (d : Dev) : Dev := runOp opCapRelease h ps d

end Sys2Proof.Machine
end

