-- ==== Sys2Proof/Machine/CalFamily.lean ====
section
/-! DEFINITION. Opcode family 0x08: calibration (R225–R241, Table 9.8). -/

namespace Sys2Proof.Machine

/-- CAL.CFG. -/
def opCalCfg : Op :=
  stagingOp 0x0800 (exactly 2) [atQuad] (fun _ _ _ => none) fun ps _ q =>
    [whole (.calCtrl q) (arg ps 0), whole (.calBgper q) (arg ps 1)]
def doCalCfg (h : Hdr) (ps : List Word) (d : Dev) : Dev := runOp opCalCfg h ps d

/-- CAL.CLASS writes the half of CAL_CLASS that belongs to its cell. -/
def opCalClass : Op :=
  stagingOp 0x0801 (exactly 1) [atCell] (fun _ _ _ => none) fun ps _ c =>
    let w := fld (arg ps 0) 7 0
    [if c < 64 then { reg := .calClass c, mask := 0xFF, val := mkw w }
     else { reg := .calClass (c - 64), mask := 0xFF00, val := mkw (256 * w) }]
def doCalClass (h : Hdr) (ps : List Word) (d : Dev) : Dev := runOp opCalClass h ps d

/-- The calibration units of one addressed unit: a quadrant, a block, a cell. -/
def calUnitsOf (level i : Nat) : List CalUnit :=
  if level = 1 then quadUnits i else if level = 2 then blockUnits i
  else if h : i < 128 then [.cell ⟨i, h⟩] else []

/-- A unit is a cell. -/
def isCell : CalUnit → Bool
  | .cell _ => true
  | .orx _ => false

/-- The units of a target, in parts: one for each addressed unit, or for each quadrant when the target is every block or
every cell, since a quadrant runs once. -/
def calParts (h : Hdr) (level : Nat) (l : List Nat) : List (Nat × Nat × List CalUnit) :=
  if hdrMany h then (List.range 4).map fun q =>
    (1, q, if level = 3 then (quadUnits q).filter isCell else quadUnits q)
  else l.map fun i => (level, i, calUnitsOf level i)

/-- The quadrant of a unit of a level. -/
def quadAt (level i : Nat) : Nat := if level = 1 then i else if level = 2 then i / 4 else i % 64 / 16

/-- The parts of a command become those of its quadrants. -/
def Dev.reparts (d : Dev) (tag : BitVec 8) (l : List (Nat × Nat × List CalUnit)) : Dev :=
  d.updFlight tag fun f => { f with parts := l.map fun x => { unit := d.unitOf x.1 x.2.1 } }

/-- CAL.RUN. -/
def opCalRun : Op :=
  { opc := 0x0802, len := exactly 2, lvs := [atQuad, atBlock, atCell]
    check := fun _ h ps lv i =>
      firstOf [refuseIf 0 ((calTasks (fld (arg ps 0) 6 0) ((calParts h lv [i]).flatMap fun x => x.2.2)).isEmpty),
        refuseIf 1 (decide (fld (arg ps 1) 15 0 < 1) || decide (1000 < fld (arg ps 1) 15 0))]
    act := fun d h ps lv l =>
      let xs := calParts h lv l
      xs.foldl (fun d x => d.calRunGo (quadAt x.1 x.2.1) h.tag (d.unitOf x.1 x.2.1) (fld (arg ps 0) 6 0)
        (fld (arg ps 1) 15 0) x.2.2) (d.reparts h.tag xs) }
def doCalRun (h : Hdr) (ps : List Word) (d : Dev) : Dev := runOp opCalRun h ps d

/-- CAL.STOP. -/
def opCalStop : Op :=
  { opc := 0x0803, len := exactly 0, lvs := [atQuad]
    act := fun d h _ lv l => eachNow (fun d _ q => d.calStopGo q) d h lv l }
def doCalStop (h : Hdr) (ps : List Word) (d : Dev) : Dev := runOp opCalStop h ps d

/-- CAL.CLEAR. -/
def opCalClear : Op :=
  { opc := 0x0804, len := exactly 1, lvs := [atQuad, atBlock, atCell]
    act := fun d h ps lv l =>
      let xs := calParts h lv l
      xs.foldl (fun d x => d.calClearGo (quadAt x.1 x.2.1) h.tag (d.unitOf x.1 x.2.1) (fld (arg ps 0) 6 0) x.2.2)
        (d.reparts h.tag xs) }
def doCalClear (h : Hdr) (ps : List Word) (d : Dev) : Dev := runOp opCalClear h ps d

/-- CAL.GET. -/
def opCalGet : Op :=
  readingOp 0x0805 (exactly 0) [atQuad] fun d _ q =>
    [d.shown (.calStat q), d.shown (.calBgnow q), d.shown (.calMatch q)] ++
    ((List.range 16).map fun j => d.shown (.calPts (16 * q + j))) ++
    (List.range 4).map fun b => d.shown (.calPtsOrx (4 * q + b))
def doCalGet (h : Hdr) (ps : List Word) (d : Dev) : Dev := runOp opCalGet h ps d

/-- CAL.EXPORT: the range from ADDR is MAXLEN bytes long (DEDUCED, log entry 13). -/
def opCalExport : Op :=
  { opc := 0x0810, len := exactly 2, lvs := [{ atQuad with many := false }]
    check := fun _ _ ps _ _ => refuseIf 0 (calAddrBad (arg ps 0).toNat (arg ps 1).toNat)
    act := fun d h ps lv l => l.foldl (fun d q =>
      d.calExportGo q h.tag (d.unitOf lv q) (arg ps 0).toNat (arg ps 1).toNat) d }
def doCalExport (h : Hdr) (ps : List Word) (d : Dev) : Dev := runOp opCalExport h ps d

/-- CAL.IMPORT: BUSY comes before the address faults (R238). -/
def opCalImport : Op :=
  { opc := 0x0811, len := exactly 2, lvs := [atQuad]
    act := fun d h ps lv l => l.foldl (fun d q =>
      d.calImportGo q h.tag (d.unitOf lv q) (arg ps 0).toNat (arg ps 1).toNat) d }
def doCalImport (h : Hdr) (ps : List Word) (d : Dev) : Dev := runOp opCalImport h ps d

end Sys2Proof.Machine
end

