-- ==== Sys2Proof/Machine/LinkFamily.lean ====
section
/-! DEFINITION. Opcode families 0x09 and 0x0C: link and event hub (R268, R345). -/

namespace Sys2Proof.Machine

/-! ## Family 0x09 (Table 10.10) -/

/-- A group number of 3 is refused. -/
def groupRefusal (ps : List Word) : Option Res := refuseIf 0 (decide (fld (arg ps 0) 1 0 = 3))

/-- LINK.CFG. -/
def opLinkCfg : Op :=
  stagingOp 0x0900 (exactly 2) [atChip] (fun ps _ _ => groupRefusal ps) fun ps _ _ =>
    [whole (.lgCfg (fld (arg ps 0) 1 0)) (arg ps 1)]
def doLinkCfg (h : Hdr) (ps : List Word) (d : Dev) : Dev := runOp opLinkCfg h ps d

/-- LINK.GET. -/
def opLinkGet : Op :=
  { readingOp 0x0901 (exactly 1) [atChip] fun d ps _ =>
      let g := fld (arg ps 0) 1 0
      [.lgCfg g, .lgStat g, .lgMask g, .lgPeer g, .lgPeerId g, .lgShed g].map d.shown
    with check := fun _ _ ps _ _ => groupRefusal ps }
def doLinkGet (h : Hdr) (ps : List Word) (d : Dev) : Dev := runOp opLinkGet h ps d

/-- LINK.RETRAIN. -/
def opLinkRetrain : Op :=
  { opc := 0x0902, len := exactly 1, lvs := [atChip]
    check := fun _ _ ps _ _ => groupRefusal ps
    act := fun d h ps _ _ => d.retrainGo (fld (arg ps 0) 1 0) h.tag }
def doLinkRetrain (h : Hdr) (ps : List Word) (d : Dev) : Dev := runOp opLinkRetrain h ps d

/-- LANE.CFG: a TX lane takes TX_POL, PRE and POST, an RX lane RX_POL. -/
def opLaneCfg : Op :=
  stagingOp 0x0910 (exactly 1) [atLane] (fun _ _ _ => none) fun ps _ n =>
    [if n < 16 then { reg := .laneCtrl n, mask := 0x1F7, val := arg ps 0 }
     else { reg := .laneCtrl (n - 16), mask := 0x200, val := arg ps 0 }]
def doLaneCfg (h : Hdr) (ps : List Word) (d : Dev) : Dev := runOp opLaneCfg h ps d

/-- LANE.GET. -/
def opLaneGet : Op :=
  readingOp 0x0911 (exactly 0) [{ level := 5, first := 16, count := 16 }] fun d _ i =>
    [d.shown (.laneCtrl (i - 16)), d.shown (.laneStat (i - 16))] ++
    (List.range 12).map fun t => d.shown (.laneDfe (i - 16) t)
def doLaneGet (h : Hdr) (ps : List Word) (d : Dev) : Dev := runOp opLaneGet h ps d

/-! ## Family 0x0C (Table 14.6) -/

/-- The source of a parameter word lies in 1–511. -/
def sourceRefusal (ps : List Word) (i : Nat) : Option Res := refuseIf i (decide (fld (arg ps i) 8 0 = 0))

/-- The target of parameter word 0 is at most 19. -/
def targetRefusal (ps : List Word) : Option Res := refuseIf 0 (decide (19 < fld (arg ps 0) 4 0))

/-- EVT.SRC. -/
def opEvtSrc : Op :=
  stagingOp 0x0C00 (exactly 2) [atChip] (fun ps _ _ => sourceRefusal ps 0) fun ps _ _ =>
    [whole (.srcCfg (fld (arg ps 0) 8 0)) (arg ps 1)]
def doEvtSrc (h : Hdr) (ps : List Word) (d : Dev) : Dev := runOp opEvtSrc h ps d

/-- EVT.THRESH. -/
def opEvtThresh : Op :=
  stagingOp 0x0C01 (exactly 2) [atChip] (fun ps _ _ => targetRefusal ps) fun ps _ _ =>
    [whole (.tgt (fld (arg ps 0) 4 0) 0) (arg ps 1)]
def doEvtThresh (h : Hdr) (ps : List Word) (d : Dev) : Dev := runOp opEvtThresh h ps d

/-- One array operation on a source. -/
def Dev.arrayOp (d : Dev) (op s : Nat) : Dev :=
  match op with
  | 0 => d.setEn s true
  | 1 => d.setEn s false
  | 2 => d.pendSet s
  | _ => d.pendClr s

/-- EVT.ARRAY. -/
def opEvtArray : Op :=
  { opc := 0x0C02, len := exactly 1, lvs := [atChip]
    check := fun _ _ ps _ _ => sourceRefusal ps 0
    act := fun d h ps lv l =>
      eachNow (fun d _ _ => (d.arrayOp (fld (arg ps 0) 17 16) (fld (arg ps 0) 8 0), plain sOk)) d h lv l }
def doEvtArray (h : Hdr) (ps : List Word) (d : Dev) : Dev := runOp opEvtArray h ps d

/-- EVT.COMPLETE replies OK even when R336 ignores it. -/
def opEvtComplete : Op :=
  { opc := 0x0C03, len := exactly 2, lvs := [atChip]
    check := fun _ _ ps _ _ => firstOf [targetRefusal ps, sourceRefusal ps 1]
    act := fun d h ps lv l =>
      eachNow (fun d _ _ => (d.complete (fld (arg ps 0) 4 0) (fld (arg ps 1) 8 0), plain sOk)) d h lv l }
def doEvtComplete (h : Hdr) (ps : List Word) (d : Dev) : Dev := runOp opEvtComplete h ps d

/-- EVT.GET. -/
def opEvtGet : Op :=
  { readingOp 0x0C04 (exactly 1) [atChip] fun d ps _ =>
      let s := fld (arg ps 0) 8 0
      let x := d.src s
      [d.shown (.srcCfg s), mkw (4 * b2n x.en + 2 * b2n (!x.q.isEmpty) + b2n x.act), d.shown (.srcQ s)]
    with check := fun _ _ ps _ _ => sourceRefusal ps 0 }
def doEvtGet (h : Hdr) (ps : List Word) (d : Dev) : Dev := runOp opEvtGet h ps d

end Sys2Proof.Machine
end

