-- ==== Sys2Proof/Machine/EngFamily.lean ====
section
/-! DEFINITION. Opcode families 0x0A and 0x0B: vertex engines, memory and DMA (R315, R317, R330, R351). -/

namespace Sys2Proof.Machine

/-! ## Family 0x0A (Table 12.10) -/

/-- ENG.LOAD. -/
def opEngLoad : Op :=
  { opc := 0x0A00, len := exactly 2, lvs := [atEngine]
    act := fun d h ps lv l => l.foldl (fun d e =>
      d.engLoadGo e h.tag (d.unitOf lv e) (arg ps 0).toNat (arg ps 1).toNat) d }
def doEngLoad (h : Hdr) (ps : List Word) (d : Dev) : Dev := runOp opEngLoad h ps d

/-- ENG.START on one engine: it must be stopped, its quadrant awake (R351), and no load in progress. -/
def Dev.engStartCmd (d : Dev) (ps : List Word) (e : Nat) : Dev × Res :=
  if !d.engStopped e then (d, refusal sPrecondition 0x0A01)
  else if d.asleep (128 + e / 4) then (d, refusal sPrecondition 0x0D01)
  else if (d.eng e).load.isSome then (d, plain sBusy)
  else (d.engStartGo e (if bitOf (arg ps 0) 31 then some (arg ps 1).toNat else none), plain sOk)

/-- ENG.START: w1 is present when USE_PC is 1. -/
def opEngStart : Op :=
  { opc := 0x0A01, len := fun ps => ps.length == 1 + fld (arg ps 0) 31 31, lvs := [atEngine]
    check := fun _ _ ps _ _ => refuseIf 1 (bitOf (arg ps 0) 31 &&
      (decide ((arg ps 1).toNat % 4 ≠ 0) || decide (0x10000 ≤ (arg ps 1).toNat)))
    act := fun d h ps lv l => eachNow (fun d _ e => d.engStartCmd ps e) d h lv l }
def doEngStart (h : Hdr) (ps : List Word) (d : Dev) : Dev := runOp opEngStart h ps d

/-- ENG.HALT. -/
def opEngHalt : Op :=
  { opc := 0x0A02, len := exactly 0, lvs := [atEngine]
    act := fun d h _ lv l => l.foldl (fun d e => d.engHaltGo e h.tag (d.unitOf lv e)) d }
def doEngHalt (h : Hdr) (ps : List Word) (d : Dev) : Dev := runOp opEngHalt h ps d

/-- ENG.KICK. -/
def opEngKick : Op :=
  { opc := 0x0A03, len := exactly 0, lvs := [atEngine]
    act := fun d h _ lv l => eachNow (fun d _ e => (d.engKickGo e, plain sOk)) d h lv l }
def doEngKick (h : Hdr) (ps : List Word) (d : Dev) : Dev := runOp opEngKick h ps d

/-- ENG.GET. -/
def opEngGet : Op :=
  readingOp 0x0A04 (exactly 0) [atEngine] fun d _ e => [d.engCtrl e 0, d.engCtrl e 4, d.engCtrl e 8, d.engCtrl e 12]
def doEngGet (h : Hdr) (ps : List Word) (d : Dev) : Dev := runOp opEngGet h ps d

/-- The shared memory that MEM.FILL reaches: the chip's at level 0, the addressed quadrant's at level 1. -/
def fillRange (level q a bytes : Nat) : Bool :=
  if level = 0 then decide (0x800000 ≤ a) && decide (a + bytes ≤ 0x1000000)
  else decide (quadMem q ≤ a) && decide (a + bytes ≤ quadMem q + 0x300000)

/-- MEM.FILL is accepted here; its words are written when it ends. -/
def opMemFill : Op :=
  { opc := 0x0A10, len := exactly 3, lvs := [atChip, atQuad]
    check := fun _ _ ps lv q => firstOf [
      refuseIf 0 (decide ((arg ps 0).toNat % 4 ≠ 0) || !fillRange lv q (arg ps 0).toNat 4),
      refuseIf 1 (decide ((arg ps 1).toNat % 64 ≠ 0) || !fillRange lv q (arg ps 0).toNat (arg ps 1).toNat)]
    act := fun d h ps _ _ =>
      { d.note h.tag sAccepted with
        fills := d.fills ++ [(h.tag, (arg ps 0).toNat, (arg ps 1).toNat, arg ps 2)] } }
def doMemFill (h : Hdr) (ps : List Word) (d : Dev) : Dev := runOp opMemFill h ps d

/-- A fill ends: the value stands in every word of its range. -/
def Dev.fillEnd (d : Dev) (tag : BitVec 8) : Dev :=
  match d.fills.find? fun f => f.1 == tag with
  | some (_, a, n, w) =>
    let d := { d with fills := d.fills.filter fun f => f.1 != tag }
    (d.storeWords a (List.replicate (n / 4) w)).finishAll tag (plain sOk)
  | none => d

/-! ## Family 0x0B (Table 13.4) -/

/-- The levels of the DMA family: no INDEX 0x3FF (R330). -/
def dmaLv : Lv := { atDma with many := false }

/-- DMA.SET: only in IDLE. -/
def Dev.dmaSetGo (d : Dev) (ps : List Word) (ch : Nat) : Dev × Res :=
  if d.dmaBusy ch then (d, plain sPrecondition)
  else ((List.range 5).foldl (fun d k => d.dmaWrite ch k (arg ps k)) d, plain sOk)

def opDmaSet : Op :=
  { opc := 0x0B00, len := exactly 5, lvs := [dmaLv]
    check := fun _ _ ps _ _ => refuseIf 3 (decide ((arg ps 3).toNat &&& 0xD ≠ 0))
    act := fun d h ps lv l => eachNow (fun d _ i => d.dmaSetGo ps (i - 16)) d h lv l }
def doDmaSet (h : Hdr) (ps : List Word) (d : Dev) : Dev := runOp opDmaSet h ps d

/-- DMA.RUN; with WAIT 1 the command waits for the end of the channel. -/
def Dev.dmaRunGo (d : Dev) (h : Hdr) (wait : Bool) (lv i : Nat) : Dev :=
  let ch := i - 16
  if d.dmaBusy ch ∨ d.dmaCount ch = 0 then d.done h lv i (plain sPrecondition)
  else if d.dmaConfigBad ch then d.done h lv i (refusal sBadParam 0xFFFE (d.chanLoc ch).toNat)
  else if wait then
    let d := d.note h.tag sAccepted
    (d.setChan ch { d.chan ch with tag := some h.tag }).dmaEnter ch
  else (d.dmaEnter ch).done h lv i (plain sOk)

def opDmaRun : Op :=
  { opc := 0x0B01, len := exactly 1, lvs := [dmaLv]
    act := fun d h ps lv l => l.foldl (fun d i => d.dmaRunGo h (bitOf (arg ps 0) 0) lv i) d }
def doDmaRun (h : Hdr) (ps : List Word) (d : Dev) : Dev := runOp opDmaRun h ps d

/-- DMA.RESUME: only in HALTED. -/
def opDmaResume : Op :=
  { opc := 0x0B02, len := exactly 0, lvs := [dmaLv]
    act := fun d h _ lv l => eachNow (fun d _ i =>
      if (d.chan (i - 16)).st == .halted then (d.dmaResumeGo (i - 16), plain sOk) else (d, plain sPrecondition)) d h lv l }
def doDmaResume (h : Hdr) (ps : List Word) (d : Dev) : Dev := runOp opDmaResume h ps d

/-- DMA.ABORT replies OK in every state. -/
def opDmaAbort : Op :=
  { opc := 0x0B03, len := exactly 0, lvs := [dmaLv]
    act := fun d h _ lv l => eachNow (fun d _ i => (d.dmaAbortGo (i - 16), plain sOk)) d h lv l }
def doDmaAbort (h : Hdr) (ps : List Word) (d : Dev) : Dev := runOp opDmaAbort h ps d

/-- DMA.GET. -/
def opDmaGet : Op :=
  readingOp 0x0B04 (exactly 0) [dmaLv] fun d _ i => (List.range 8).map fun k => d.shown (.dmaR (i - 16) k)
def doDmaGet (h : Hdr) (ps : List Word) (d : Dev) : Dev := runOp opDmaGet h ps d

/-- PQ.ADD. -/
def opPqAdd : Op :=
  { opc := 0x0B10, len := exactly 2, lvs := [dmaLv]
    act := fun d h ps lv l => eachNow (fun d _ i =>
      let u := dmaUnit (i - 16)
      let k := fld (arg ps 0) 3 0
      let d := d.pqAddGo u k (fld (arg ps 1) 15 0)
      (d, okWords [mkw (d.pqLevel u k)])) d h lv l }
def doPqAdd (h : Hdr) (ps : List Word) (d : Dev) : Dev := runOp opPqAdd h ps d

end Sys2Proof.Machine
end

