-- ==== Sys2Proof/Machine/PowerFamily.lean ====
section
/-! DEFINITION. Opcode families 0x0D and 0x0E: power and lattice (R350–R353, R365, R372). -/

namespace Sys2Proof.Machine

/-! ## Family 0x0D (Table 15.8) -/

/-- The cells of a block: its TX cells and then its RX cells. -/
def blockCells (b : Nat) : List Nat := ((List.range 4).map (4 * b + ·)) ++ (List.range 4).map (64 + 4 * b + ·)

/-- The units and domains that an addressed unit names; a lane in no group names no domain. -/
def Dev.pwrParts (d : Dev) (level i : Nat) : List (Nat × Option Nat) :=
  match level with
  | 0 => [(d.unitOf 0 0, some 135)]
  | 1 => [(d.unitOf 1 i, some (128 + i))]
  | 2 => (blockCells i).map fun c => (d.unitOf 3 c, some c)
  | 3 => [(d.unitOf 3 i, some i)]
  | 6 => [(d.unitOf 6 i, some (136 + i))]
  | _ => [(d.unitOf 5 i, (d.groupOf i).map (132 + ·))]

/-- The parts of a power command. -/
def Dev.pwrLaunch (d : Dev) (tag : BitVec 8) (l : List (Nat × Option Nat)) : Dev :=
  d.updFlight tag fun f => { f with parts := l.map fun x => { unit := x.1 } }

/-- The levels of PWR.SLEEP and PWR.WAKE. -/
def pwrLevels : List Lv := [atChip, atQuad, atBlock, atCell, { level := 5, first := 0, count := 16 }]

/-- PWR.SLEEP: preconditions are judged on the projected state (R350). A lane in no group has no direction in RUN. -/
def opPwrSleep : Op :=
  { opc := 0x0D00, len := exactly 0, lvs := pwrLevels
    act := fun d h _ lv l =>
      let xs := l.flatMap (d.pwrParts lv)
      let pj := d.projectAll
      xs.foldl (fun d x =>
        match x.2 with
        | some n => d.sleepReq pj n (some (h.tag, x.1))
        | none => d.finishPart h.tag x.1 (refusal sPrecondition 0x0D02)) (d.pwrLaunch h.tag xs) }
def doPwrSleep (h : Hdr) (ps : List Word) (d : Dev) : Dev := runOp opPwrSleep h ps d

/-- PWR.WAKE. -/
def opPwrWake : Op :=
  { opc := 0x0D01, len := exactly 0, lvs := pwrLevels
    act := fun d h _ lv l =>
      let xs := l.flatMap (d.pwrParts lv)
      xs.foldl (fun d x =>
        match x.2 with
        | some n => d.wakeReq n (some (h.tag, x.1))
        | none => d.finishPart h.tag x.1 (plain sOk)) (d.pwrLaunch h.tag xs) }
def doPwrWake (h : Hdr) (ps : List Word) (d : Dev) : Dev := runOp opPwrWake h ps d

/-- PM.CFG. -/
def opPmCfg : Op := stagingOp 0x0D02 (exactly 1) [atChip] (fun _ _ _ => none) fun ps _ _ => [whole .pmCfg (arg ps 0)]
def doPmCfg (h : Hdr) (ps : List Word) (d : Dev) : Dev := runOp opPmCfg h ps d

/-- PL.SET. -/
def opPlSet : Op :=
  stagingOp 0x0D03 (exactly 2) [atChip] (fun _ _ _ => none) fun ps _ _ => [whole (.plStep (fld (arg ps 0) 2 0)) (arg ps 1)]
def doPlSet (h : Hdr) (ps : List Word) (d : Dev) : Dev := runOp opPlSet h ps d

/-- PL.MIN acts at once. -/
def opPlMin : Op :=
  { opc := 0x0D04, len := exactly 1, lvs := [atChip]
    act := fun d h ps lv l => eachNow (fun d _ _ => (d.plMinSet (fld (arg ps 0) 2 0), plain sOk)) d h lv l }
def doPlMin (h : Hdr) (ps : List Word) (d : Dev) : Dev := runOp opPlMin h ps d

/-- AUX.LIM. -/
def opAuxLim : Op :=
  stagingOp 0x0D05 (exactly 2) [atChip] (fun _ _ _ => none) fun ps _ _ => [whole (.auxLim (fld (arg ps 0) 2 0)) (arg ps 1)]
def doAuxLim (h : Hdr) (ps : List Word) (d : Dev) : Dev := runOp opAuxLim h ps d

/-- The state word of PWR.GET. -/
def Dev.pwrStates (d : Dev) (lv i : Nat) : Word :=
  mkw (((d.pwrParts lv i).zipIdx.map fun x => ((x.1.2.map d.psCode).getD 0) * 4 ^ x.2).foldl (· + ·) 0)

/-- PWR.GET. -/
def opPwrGet : Op :=
  { opc := 0x0D06, len := exactly 0
    lvs := [atChip, atQuad, atBlock, atCell, { level := 5, first := 0, count := 16 }, atEngine].map fun l => { l with many := false }
    act := fun d h _ lv l => answer (fun d lv i => [d.shown .pwrStat, d.pwrStates lv i]) d h lv l }
def doPwrGet (h : Hdr) (ps : List Word) (d : Dev) : Dev := runOp opPwrGet h ps d

/-- HK.GET. -/
def opHkGet : Op :=
  readingOp 0x0D07 (exactly 0) [atChip] fun d _ _ =>
    ((List.range 24).map fun i => d.shown (.hkTemp i)) ++ ((List.range 8).map fun r => d.shown (.hkSup r)) ++
    ((List.range 8).map fun a => d.shown (.hkAux a)) ++ [d.shown .hkGov, d.shown .fabV0, d.shown .fabV1]
def doHkGet (h : Hdr) (ps : List Word) (d : Dev) : Dev := runOp opHkGet h ps d

/-! ## Family 0x0E (Table 16.6) -/

/-- LAT.SET. -/
def opLatSet : Op := stagingOp 0x0E00 (exactly 1) [atChip] (fun _ _ _ => none) fun ps _ _ => [whole .latCfg (arg ps 0)]
def doLatSet (h : Hdr) (ps : List Word) (d : Dev) : Dev := runOp opLatSet h ps d

/-- LAT.GET. -/
def opLatGet : Op :=
  readingOp 0x0E01 (exactly 0) [atChip] fun d _ _ => [d.shown .latCfg, d.shown .chordStat, d.shown .tbAlign]
def doLatGet (h : Hdr) (ps : List Word) (d : Dev) : Dev := runOp opLatGet h ps d

/-- The two words of a member in LAT.MEMBERS. -/
def memberWords (m : Member) : List Word :=
  [mkw m.word.toNat, mkw (m.word.toNat / 2 ^ 32 % 2 ^ 12 + b2n m.silent * 2 ^ 31)]

/-- LAT.MEMBERS: only on a head. -/
def opLatMembers : Op :=
  { opc := 0x0E02, len := exactly 0, lvs := [atChip]
    act := fun d h _ lv l => eachNow (fun d _ _ =>
      if d.role = 1 then (d, okWords ((List.range d.last).flatMap fun i => memberWords (d.member (i + 1))))
      else (d, refusal sPrecondition 0x0E01)) d h lv l }
def doLatMembers (h : Hdr) (ps : List Word) (d : Dev) : Dev := runOp opLatMembers h ps d

/-! ### LAT.ARM (R372): checks, frame numbers, arming -/

/-- A chip of the lattice in TARGET form. -/
def chipUnit (k : Nat) : Nat := (tgtWord k 0 0).toNat

/-- Members of the head's lattice. -/
def Dev.members (d : Dev) : List Nat := if d.role = 1 then (List.range d.last).map (· + 1) else []

/-- A TB_STATUS state in which a chip may be armed: IDLE or ARMED. -/
def armable (state : Nat) : Bool := state == 1 || state == 2

/-- The parts of the members await a result of stage `n`. -/
def Dev.latStage (d : Dev) (tag : BitVec 8) (n : Nat) : Dev :=
  d.updFlight tag fun f => { f with stage := n, parts := f.parts.map fun p => { p with res := none } }

/-- Give the parts of a unit a result. -/
def setPart (unit : Nat) (r : Res) (l : List Part) : List Part :=
  l.map fun p => if p.unit = unit then { p with res := some r } else p

/-- Pass one register access to a member, or note its hop as down. -/
def Dev.latSend (h : Hdr) (opc : Nat) (ps : List Word) (d : Dev) (k : Nat) : Dev :=
  if d.downOk then d.sendDown opc { h with rr := true, cg := false, bnd := 0 } (chipUnit k) ps
  else d.updFlight h.tag fun f => { f with parts := setPart (chipUnit k) (plain sLink) f.parts }

/-- The last stage ends: the head is armed last. -/
def Dev.latArmLast (d : Dev) (tag : BitVec 8) : Dev := (d.armWrite).endWhole tag (plain sOk)

/-- The first member part that failed its stage: another status than OK, or in stage 1 a timebase that cannot be armed. -/
def latFailure (stage : Nat) (l : List Part) : Option Res :=
  l.findSome? fun p =>
    match p.res with
    | some r =>
      if r.status ≠ sOk then some { r with aux := p.unit }
      else if stage = 1 ∧ !armable (fld (wordAt r.words 0) 3 2) then some (refusal sPrecondition 0 p.unit)
      else none
    | none => none

/-- Stages follow each other once every member has answered; `n` bounds how many may pass at once. -/
def Dev.latNext (d : Dev) (tag : BitVec 8) : Nat → Dev
  | 0 => d
  | n + 1 =>
    match d.flightOf tag with
    | some f =>
      if f.opc = 0x0E03 ∧ partsDone f.parts then
        (match latFailure f.stage f.parts with
         | some r => d.endWhole tag r
         | none =>
           if f.stage = 1 then
             let w := mkw (fld (arg f.params 0) 22 0)
             let d := (d.latStage tag 2).setReg .frameNext w
             (d.members.foldl (Dev.latSend f.hdr 0x0101 [mkw 0x20008, w]) d).latNext tag n
           else if f.stage = 2 then
             (d.members.foldl (Dev.latSend f.hdr 0x0101 [mkw 0x20000, 1]) (d.latStage tag 3)).latNext tag n
           else d.latArmLast tag)
      else d
    | none => d

/-- LAT.ARM begins with the check of every chip, this one first. -/
def Dev.latArmGo (d : Dev) (h : Hdr) (ps : List Word) : Dev :=
  if !armable d.tb.st.code then d.final 0x0E03 h (refusal sPrecondition 0 (chipUnit d.chipNo))
  else
    let d := (d.launch 0x0E03 h ps (d.members.map chipUnit)).latStage h.tag 1
    (d.members.foldl (Dev.latSend h 0x0100 [mkw 0x20004, 1]) d).latNext h.tag 4

/-- LAT.ARM acts at level 7 only. -/
def opLatArm : Op :=
  { opc := 0x0E03, len := exactly 1, lvs := [], act := fun d _ _ _ _ => d }
def doLatArm (h : Hdr) (ps : List Word) (d : Dev) : Dev :=
  let d := d.modifyEnd
  if d.boot.phase = .up ∧ !d.inFlight h.tag ∧ exactly 1 ps ∧ Hdr.level h = 7 ∧ Hdr.index h = 0x3FF then d.latArmGo h ps
  else runOp opLatArm h ps d

end Sys2Proof.Machine
end

