-- ==== Sys2Proof/WellFormed.lean ====
section
/-! DEFINITION. The operands of a command that its type alone does not bound. -/

namespace Sys2Proof

/-- The mantissa width of a COMP code (R281). -/
def mantWidth (comp : Fin 4) : Nat :=
  match comp with
  | 0 => 16
  | 1 => 7
  | 2 => 9
  | 3 => 12

/-- A value fits a two's-complement field of `m` bits. -/
def fitsSigned (m : Nat) (v : Int) : Bool :=
  decide (-(2 ^ (m - 1) : Nat) ≤ v) && decide (v < (2 ^ (m - 1) : Nat))

/-- Every sample pair fits `m` bits. -/
def pairsFit (m : Nat) (l : List (Int × Int)) : Bool :=
  l.all fun v => fitsSigned m v.1 && fitsSigned m v.2

/-- A SAMPLE packet's lists hold what its NBLK field says, and its mantissas fit their width (Table 11.5). -/
def SamplePkt.wf (k : SamplePkt) : Bool :=
  decide (k.nblk < 16) && k.codes.length == k.nblk && k.exps.length == k.nblk &&
  k.exps.all (· < 16) && k.mants.length == 16 * k.nblk && pairsFit (mantWidth k.comp) k.mants

/-- A CHORD packet's lists hold what its NBLK and K fields say (R287). -/
def ChordPkt.wf (k : ChordPkt) : Bool :=
  decide (k.nblk < 16) && decide (k.k < 256) && k.desc.length == k.k * k.nblk &&
  k.mants.length == 16 * k.k * k.nblk && pairsFit 16 k.mants

/-- A parameter list that a header's 11-bit LEN can announce: up to 2,047 bytes (Table 3.1). -/
def paramsWf (ps : List Word) : Bool := decide (4 * ps.length < 2048)

/-- The most words that PACKET_RECEIVED takes: a packet of 4,095 words within the superblocks that hold it, of at most 1,008 words
and each with its pointer word (R269, R270). -/
abbrev maxReceived : Nat := 8192

/-- Well-formed commands: the bounds that the constructors' types do not state. -/
def Instr.wf : Instr → Bool
  | .txSamplePacket k => k.wf
  | .chordPacket _ k => k.wf
  | .rffeJobEnd _ _ data => decide (data.length ≤ 16)
  | .bulkWr _ data => decide (1 ≤ data.length) && decide (data.length ≤ 8184)
  | .bulkRd _ n => decide (1 ≤ n.toNat) && decide (n.toNat ≤ 8184)
  | .housekeepingConversion v => decide (-32768 ≤ v) && decide (v < 65536)
  | .packetReceived _ ws => decide (1 ≤ ws.length) && decide (ws.length ≤ maxReceived)
  | .nop _ ps => paramsWf ps
  | .idGet _ ps => paramsWf ps
  | .capWalk _ ps => paramsWf ps
  | .tagAbort _ ps => paramsWf ps
  | .regRead _ ps => paramsWf ps
  | .regWrite _ ps => paramsWf ps
  | .regModify _ ps => paramsWf ps
  | .stageRead _ ps => paramsWf ps
  | .commit _ ps => paramsWf ps
  | .discard _ ps => paramsWf ps
  | .synSet _ ps => paramsWf ps
  | .synGet _ ps => paramsWf ps
  | .cellLo _ ps => paramsWf ps
  | .winSet _ ps => paramsWf ps
  | .winBurst _ ps => paramsWf ps
  | .rffeXfer _ ps => paramsWf ps
  | .rffeTimed _ ps => paramsWf ps
  | .divSet _ ps => paramsWf ps
  | .divSeq _ ps => paramsWf ps
  | .mismatchMeas _ ps => paramsWf ps
  | .adcSet _ ps => paramsWf ps
  | .dacSet _ ps => paramsWf ps
  | .convGet _ ps => paramsWf ps
  | .orxSet _ ps => paramsWf ps
  | .orxGet _ ps => paramsWf ps
  | .chainSet _ ps => paramsWf ps
  | .carrSet _ ps => paramsWf ps
  | .carrGain _ ps => paramsWf ps
  | .chainSync _ ps => paramsWf ps
  | .chainGet _ ps => paramsWf ps
  | .ctxSet _ ps => paramsWf ps
  | .ctxGet _ ps => paramsWf ps
  | .beamSwap _ ps => paramsWf ps
  | .wtWrite _ ps => paramsWf ps
  | .wtRead _ ps => paramsWf ps
  | .ppSet _ ps => paramsWf ps
  | .cfrPulse _ ps => paramsWf ps
  | .dpdSwap _ ps => paramsWf ps
  | .dpdClear _ ps => paramsWf ps
  | .ppGet _ ps => paramsWf ps
  | .orxCapture _ ps => paramsWf ps
  | .capRelease _ ps => paramsWf ps
  | .calCfg _ ps => paramsWf ps
  | .calClass _ ps => paramsWf ps
  | .calRun _ ps => paramsWf ps
  | .calStop _ ps => paramsWf ps
  | .calClear _ ps => paramsWf ps
  | .calGet _ ps => paramsWf ps
  | .calExport _ ps => paramsWf ps
  | .calImport _ ps => paramsWf ps
  | .linkCfg _ ps => paramsWf ps
  | .linkGet _ ps => paramsWf ps
  | .linkRetrain _ ps => paramsWf ps
  | .laneCfg _ ps => paramsWf ps
  | .laneGet _ ps => paramsWf ps
  | .engLoad _ ps => paramsWf ps
  | .engStart _ ps => paramsWf ps
  | .engHalt _ ps => paramsWf ps
  | .engKick _ ps => paramsWf ps
  | .engGet _ ps => paramsWf ps
  | .memFill _ ps => paramsWf ps
  | .dmaSet _ ps => paramsWf ps
  | .dmaRun _ ps => paramsWf ps
  | .dmaResume _ ps => paramsWf ps
  | .dmaAbort _ ps => paramsWf ps
  | .dmaGet _ ps => paramsWf ps
  | .pqAdd _ ps => paramsWf ps
  | .evtSrc _ ps => paramsWf ps
  | .evtThresh _ ps => paramsWf ps
  | .evtArray _ ps => paramsWf ps
  | .evtComplete _ ps => paramsWf ps
  | .evtGet _ ps => paramsWf ps
  | .pwrSleep _ ps => paramsWf ps
  | .pwrWake _ ps => paramsWf ps
  | .pmCfg _ ps => paramsWf ps
  | .plSet _ ps => paramsWf ps
  | .plMin _ ps => paramsWf ps
  | .auxLim _ ps => paramsWf ps
  | .pwrGet _ ps => paramsWf ps
  | .hkGet _ ps => paramsWf ps
  | .latSet _ ps => paramsWf ps
  | .latGet _ ps => paramsWf ps
  | .latMembers _ ps => paramsWf ps
  | .latArm _ ps => paramsWf ps
  | _ => true

end Sys2Proof
end

