-- ==== Sys2Proof/Machine/Wire.lean ====
section
/-! DEFINITION. Packets as words, and the egress arbiter (R26, R27, R269–R273, R276, R278–R283, R287–R290). -/

namespace Sys2Proof.Machine

/-! ## Words and bit strings -/

/-- Fields packed from bit 0 upward: width and value. -/
def packBits : List (Nat × Nat) → Nat
  | [] => 0
  | f :: fs => f.2 % 2 ^ f.1 + 2 ^ f.1 * packBits fs

/-- A number as `n` words, low bits first. -/
def toWords64 : Nat → Nat → List (BitVec 64)
  | 0, _ => []
  | n + 1, x => BitVec.ofNat 64 x :: toWords64 n (x / 2 ^ 64)

/-- The number that words spell, low bits first. -/
def ofWords64 : List (BitVec 64) → Nat
  | [] => 0
  | w :: ws => w.toNat + 2 ^ 64 * ofWords64 ws

/-- The bytes of words, little-endian within each word (R273). -/
def bytes64 (ws : List (BitVec 64)) : List Byte := ws.flatMap fun w => natBytes 8 w.toNat

/-- Bytes as words, padded with zero bytes (R278). -/
def words64 (bs : List Byte) : List (BitVec 64) := toWords64 ((bs.length + 7) / 8) (bytesNat bs)

/-- Memory words two to a word (R290). -/
def pairWords (l : List Word) : List (BitVec 64) :=
  toWords64 ((l.length + 1) / 2) (packBits (l.map fun w => (32, w.toNat)))

/-! ## Headers and check words (R270, R273) -/

/-- The header word of Table 11.1. -/
def headWord (typ vc plen chip id : Nat) : BitVec 64 :=
  let low := packBits [(4, typ), (3, vc), (1, 0), (12, plen), (3, chip), (9, 0), (16, id)]
  BitVec.ofNat 64 (low + 2 ^ 48 * crcOf 3 (natBytes 6 low))

/-- A packet: header, payload and check word under an algorithm. -/
def framePacket (alg typ vc chip id : Nat) (payload : List (BitVec 64)) : List (BitVec 64) :=
  let ws := headWord typ vc (payload.length + 2) chip id :: payload
  ws ++ [BitVec.ofNat 64 (crcOf alg (bytes64 ws))]

/-! ## Payloads -/

/-- Mantissa fields of sample pairs. -/
def mantBits (m : Nat) (l : List (Int × Int)) : List (Nat × Nat) :=
  l.flatMap fun v => [(m, unsx m v.1), (m, unsx m v.2)]

/-- A SAMPLE packet (Table 11.5). -/
def samplePayload (p : SamplePkt) : List (BitVec 64) :=
  let m := mantWidth p.comp
  BitVec.ofNat 64 (packBits [(48, p.ts.toNat), (4, p.nblk), (2, p.comp.val)]) ::
  BitVec.ofNat 64 (packBits (p.codes.map fun c => (2, c)) % 2 ^ 16 + 2 ^ 16 * (packBits (p.exps.map fun e => (4, e)) % 2 ^ 32)) ::
  toWords64 ((p.nblk * m + 1) / 2) (packBits (mantBits m p.mants))

/-- A CHORD packet (R287). -/
def chordPayload (p : ChordPkt) : List (BitVec 64) :=
  BitVec.ofNat 64 (packBits [(48, p.ts.toNat), (4, p.nblk), (4, 0), (8, p.k)]) ::
  (toWords64 ((p.k * p.nblk + 7) / 8) (packBits (p.desc.map fun d => (8, d.1 % 4 + 16 * d.2))) ++
   toWords64 (8 * p.k * p.nblk) (packBits (mantBits 16 p.mants)))

/-- ID of a CHORD packet: the rate code and DIR (Table 11.3). -/
def chordId (p : ChordPkt) : Nat := p.rate.val + 256 * b2n p.tx

/-- Word 1 of a bulk packet of the CX6464 (Table 11.9). -/
def bulkWord (addr : Word) (xid : Byte) (nw status : Nat) : BitVec 64 :=
  BitVec.ofNat 64 (packBits [(32, addr.toNat), (13, nw), (3, 0), (8, xid.toNat), (8, status)])

/-- TYPE, CHIP, ID and payload of a packet on virtual channel `vc` (Table 11.3). CHIP is 0 on VC0. -/
def Dev.packetParts (d : Dev) (vc : Nat) : Pkt → Nat × Nat × Nat × List (BitVec 64)
  | .reply r => (2, if vc = 1 then d.chipNo else 0, 0, words64 (replyBytes r))
  | .event e => (3, if vc = 1 then d.chipNo else 0, 0, words64 (eventBytes e))
  | .sample p => (4, 0, p.ctx.val, samplePayload p)
  | .chord p => (5, p.sender.val, chordId p, chordPayload p)
  | .lctl kind w => (6, d.chipNo, kind, [w])
  | .command bs => (1, (bytesNat ((bs.drop 4).take 2)) / 0x2000, 0, words64 bs)
  | .bulkData a x st ws => (9, d.chipNo, 0, bulkWord a x ws.length st :: pairWords ws)
  | .bulkAck a x st => (10, d.chipNo, 0, [bulkWord a x 0 st])
  | .capture a x ws => (11, d.chipNo, 0, bulkWord a x ws.length 0 :: pairWords ws)
  | .pass t c i ws => (t, c, i, ws)

/-- The words of a packet, closed by the egress unit of its virtual channel. -/
def Dev.sentWords (d : Dev) (vc : Nat) (p : Pkt) : List (BitVec 64) :=
  let x := d.packetParts vc p
  framePacket (d.egPoly vc) x.1 vc x.2.1 x.2.2.1 x.2.2.2

/-! ## The egress arbiter (R26, R27) -/

/-- The order of the virtual channels of a group. -/
def vcOrder (g : Nat) : List Nat := if g = 0 then [1, 0, 2, 3, 4, 5, 7] else [1, 6, 7]

/-- The virtual channel that takes the next packet slot of a group. -/
def Dev.nextVc (d : Dev) (g : Nat) : Option Nat :=
  if 256 ≤ d.hiCount g ∧ !(d.queueOf g 7).isEmpty then some 7
  else (vcOrder g).find? fun vc => !(d.queueOf g vc).isEmpty

/-- A group begins packets: it is in RUN and its transmit direction is awake and not going to sleep. -/
def Dev.sends (d : Dev) (g : Nat) : Bool := d.groupRun g && !(d.lg g).txsleep && !(d.lg g).quiet && !(d.lg g).waking

/-- The next packet begins. -/
def Dev.sendNext (d : Dev) (g : Nat) : Dev :=
  if d.sends g ∧ (d.wire g).isNone then
    match d.nextVc g with
    | some vc =>
      (match d.queueOf g vc with
       | p :: rest =>
         let d := d.setEgress (8 * g + vc) rest
         let d := d.setHiCount g (if vc = 7 then 0 else d.hiCount g + 1)
         d.setWire g (some { pkt := p, words := d.sentWords vc p })
       | [] => d)
    | none => d
  else d

/-- The final reply of the commit that changed VC_CHK of VC0 or VC1 has left: both halves take effect (R276). -/
def Dev.finalLeft (d : Dev) (tag : Option (BitVec 8)) : Dev :=
  let due := d.link.polyWait.filter fun e => some e.2 == tag
  due.foldl (fun d e => d.polySet e.1)
    { d with link := { d.link with polyWait := d.link.polyWait.filter fun e => some e.2 != tag } }

/-- A packet has left: it may be a final reply. -/
def Dev.polyReply (d : Dev) (p : Pkt) : Dev :=
  match p with
  | .reply r => d.finalLeft r.finalOf
  | _ => d

/-- A packet has left the lanes; the next one begins, or the SLEEP superblock follows. -/
def Dev.packetSent (d : Dev) (g : Nat) : Dev :=
  match d.wire g with
  | some s => (((d.setWire g none).polyReply s.pkt).polySettle.sleepSuperblock g).sendNext g
  | none => d.polySettle.sendNext g

end Sys2Proof.Machine
end

