-- ==== Sys2Proof/Machine/CalRows.lean ====
section
/-! DEFINITION. The events of the calibration engines, the loads of the vertex engines and the fills of memory. -/

namespace Sys2Proof.Machine

/-- The calibration engine places a due step at the earliest start tick that meets the gap conditions. (R223) -/
def execStepPlacement (q : Fin 4) (s : State) : Out :=
  act (whenUp fun d => d.stepPlacement q) s

/-- At S − 2,048, a step that uses the ORX requests its class-1 job. (R224) -/
def execCalOrxRequest (u : CalUnit) (s : State) : Out :=
  act (whenUp fun d => d.calOrxRequest u) s

/-- At S, a step whose ORX job was granted takes the cell; otherwise the step is not run and is placed again. (R13) -/
def execStepStart (u : CalUnit) (s : State) : Out :=
  act (whenUp fun d => d.stepStart u) s

/-- At the end of its declared duration, a step returns the cell to the data path. (R221) -/
def execStepEnd (u : CalUnit) (r : StepResult) (s : State) : Out :=
  act (whenUp fun d => d.stepEnd u r) s

/-- At the first path-block boundary at least 2,048 ticks after the last step, the run's values are stored. (R227) -/
def execCalStore (q : Fin 4) (s : State) : Out :=
  act (whenUp fun d => d.calStoreRow q) s

/-- A run that has not stored its values TIMEOUT ms after acceptance ends with LATE. (R228) -/
def execCalTimeout (q : Fin 4) (s : State) : Out :=
  act (whenUp fun d => d.calTimeoutRow q) s

/-- PERIOD ms after a unit's previous update of a kind ended, its next background update falls due. (R229) -/
def execBackgroundUpdateDue (u : CalUnit) (kind : Fin 7) (s : State) : Out :=
  act (whenUp fun d => d.bgDue u kind) s

/-- At the first path-block boundary after acceptance, the store is snapshot; the image is written with CHECK last and
OK is sent. (R236) -/
def execCalExportDone (q : Fin 4) (s : State) : Out :=
  act (whenUp fun d => d.calExportRow q) s

/-- At the first path-block boundary after the checks, the accepted image replaces the quadrant's calibration store.
(R238) -/
def execCalImportApply (q : Fin 4) (s : State) : Out :=
  act (whenUp fun d => d.calImportRow q) s

/-- At the next path-block boundary, CAL.CLEAR drops every point of the named kinds. (R241) -/
def execCalClearApply (q : Fin 4) (s : State) : Out :=
  act (whenUp fun d => d.calClearRow q) s

/-- The second pass of ENG.LOAD ends, PC takes ENTRY and the final OK is sent. (R315) -/
def execEngLoadDone (e : Fin 16) (s : State) : Out :=
  act (whenUp fun d => d.engLoadEnd e) s

/-- MEM.FILL finishes writing its range and sends its final OK. (R317) -/
def execMemFillDone (tag : BitVec 8) (s : State) : Out :=
  act (whenUp fun d => d.fillEnd tag) s

end Sys2Proof.Machine
end

