-- ==== Sys2Proof/Machine/Bulk.lean ====
section
/-! DEFINITION. Bulk transfers and their ingress store (R290–R293, R300). -/

namespace Sys2Proof.Machine

/-- Every word from `a` on satisfies `p`. -/
def allWords (p : Place → Bool) (a n : Nat) : Bool := (List.range n).all fun i => p (placeAt (a + 4 * i))

/-- A place of engine `e`'s local window that a bulk request may reach: a write reaches the two memories, a read also the control
block (R300). -/
def inWindow (write : Bool) (e : Nat) : Place → Bool
  | .imem f => f == e
  | .dmem f => f == e
  | .ctrl f _ => !write && f == e
  | _ => false

/-- A bulk request lies wholly within one range that it may reach (R291). -/
def bulkRange (write : Bool) (a n : Nat) : Bool :=
  match placeAt a with
  | .chipMem => allWords (fun p => p == .chipMem) a n
  | .quadMem q => allWords (fun p => p == .quadMem q) a n
  | .capture b => !write && allWords (fun p => p == .capture b) a n
  | .imem e => allWords (inWindow write e) a n
  | .dmem e => allWords (inWindow write e) a n
  | .ctrl e _ => allWords (inWindow write e) a n
  | _ => false

/-- The first refusal of a bulk request that the store holds (R291, R300). -/
def Dev.bulkRefusal (d : Dev) (write : Bool) (a n : Nat) : Option Nat :=
  if n = 0 ∨ 8184 < n ∨ a % 4 ≠ 0 ∨ ¬ bulkRange write a n then some sBadParam
  else if d.imemShut a n then some sPrecondition
  else none

/-- A bulk write: checked and written; a BULK_ACK follows when it asks for one or fails (R291). -/
def Dev.bulkWrite (d : Dev) (j : BulkJob) : Dev :=
  match d.bulkRefusal true j.addr.toNat j.data.length with
  | some st => d.push j.grp 7 (.bulkAck j.addr j.xid st)
  | none =>
    let d := d.storeWords j.addr.toNat j.data
    if j.ack then d.push j.grp 7 (.bulkAck j.addr j.xid sOk) else d

/-- The BULK_DATA packets of a read: at most 512 words each (R290). -/
def bulkPackets (xid : Byte) : Nat → Nat → List Word → List Pkt
  | 0, _, _ => []
  | n + 1, a, ws =>
    if ws.isEmpty then []
    else .bulkData (mkw a) xid sOk (ws.take 512) :: bulkPackets xid n (a + 2048) (ws.drop 512)

/-- A bulk read: checked and answered (R291). Its TS_HI latch lasts as long as the request (R46). -/
def Dev.bulkRead (d : Dev) (j : BulkJob) : Dev :=
  let a := j.addr.toNat
  match d.bulkRefusal false a j.n with
  | some st => d.push j.grp 7 (.bulkData j.addr j.xid st [])
  | none =>
    if (d.rangeError a j.n).isSome then d.push j.grp 7 (.bulkData j.addr j.xid sInternal [])
    else
      let r := d.readRange .bulk a j.n
      (bulkPackets j.xid (j.n / 512 + 1) a r.2).foldl (fun d p => d.push j.grp 7 p) (r.1.setLatch (portLatch .bulk) 0)

def Dev.bulkDo (d : Dev) (j : BulkJob) : Dev := if j.write then d.bulkWrite j else d.bulkRead j

def Dev.setBulk (d : Dev) (l : List BulkJob) : Dev := { d with link := { d.link with bulk := l } }

/-- The oldest request of the store completes and leaves it (R292). -/
def Dev.bulkNext (d : Dev) : Dev :=
  match d.link.bulk with
  | j :: rest => (d.bulkDo j).setBulk rest
  | [] => d

/-- The requests of the store complete, at most `n` of them, while one of `which` waits. -/
def Dev.bulkRun (which : BulkJob → Bool) : Nat → Dev → Dev
  | 0, d => d
  | n + 1, d => if d.link.bulk.any which then Dev.bulkRun which n d.bulkNext else d

/-- Every bulk write that has arrived is complete in memory, as it is before a VC0 command executes (R292). -/
def Dev.bulkSettle (d : Dev) : Dev := Dev.bulkRun (·.write) d.link.bulk.length d

/-- Every request that has arrived completes. -/
def Dev.bulkDrain (d : Dev) : Dev := Dev.bulkRun (fun _ => true) d.link.bulk.length d

/-- The group that takes bulk requests: H, or U of a member; it is in RUN (Table 11.3). -/
def Dev.bulkHere (d : Dev) (g : Nat) : Bool := d.boot.phase == .up && g == d.upGroup && d.groupRun g

/-- The reply to a request that the full store does not take. -/
def Dev.bulkFull (d : Dev) (j : BulkJob) : Dev :=
  d.push j.grp 7 (if j.write then .bulkAck j.addr j.xid sResource else .bulkData j.addr j.xid sResource [])

/-- A bulk request arrives: it enters the store, or returns RESOURCE at a full one (R292). It completes at the block's next idle
turn, or with a later request or command that needs it (DESIGN CHOICE, log entry 17). -/
def Dev.bulkArrive (d : Dev) (j : BulkJob) : Dev :=
  if d.bulkHere j.grp then
    (if 65536 < d.bulkHeld + j.bytes then d.bulkFull j else d.setBulk (d.link.bulk ++ [j]))
  else d

end Sys2Proof.Machine
end

