-- ==== Sys2Proof/Machine/CommandPacket.lean ====
section
/-! DEFINITION. Arriving command packets: their checks and their dispatch by opcode (R67–R70, R76, R80). -/

namespace Sys2Proof.Machine

/-- What an opcode runs. -/
abbrev Handler := Hdr → List Word → Dev → Dev

/-- The opcodes of stepping A1, family by family (Table 3.6). -/
def handlers : List (Nat × Handler) :=
  [(0x0000, doNop), (0x0001, doIdGet), (0x0002, doCapWalk), (0x0003, doTagAbort)] ++
  [(0x0100, doRegRead), (0x0101, doRegWrite), (0x0102, doRegModify)] ++
  [(0x0200, doStageRead), (0x0201, doCommit), (0x0202, doDiscard)] ++
  [(0x0300, doSynSet), (0x0301, doSynGet), (0x0302, doCellLo), (0x0303, doWinSet), (0x0304, doWinBurst),
   (0x0310, doRffeXfer), (0x0311, doRffeTimed), (0x0320, doDivSet), (0x0321, doDivSeq), (0x0330, doMismatchMeas)] ++
  [(0x0400, doAdcSet), (0x0401, doDacSet), (0x0402, doConvGet), (0x0410, doOrxSet), (0x0411, doOrxGet)] ++
  [(0x0500, doChainSet), (0x0501, doCarrSet), (0x0502, doCarrGain), (0x0503, doChainSync), (0x0504, doChainGet)] ++
  [(0x0600, doCtxSet), (0x0601, doCtxGet), (0x0602, doBeamSwap), (0x0610, doWtWrite), (0x0611, doWtRead)] ++
  [(0x0700, doPpSet), (0x0701, doCfrPulse), (0x0710, doDpdSwap), (0x0711, doDpdClear), (0x0712, doPpGet),
   (0x0720, doOrxCapture), (0x0721, doCapRelease)] ++
  [(0x0800, doCalCfg), (0x0801, doCalClass), (0x0802, doCalRun), (0x0803, doCalStop), (0x0804, doCalClear),
   (0x0805, doCalGet), (0x0810, doCalExport), (0x0811, doCalImport)] ++
  [(0x0900, doLinkCfg), (0x0901, doLinkGet), (0x0902, doLinkRetrain), (0x0910, doLaneCfg), (0x0911, doLaneGet)] ++
  [(0x0A00, doEngLoad), (0x0A01, doEngStart), (0x0A02, doEngHalt), (0x0A03, doEngKick), (0x0A04, doEngGet),
   (0x0A10, doMemFill)] ++
  [(0x0B00, doDmaSet), (0x0B01, doDmaRun), (0x0B02, doDmaResume), (0x0B03, doDmaAbort), (0x0B04, doDmaGet),
   (0x0B10, doPqAdd)] ++
  [(0x0C00, doEvtSrc), (0x0C01, doEvtThresh), (0x0C02, doEvtArray), (0x0C03, doEvtComplete), (0x0C04, doEvtGet)] ++
  [(0x0D00, doPwrSleep), (0x0D01, doPwrWake), (0x0D02, doPmCfg), (0x0D03, doPlSet), (0x0D04, doPlMin),
   (0x0D05, doAuxLim), (0x0D06, doPwrGet), (0x0D07, doHkGet)] ++
  [(0x0E00, doLatSet), (0x0E01, doLatGet), (0x0E02, doLatMembers), (0x0E03, doLatArm)]

/-- The bytes from `i` on, `n` of them, as a number. -/
def byteField (bs : List Byte) (i n : Nat) : Nat := bytesNat ((bs.drop i).take n)

/-- LEN of a command or reply packet (Tables 3.1, 3.3). -/
def lenField (bs : List Byte) : Nat := byteField bs 8 2 % 2048

/-- The header of a command packet (Tables 3.1, 3.2). -/
def parseHdr (path : Path) (bs : List Byte) : Hdr :=
  let flags := byteField bs 3 1
  { tag := BitVec.ofNat 8 (byteField bs 2 1), target := BitVec.ofNat 16 (byteField bs 4 2),
    group := BitVec.ofNat 4 (byteField bs 6 1), btable := BitVec.ofNat 4 (byteField bs 6 1 / 16),
    bnd := BitVec.ofNat 3 (flags / 4), cg := nbit flags 1, rr := nbit flags 0,
    bts := BitVec.ofNat 48 (byteField bs 10 6), path := path }

/-- A packet holds the bytes that its header announces, and its CRC-32C holds (R68, R70 step 1). -/
def commandIntact (bs : List Byte) : Bool :=
  decide (20 ≤ bs.length) && bs.length == 20 + lenField bs &&
  byteField bs (16 + lenField bs) 4 == crcOf 0 (bs.take (16 + lenField bs))

/-- A discarded command packet is reported with the chip as its location (R70 step 1). -/
def Dev.discardCommand (d : Dev) : Dev := d.fault 0x0407 0 (d.locOf 0 0) 0

/-- An intact command packet: a tag in flight, an unknown opcode or a bad LEN is refused, in this order; the opcode does the
rest (R70). -/
def Dev.dispatch (d : Dev) (path : Path) (bs : List Byte) : Dev :=
  let opc := byteField bs 0 2
  let h := parseHdr path bs
  let len := lenField bs
  if d.inFlight h.tag then d.refuseDup opc h
  else
    match handlers.find? fun e => e.1 == opc with
    | none => d.final opc h (plain sBadOpcode)
    | some e =>
      if 1024 < len ∨ len % 4 ≠ 0 then d.final opc h badHeader
      else e.2 h (bytesWords ((bs.drop 16).take len)) d

/-- A command packet in its turn. In the boot sequence the sequencer accepts none. -/
def Dev.commandIn (d : Dev) (path : Path) (bs : List Byte) : Dev :=
  if d.boot.phase ≠ .up then d else if commandIntact bs then d.dispatch path bs else d.discardCommand

def Dev.setJtag (d : Dev) (j : Jtag) : Dev := { d with jtag := j }

/-- The sequencer takes the whole packet of the service path (R98). -/
def Dev.svcTaken (d : Dev) : Dev :=
  match d.jtag.done with
  | some ws => (d.setJtag { d.jtag with done := none }).commandIn .jtag (wordsBytes ws)
  | none => d

/-- A command takes its place in the arrival order: a packet of the service path that completed earlier comes before it (R76), and
so do, on VC0, the bulk writes that arrived earlier (R292). -/
def Dev.inTurn (d : Dev) (path : Path) : Dev := if path = .vc0 then d.svcTaken.bulkSettle else d.svcTaken

/-- A command packet is complete. -/
def Dev.commandPacket (d : Dev) (path : Path) (bs : List Byte) : Dev := (d.inTurn path).commandIn path bs

/-- A host command with its header and its parameters, in its place in the arrival order. -/
def hostAct (f : Handler) (h : Hdr) (ps : List Word) (s : State) : Out :=
  actIf (paramsWf ps) (fun d => f h ps (d.inTurn h.path)) s

end Sys2Proof.Machine
end

