-- ==== Sys2Proof/Machine/HostCommands.lean ====
section
/-! DEFINITION. The meanings of the host commands: a well-formed command runs its opcode on the block. -/

namespace Sys2Proof.Machine

/-- Command 0x0000 does nothing and replies OK. (R81) -/
def execNop (h : Hdr) (ps : List Word) (s : State) : Out := hostAct doNop h ps s

/-- Command 0x0001 returns words 0x0000 to 0x000C of the identity window. (R85) -/
def execIdGet (h : Hdr) (ps : List Word) (s : State) : Out := hostAct doIdGet h ps s

/-- Command 0x0002 returns whole capability entries from a given offset together with the offset of the next entry. (R95) -/
def execCapWalk (h : Hdr) (ps : List Word) (s : State) : Out := hostAct doCapWalk h ps s

/-- Command 0x0003 ends a queued, HELD or far-accepted command with ABORTED, or returns PRECONDITION. (R83) -/
def execTagAbort (h : Hdr) (ps : List Word) (s : State) : Out := hostAct doTagAbort h ps s

/-- Command 0x0100 checks an address range and returns N words from it. (R83) -/
def execRegRead (h : Hdr) (ps : List Word) (s : State) : Out := hostAct doRegRead h ps s

/-- Command 0x0101 checks an address range and writes N words under each field's access code, staging ST fields. (R83) -/
def execRegWrite (h : Hdr) (ps : List Word) (s : State) : Out := hostAct doRegWrite h ps s

/-- Command 0x0102 reads a word, writes (old AND NOT mask) OR (value AND mask) and returns the old word. (R82) -/
def execRegModify (h : Hdr) (ps : List Word) (s : State) : Out := hostAct doRegModify h ps s

/-- Command 0x0200 returns N words in which each ST field shows its staged copy. (R3) -/
def execStageRead (h : Hdr) (ps : List Word) (s : State) : Out := hostAct doStageRead h ps s

/-- Command 0x0201 fixes a group's boundary, evaluates its agreement rules on the projected state and accepts the group or refuses it. (R88) -/
def execCommit (h : Hdr) (ps : List Word) (s : State) : Out := hostAct doCommit h ps s

/-- Command 0x0202 restores the staged copies of an OPEN group to their live values and empties the group. (R87) -/
def execDiscard (h : Hdr) (ps : List Word) (s : State) : Out := hostAct doDiscard h ps s

/-- Command 0x0300 stages the FREQ and EN of a synthesiser; at the boundary this starts a relock or mutes the output. (R102) -/
def execSynSet (h : Hdr) (ps : List Word) (s : State) : Out := hostAct doSynSet h ps s

/-- Command 0x0301 returns SYN_STAT and SYN_PHASE. (R127) -/
def execSynGet (h : Hdr) (ps : List Word) (s : State) : Out := hostAct doSynGet h ps s

/-- Command 0x0302 stages LO_SEL of a cell; at the boundary the LO and its correction switch. (R108) -/
def execCellLo (h : Hdr) (ps : List Word) (s : State) : Out := hostAct doCellLo h ps s

/-- Command 0x0303 stages a cell's window table, PERIOD and COUNT. (R109) -/
def execWinSet (h : Hdr) (ps : List Word) (s : State) : Out := hostAct doWinSet h ps s

/-- Command 0x0304 checks a one-shot window and accepts it as a pending burst or refuses it. (R114) -/
def execWinBurst (h : Hdr) (ps : List Word) (s : State) : Out := hostAct doWinBurst h ps s

/-- Command 0x0310 queues an RFFE transaction in mailbox slot 0 and replies when the transaction ends. (R121) -/
def execRffeXfer (h : Hdr) (ps : List Word) (s : State) : Out := hostAct doRffeXfer h ps s

/-- Command 0x0311 stages RFFE timed entries. (R122) -/
def execRffeTimed (h : Hdr) (ps : List Word) (s : State) : Out := hostAct doRffeTimed h ps s

/-- Command 0x0320 stages DIV_CTRL and DIV_DET of a diversity pair. (R123) -/
def execDivSet (h : Hdr) (ps : List Word) (s : State) : Out := hostAct doDivSet h ps s

/-- Command 0x0321 stages the correlation sequence bytes of a diversity pair. (R124) -/
def execDivSeq (h : Hdr) (ps : List Word) (s : State) : Out := hostAct doDivSeq h ps s

/-- Command 0x0330 queues a class-2 forward and reverse ORX job on a TX window and returns the powers and GAMMA. (R126) -/
def execMismatchMeas (h : Hdr) (ps : List Word) (s : State) : Out := hostAct doMismatchMeas h ps s

/-- Command 0x0400 stages KEEP of an RX cell. (R131) -/
def execAdcSet (h : Hdr) (ps : List Word) (s : State) : Out := hostAct doAdcSet h ps s

/-- Command 0x0401 stages the DAC full-scale setting FS. (R139) -/
def execDacSet (h : Hdr) (ps : List Word) (s : State) : Out := hostAct doDacSet h ps s

/-- Command 0x0402 returns the converter status and the live converter configuration. (R146) -/
def execConvGet (h : Hdr) (ps : List Word) (s : State) : Out := hostAct doConvGet h ps s

/-- Command 0x0410 stages EN and ORX_ATT of an ORX. (R144) -/
def execOrxSet (h : Hdr) (ps : List Word) (s : State) : Out := hostAct doOrxSet h ps s

/-- Command 0x0411 returns ORX_STAT and the live ORX_CTRL and ORX_ATT. (R146) -/
def execOrxGet (h : Hdr) (ps : List Word) (s : State) : Out := hostAct doOrxGet h ps s

/-- Command 0x0500 stages CHAIN_CFG of a cell. (R168) -/
def execChainSet (h : Hdr) (ps : List Word) (s : State) : Out := hostAct doChainSet h ps s

/-- Command 0x0501 stages the configuration, bridge, NCO, phase and gain of a carrier. (R168) -/
def execCarrSet (h : Hdr) (ps : List Word) (s : State) : Out := hostAct doCarrSet h ps s

/-- Command 0x0502 stages GAIN for the carriers of a mask. (R168) -/
def execCarrGain (h : Hdr) (ps : List Word) (s : State) : Out := hostAct doCarrGain h ps s

/-- Command 0x0503 stages a synchronising-reset mask. (R165) -/
def execChainSync (h : Hdr) (ps : List Word) (s : State) : Out := hostAct doChainSync h ps s

/-- Command 0x0504 returns the live chain and carrier fields and CARR_STAT. (R168) -/
def execChainGet (h : Hdr) (ps : List Word) (s : State) : Out := hostAct doChainGet h ps s

/-- Command 0x0600 stages a stream context's configuration and masks. (R169) -/
def execCtxSet (h : Hdr) (ps : List Word) (s : State) : Out := hostAct doCtxSet h ps s

/-- Command 0x0601 returns a context's live configuration and status. (R190) -/
def execCtxGet (h : Hdr) (ps : List Word) (s : State) : Out := hostAct doCtxGet h ps s

/-- Command 0x0602 fixes a swap's boundary and places the swap in the context's SLOT, replacing or being held as R179 and R180 state. (R177) -/
def execBeamSwap (h : Hdr) (ps : List Word) (s : State) : Out := hostAct doBeamSwap h ps s

/-- Command 0x0610 writes weight-table entries into quadrant memory. (R173) -/
def execWtWrite (h : Hdr) (ps : List Word) (s : State) : Out := hostAct doWtWrite h ps s

/-- Command 0x0611 returns weight-table entries. (R190) -/
def execWtRead (h : Hdr) (ps : List Word) (s : State) : Out := hostAct doWtRead h ps s

/-- Command 0x0700 stages PATH_CFG, CFR_CFG, DPD_CFG and DPD_GRD. (R218) -/
def execPpSet (h : Hdr) (ps : List Word) (s : State) : Out := hostAct doPpSet h ps s

/-- Command 0x0701 stages a CFR pulse table. (R195) -/
def execCfrPulse (h : Hdr) (ps : List Word) (s : State) : Out := hostAct doCfrPulse h ps s

/-- Command 0x0710 requests a coefficient-bank swap at the next usable slot boundary. (R204) -/
def execDpdSwap (h : Hdr) (ps : List Word) (s : State) : Out := hostAct doDpdSwap h ps s

/-- Command 0x0711 ends the guard lock and clears GKIND and BANKERR. (R209) -/
def execDpdClear (h : Hdr) (ps : List Word) (s : State) : Out := hostAct doDpdClear h ps s

/-- Command 0x0712 returns the path-processing fields and status. (R218) -/
def execPpGet (h : Hdr) (ps : List Word) (s : State) : Out := hostAct doPpGet h ps s

/-- Command 0x0720 takes capture slot 0 of the block and replies with the slot's outcome. (R211) -/
def execOrxCapture (h : Hdr) (ps : List Word) (s : State) : Out := hostAct doOrxCapture h ps s

/-- Command 0x0721 frees the DONE capture regions of a mask. (R214) -/
def execCapRelease (h : Hdr) (ps : List Word) (s : State) : Out := hostAct doCapRelease h ps s

/-- Command 0x0800 stages CAL_CTRL and CAL_BGPER. (R241) -/
def execCalCfg (h : Hdr) (ps : List Word) (s : State) : Out := hostAct doCalCfg h ps s

/-- Command 0x0801 stages the calibration class bits of a cell's carriers. (R222) -/
def execCalClass (h : Hdr) (ps : List Word) (s : State) : Out := hostAct doCalClass h ps s

/-- Command 0x0802 checks and starts a calibration run on request. (R225) -/
def execCalRun (h : Hdr) (ps : List Word) (s : State) : Out := hostAct doCalRun h ps s

/-- Command 0x0803 ends the quadrant's run with ABORTED. (R228) -/
def execCalStop (h : Hdr) (ps : List Word) (s : State) : Out := hostAct doCalStop h ps s

/-- Command 0x0804 drops every point of the named kinds at the next path-block boundary. (R241) -/
def execCalClear (h : Hdr) (ps : List Word) (s : State) : Out := hostAct doCalClear h ps s

/-- Command 0x0805 returns the calibration status, the update in progress, the match bits and the point counts. (R241) -/
def execCalGet (h : Hdr) (ps : List Word) (s : State) : Out := hostAct doCalGet h ps s

/-- Command 0x0810 writes a snapshot of the quadrant's calibration store as an image. (R236) -/
def execCalExport (h : Hdr) (ps : List Word) (s : State) : Out := hostAct doCalExport h ps s

/-- Command 0x0811 checks an image and replaces the quadrant's calibration store with it. (R238) -/
def execCalImport (h : Hdr) (ps : List Word) (s : State) : Out := hostAct doCalImport h ps s

/-- Command 0x0900 stages LG_CFG of a lane group. (R268) -/
def execLinkCfg (h : Hdr) (ps : List Word) (s : State) : Out := hostAct doLinkCfg h ps s

/-- Command 0x0901 returns a group's configuration and status. (R268) -/
def execLinkGet (h : Hdr) (ps : List Word) (s : State) : Out := hostAct doLinkGet h ps s

/-- Command 0x0902 retrains a group and replies at its next entry into RUN, or with LINK. (R268) -/
def execLinkRetrain (h : Hdr) (ps : List Word) (s : State) : Out := hostAct doLinkRetrain h ps s

/-- Command 0x0910 stages the polarity and de-emphasis of a lane. (R268) -/
def execLaneCfg (h : Hdr) (ps : List Word) (s : State) : Out := hostAct doLaneCfg h ps s

/-- Command 0x0911 returns a lane's control, status and DFE taps. (R268) -/
def execLaneGet (h : Hdr) (ps : List Word) (s : State) : Out := hostAct doLaneGet h ps s

/-- Command 0x0A00 checks an engine image and copies its segments into a halted engine. (R315) -/
def execEngLoad (h : Hdr) (ps : List Word) (s : State) : Out := hostAct doEngLoad h ps s

/-- Command 0x0A01 clears the fault and event latch, invalidates the cache and starts the engine. (R317) -/
def execEngStart (h : Hdr) (ps : List Word) (s : State) : Out := hostAct doEngStart h ps s

/-- Command 0x0A02 stops the engine after draining its write buffer. (R317) -/
def execEngHalt (h : Hdr) (ps : List Word) (s : State) : Out := hostAct doEngHalt h ps s

/-- Command 0x0A03 sets the engine's event latch EVL. (R317) -/
def execEngKick (h : Hdr) (ps : List Word) (s : State) : Out := hostAct doEngKick h ps s

/-- Command 0x0A04 returns the engine's status, PC and fault registers. (R317) -/
def execEngGet (h : Hdr) (ps : List Word) (s : State) : Out := hostAct doEngGet h ps s

/-- Command 0x0A10 writes one word value across a shared-memory range. (R317) -/
def execMemFill (h : Hdr) (ps : List Word) (s : State) : Out := hostAct doMemFill h ps s

/-- Command 0x0B00 writes the registers of an idle DMA channel. (R330) -/
def execDmaSet (h : Hdr) (ps : List Word) (s : State) : Out := hostAct doDmaSet h ps s

/-- Command 0x0B01 starts a channel as START does, and with WAIT 1 replies at its end. (R330) -/
def execDmaRun (h : Hdr) (ps : List Word) (s : State) : Out := hostAct doDmaRun h ps s

/-- Command 0x0B02 resumes a halted channel. (R330) -/
def execDmaResume (h : Hdr) (ps : List Word) (s : State) : Out := hostAct doDmaResume h ps s

/-- Command 0x0B03 aborts a channel. (R330) -/
def execDmaAbort (h : Hdr) (ps : List Word) (s : State) : Out := hostAct doDmaAbort h ps s

/-- Command 0x0B04 returns a channel's registers. (R330) -/
def execDmaGet (h : Hdr) (ps : List Word) (s : State) : Out := hostAct doDmaGet h ps s

/-- Command 0x0B10 adds a value to a pacing queue and returns the new LEVEL. (R330) -/
def execPqAdd (h : Hdr) (ps : List Word) (s : State) : Out := hostAct doPqAdd h ps s

/-- Command 0x0C00 stages SRC_CFG of an event source. (R345) -/
def execEvtSrc (h : Hdr) (ps : List Word) (s : State) : Out := hostAct doEvtSrc h ps s

/-- Command 0x0C01 stages THRESH of an event target. (R345) -/
def execEvtThresh (h : Hdr) (ps : List Word) (s : State) : Out := hostAct doEvtThresh h ps s

/-- Command 0x0C02 performs EN_SET, EN_CLR, PEND_SET or PEND_CLR on one source. (R345) -/
def execEvtArray (h : Hdr) (ps : List Word) (s : State) : Out := hostAct doEvtArray h ps s

/-- Command 0x0C03 completes a source claimed by a target. (R336) -/
def execEvtComplete (h : Hdr) (ps : List Word) (s : State) : Out := hostAct doEvtComplete h ps s

/-- Command 0x0C04 returns a source's configuration, array bits and queue state. (R345) -/
def execEvtGet (h : Hdr) (ps : List Word) (s : State) : Out := hostAct doEvtGet h ps s

/-- Command 0x0D00 checks the precondition of a domain and queues its sleep transition. (R350) -/
def execPwrSleep (h : Hdr) (ps : List Word) (s : State) : Out := hostAct doPwrSleep h ps s

/-- Command 0x0D01 queues a wake transition or withdraws a waiting sleep. (R353) -/
def execPwrWake (h : Hdr) (ps : List Word) (s : State) : Out := hostAct doPwrWake h ps s

/-- Command 0x0D02 stages SETPOINT and WAKE_GAP. (R365) -/
def execPmCfg (h : Hdr) (ps : List Word) (s : State) : Out := hostAct doPmCfg h ps s

/-- Command 0x0D03 stages one step of the power-limit ladder. (R365) -/
def execPlSet (h : Hdr) (ps : List Word) (s : State) : Out := hostAct doPlSet h ps s

/-- Command 0x0D04 sets the shallowest allowed ladder step at once. (R360) -/
def execPlMin (h : Hdr) (ps : List Word) (s : State) : Out := hostAct doPlMin h ps s

/-- Command 0x0D05 stages the limits of an AUXMON channel. (R365) -/
def execAuxLim (h : Hdr) (ps : List Word) (s : State) : Out := hostAct doAuxLim h ps s

/-- Command 0x0D06 returns PWR_STAT and the state of the target's domain. (R365) -/
def execPwrGet (h : Hdr) (ps : List Word) (s : State) : Out := hostAct doPwrGet h ps s

/-- Command 0x0D07 returns the housekeeping readings and governor state. (R365) -/
def execHkGet (h : Hdr) (ps : List Word) (s : State) : Out := hostAct doHkGet h ps s

/-- Command 0x0E00 stages LAT_CFG; its commit moves the lane-group registers. (R368) -/
def execLatSet (h : Hdr) (ps : List Word) (s : State) : Out := hostAct doLatSet h ps s

/-- Command 0x0E01 returns LAT_CFG, CHORD_STAT and TB_ALIGN. (R372) -/
def execLatGet (h : Hdr) (ps : List Word) (s : State) : Out := hostAct doLatGet h ps s

/-- Command 0x0E02 returns the latest STATUS word of each member and its SILENT bit. (R372) -/
def execLatMembers (h : Hdr) (ps : List Word) (s : State) : Out := hostAct doLatMembers h ps s

/-- Command 0x0E03 checks every chip, writes FRAME_NEXT and arms the members, then the head. (R372) -/
def execLatArm (h : Hdr) (ps : List Word) (s : State) : Out := hostAct doLatArm h ps s

end Sys2Proof.Machine
end

