-- ==== Sys2Proof/Machine/Streams.lean ====
section
/-! DEFINITION. Sample and chord packets in both directions (R50–R54, R172, R184–R189, R281–R284, R287, R288). -/

namespace Sys2Proof.Machine

/-! ## Transmit SAMPLE packets (R50–R52, R54, R284) -/

/-- The samples of a SAMPLE packet, decoded (R283). -/
def decodedSamples (k : SamplePkt) : List (Int × Int) :=
  k.mants.zipIdx.map fun v =>
    let e : Int := ((2 ^ ((k.exps[v.2 / 16]?).getD 0) : Nat) : Int)
    (v.1.1 * e, v.1.2 * e)

/-- The packet meets R284: an enabled transmit context, its COMP, 1 to 8 blocks, exponents in range. -/
def Dev.txFormOk (d : Dev) (k : SamplePkt) : Bool :=
  let x := k.ctx.val
  d.ctxOn x && d.ctxTx x && d.ctxComp x == k.comp.val && decide (1 ≤ k.nblk) && decide (k.nblk ≤ 8) &&
  k.exps.all fun e => decide (e + mantWidth k.comp ≤ 16)

/-- The packet meets R52: its TIMESTAMP is valid and on the raster of the stream, and now lies in its arrival window. -/
def Dev.txInTime (d : Dev) (k : SamplePkt) : Bool :=
  let p := d.ctxPeriod k.ctx.val
  d.running && tsValid k.ts && k.ts.toNat % 2 ^ 25 % p == 0 &&
  match d.ahead k.ts with
  | some a => decide (d.txLead ≤ a) && decide (a + (16 * k.nblk - 1) * p ≤ d.txLead + Config.horizonSpan)
  | none => false

/-- Put samples in the ingress store; a later arrival for a tick replaces the earlier one (R54). -/
def Dev.storeSamples (d : Dev) (l : List TxSmp) : Dev :=
  let keep := d.beam.ingress.filter fun s => !l.any fun t => t.ctx == s.ctx && t.at_ == s.at_
  { d with beam := { d.beam with ingress := keep ++ l } }

/-! ## Chord contexts (R287, R288) -/

/-- The first tick of the interval of a rate code that holds chip tick `t` (R282). -/
def Dev.intervalOf (d : Dev) (rate t : Nat) : Nat :=
  d.tb.t0 + (t - d.tb.t0) / interval (period rate) * interval (period rate)

/-- The chord contexts of a direction and a rate code that are enabled in the interval from `lo`, in ascending order (R287). -/
def Dev.chordSet (d : Dev) (tx : Bool) (rate lo : Nat) : List Nat :=
  let gs := [d.cfgAt lo, d.cfgAt (lo + interval (period rate) - 1)]
  (List.range 128).filter fun x => gs.any fun g => g.ctxOn x && g.ctxChord x && g.ctxTx x == tx && g.ctxRate x == rate

/-- The next interval of a rate code and direction for which this chip has sent no CHORD packet, as it last noted it. -/
def Dev.chordNext (d : Dev) (i : Nat) : Nat := Tbl.get (fun _ => 0) d.beam.chordAt i
def Dev.chordSent (d : Dev) (i t : Nat) : Dev :=
  { d with beam := { d.beam with chordAt := Tbl.set (fun _ => 0) d.beam.chordAt i t } }

/-- At the head, the CHORD packet of the interval that holds the sample of stamp `t` has left (R186). -/
def Dev.chordGone (d : Dev) (x t : Nat) : Bool :=
  d.role == 1 && d.ctxChord x &&
  (decide (t < d.chordNext (d.ctxRate x)) || decide (d.intervalOf (d.ctxRate x) t < d.now + d.txLead))

/-- A transmit SAMPLE packet completes: stored, or discarded without report (R52, R284, R361). -/
def Dev.txSample (d : Dev) (k : SamplePkt) : Dev :=
  let x := k.ctx.val
  if d.boot.phase = .up ∧ d.hostSide ∧ d.groupRun 0 ∧ d.txFormOk k ∧ d.txInTime k ∧ ¬ d.pwr.shed.contains x then
    let t := d.tickOf k.ts
    d.storeSamples ((decodedSamples k).zipIdx.map fun v =>
      let s := t + v.2 * d.ctxPeriod x
      { ctx := x, at_ := s, i := v.1.1, q := v.1.2, again := d.chordGone x s })
  else d

/-- A word list cut into groups of `n`. -/
def chunks {α : Type} (n : Nat) : Nat → List α → List (List α)
  | 0, _ => []
  | k + 1, l => l.take n :: chunks n k (l.drop n)

/-- One block of a CHORD packet: position of its context, number of the block, code, exponent and mantissas. -/
structure ChordBlk where
  pos : Nat
  blk : Nat
  code : Nat
  exp : Nat
  mants : List (Int × Int)

/-- The blocks of a CHORD packet, context by context. -/
def chordBlocks (k : ChordPkt) : List ChordBlk :=
  ((k.desc.zip (chunks 16 (k.k * k.nblk) k.mants)).zipIdx).map fun v =>
    { pos := v.2 / k.nblk, blk := v.2 % k.nblk, code := v.1.1.1, exp := v.1.1.2, mants := v.1.2 }

/-! ## Transmit chord samples (R51, R186) -/

/-- The blocks of a transmit CHORD packet as they leave this chip: those of a context that it sheds are 0 marked 0b11. -/
def Dev.chordMasked (d : Dev) (k : ChordPkt) : ChordPkt :=
  let xs := d.chordSet true k.rate.val (d.tickOf k.ts)
  let bs := (chordBlocks k).map fun b =>
    if d.shed ((xs[b.pos]?).getD 128) then { b with code := 3, exp := 0, mants := List.replicate 16 (0, 0) } else b
  { k with sender := Fin.ofNat 8 d.chipNo, desc := bs.map (fun b => (b.code, b.exp)), mants := bs.flatMap (·.mants) }

/-- Pass a transmit CHORD packet on, if there is a chip beyond and its hop carries packets. A stream that this chip sheds is
missing at the next chip (R189, R361). -/
def Dev.chordDown (d : Dev) (k : ChordPkt) : Dev :=
  if (d.role = 1 ∨ d.role = 2) ∧ d.groupRun 2 then d.push 2 6 (.chord (d.chordMasked k)) else d

/-- A stream sample at the head: in the ingress store or already in the beam engine. -/
def Dev.streamSample (d : Dev) (x t : Nat) : Option TxSmp :=
  match d.stored x t with
  | some s => some s
  | none => d.fedSample x t

/-- The 16 samples of a stream from stamp `b`; a block with a sample missing carries 0b11 (R172). -/
def Dev.storedBlock (d : Dev) (x b : Nat) : Nat × List (Int × Int) :=
  let l := (List.range 16).map fun i => d.streamSample x (b + i * d.ctxPeriod x)
  if d.shed x then (3, List.replicate 16 (0, 0))
  else (l.foldl (fun n s => match s with
      | some s => max n s.code
      | none => 3) 0,
    l.map fun s => match s with
      | some s => if s.code = 3 then (0, 0) else (s.i, s.q)
      | none => (0, 0))

/-- A transmit CHORD packet of `n` blocks from stamp `lo`: every context of the rate code in its fixed slot (R32, R287). -/
def Dev.chordTxPkt (d : Dev) (rate lo n : Nat) : ChordPkt :=
  let xs := d.chordSet true rate (d.intervalOf rate lo)
  let bs := xs.flatMap fun x => (List.range n).map fun i => d.storedBlock x (lo + 16 * period rate * i)
  { sender := Fin.ofNat 8 d.chipNo, tx := true, rate := Fin.ofNat 8 rate, ts := d.tsAt lo, nblk := n, k := xs.length,
    desc := bs.map fun b => (b.1, 0), mants := bs.flatMap (·.2) }

/-- The oldest sample of a context in the ingress store. -/
def Dev.firstStored (d : Dev) (x : Nat) : Option TxSmp :=
  (d.beam.ingress.filter fun s => s.ctx == x).foldl (fun m s =>
    match m with
    | some t => if s.at_ < t.at_ then some s else m
    | none => some s) none

/-- How long a sample that entered the beam engine is kept: longer than a capture and the filters of a path look back. -/
abbrev fedKeep : Nat := 32768

/-- The interval of which the head sends the next CHORD packet of a rate code: the first not sent whose first sample has TX_LEAD
left. Context `x` stands for its rate code when it is the lowest one in that interval (R51, R186, R287). -/
def Dev.chordDepart (d : Dev) (x : Nat) : Option Nat :=
  if d.role = 1 ∧ d.running ∧ d.ctxChord x ∧ d.ctxTx x then
    let r := d.ctxRate x
    let s := interval (period r)
    let lo := d.alignUp s (max (d.chordNext r) (d.now + d.txLead))
    if (d.chordSet true r lo).head? = some x then some lo else none
  else none

/-- TX_LEAD before the first sample of an interval the head sends its CHORD packet: one for each interval, whether or not samples
are stored (R32, R186, R287). -/
def Dev.chordLeave (d : Dev) (x lo : Nat) : Dev :=
  let r := d.ctxRate x
  let d := d.goTo (lo - d.txLead)
  (d.chordDown (d.chordTxPkt r lo (fullBlocks (period r)))).chordSent r (lo + interval (period r))

/-- A sample that came to the head after the packet of its interval had left goes down by its own T − TX_LEAD, with the whole of
its block, in a packet of one block (R186; DESIGN CHOICE, log entry 23). -/
def Dev.chordAgain (d : Dev) (s : TxSmp) : Dev :=
  if s.again then
    let r := d.ctxRate s.ctx
    let step := 16 * period r
    let b := d.tb.t0 + (s.at_ - d.tb.t0) / step * step
    let d := d.chordDown (d.chordTxPkt r b 1)
    let sent (t : TxSmp) : TxSmp := if d.ctxRate t.ctx = r ∧ b ≤ t.at_ ∧ t.at_ < b + step then { t with again := false } else t
    { d with beam := { d.beam with ingress := d.beam.ingress.map sent } }
  else d

/-- At T − TX_LEAD a stored sample enters the beam engine (R51, R186). -/
def Dev.sampleRelease (d : Dev) (s : TxSmp) : Dev :=
  let d := (d.goTo (s.at_ - d.txLead)).chordAgain s
  { d with beam := { d.beam with
      ingress := d.beam.ingress.filter (fun t => !(t.ctx == s.ctx && t.at_ == s.at_))
      fed := d.beam.fed.filter (fun t => decide (d.now ≤ t.at_ + fedKeep)) ++ [{ s with again := false }] } }

/-- A stored sample enters the beam engine, or a chord stream leaves the head down the chord, whichever is next (R51, R186). -/
def Dev.ingressRelease (d : Dev) (x : Nat) : Dev :=
  match d.firstStored x, d.chordDepart x with
  | some s, some lo => if s.at_ < lo then d.sampleRelease s else d.chordLeave x lo
  | some s, none => d.sampleRelease s
  | none, some lo => d.chordLeave x lo
  | none, none => d

/-- A member notes the interval of a transmit CHORD packet that comes (R189). -/
def Dev.chordNoted (d : Dev) (k : ChordPkt) : Dev :=
  if d.running ∧ tsValid k.ts then d.chordSent k.rate.val (max (d.chordNext k.rate.val) (d.intervalOf k.rate.val (d.tickOf k.ts)))
  else d

/-- A member takes the transmit samples of a CHORD packet that arrive by T − 5,899, and passes the packet on. -/
def Dev.chordTx (d : Dev) (k : ChordPkt) : Dev :=
  let xs := d.chordSet true k.rate.val (d.intervalOf k.rate.val (d.tickOf k.ts))
  let d := d.chordNoted k
  if k.k = xs.length ∧ d.running ∧ tsValid k.ts then
    let p := period k.rate.val
    let t := d.tickOf k.ts
    let l := (chordBlocks k).flatMap fun b => b.mants.zipIdx.map fun v =>
      ({ ctx := (xs[b.pos]?).getD 0, at_ := t + 16 * p * b.blk + v.2 * p, i := v.1.1 * ((2 ^ b.exp : Nat) : Int),
         q := v.1.2 * ((2 ^ b.exp : Nat) : Int), code := b.code } : TxSmp)
    (d.storeSamples (l.filter fun s => decide (d.now + d.txLead ≤ s.at_) && !d.pwr.shed.contains s.ctx)).chordDown k
  else d

/-! ## Receive partial sums (R184, R185, R287) -/

/-- This chip produces the block of a context from stamp `b`, and it has not left (R185). -/
def Dev.producing (d : Dev) (x b : Nat) : Bool :=
  decide ((d.ctx x).doneTo ≤ b) || (d.ctx x).own.any fun s => s.at_ == b

/-- The partial sums of a CHORD packet arrive: each that comes by its deadline waits for its own block, or joins it. -/
def Dev.chordRx (d : Dev) (k : ChordPkt) : Dev :=
  let xs := d.chordSet false k.rate.val (d.intervalOf k.rate.val (d.tickOf k.ts))
  if k.k = xs.length ∧ d.running ∧ tsValid k.ts then
    let p := period k.rate.val
    let t := d.tickOf k.ts
    let old := d.beam.psum.filter fun s => d.producing s.ctx s.at_ && decide (d.now ≤ s.at_ + fedKeep)
    let new : List PSum := (chordBlocks k).map fun b =>
      { ctx := (xs[b.pos]?).getD 0, at_ := t + 16 * p * b.blk, code := b.code,
        vals := b.mants.map fun v => (v.1 * ((2 ^ b.exp : Nat) : Int), v.2 * ((2 ^ b.exp : Nat) : Int)) }
    let take := new.filter fun s => decide (d.now ≤ s.at_ + d.partialLead) && d.producing s.ctx s.at_
    let d := { d with beam := { d.beam with psum := old ++ take } }
    xs.foldl Dev.joinAll d
  else d

/-- A CHORD packet arrives on group D (partial sums) or U (transmit samples); one with another DIR, or a K that differs from
this chip's own count, is discarded (R277, R288). -/
def Dev.chordPacket (d : Dev) (down : Bool) (k : ChordPkt) : Dev :=
  if d.boot.phase = .up ∧ d.groupRun (if down then 2 else 1) ∧ k.tx = !down ∧ 1 ≤ k.nblk then
    if k.tx then d.chordTx k else d.chordRx k
  else d

/-! ## Receive packets (R281–R283, R287) -/

/-- Every mantissa of a block fits `m` bits at exponent `e`. -/
def fitsAt (m e : Nat) (l : List (Int × Int)) : Bool :=
  l.all fun v => fitsSigned m (rndDiv v.1 (2 ^ e)) && fitsSigned m (rndDiv v.2 (2 ^ e))

/-- The smallest exponent from `e` on, at most `top`, at which a block fits. -/
def blockExp (m : Nat) (l : List (Int × Int)) : Nat → Nat → Nat
  | _, 0 => 0
  | top, n + 1 => if fitsAt m (top - n) l ∨ n = 0 then top - n else blockExp m l top n

/-- A block with mantissas of `m` bits (R283): exponent and mantissas. With 16 bits the block is as it stands. -/
def compress (m : Nat) (l : List (Int × Int)) : Nat × List (Int × Int) :=
  let e := blockExp m l (16 - m) (16 - m + 1)
  (e, l.map fun v => (satTo m (rndDiv v.1 (2 ^ e)), satTo m (rndDiv v.2 (2 ^ e))))

/-- A path delivers, or by the windows that it has is going to deliver, the block from stamp `b`. -/
def Dev.willDeliver (d : Dev) (p r b : Nat) : Bool :=
  d.delivers p r b ||
  match d.nextWin (64 + p) d.now with
  | some w => decide (w.start ≤ b) && decide (b + 16 * period r ≤ w.stop)
  | none => false

/-- A block of the interval is settled: it has left the beam engine, or no path delivers it. -/
def Dev.blockSettled (d : Dev) (x b : Nat) : Bool :=
  let c := d.ctx x
  let g := d.cfgAt b
  !c.own.any (fun s => s.at_ == b) &&
  (decide (b < c.doneTo) || !g.ctxOn x || g.ctxTx x || !(g.ctxPaths x).any fun p => d.willDeliver (d.streamPath p b) (g.ctxRate x) b)

/-- The block starts of a rate code in the interval from `lo`. -/
def blockStarts (rate lo : Nat) : List Nat := (List.range (fullBlocks (period rate))).map fun i => lo + 16 * period rate * i

/-- Every block of the interval is settled. -/
def Dev.intervalDone (d : Dev) (x rate lo : Nat) : Bool := (blockStarts rate lo).all (d.blockSettled x)

/-- The SAMPLE packet of some blocks of a context. -/
def Dev.sampleOf (d : Dev) (x : Nat) (l : List SBlk) : SamplePkt :=
  let t := (l.head?.map (·.at_)).getD d.now
  let comp : Fin 4 := Fin.ofNat 4 ((d.cfgAt t).ctxComp x)
  let zs := l.map fun b => compress (mantWidth comp) b.vals
  { ctx := Fin.ofNat 128 x, ts := d.tsAt t, nblk := l.length, comp := comp, codes := l.map (·.code),
    exps := zs.map (·.1), mants := zs.flatMap (·.2) }

/-- The packet of a receive context of a single chip or head enters egress when the last block that its interval has is complete:
one packet of the blocks delivered, in order. A shed stream sends none, and outside RUN the packet is discarded at egress (R262,
R266, R282). -/
def Dev.rxPacket (d : Dev) (x : Nat) : Dev :=
  let c := d.ctx x
  match c.out.head? with
  | some b =>
    let g := d.cfgAt b.at_
    let r := g.ctxRate x
    let lo := d.intervalOf r b.at_
    let hi := lo + interval (period r)
    if d.intervalDone x r lo then
      let l := c.out.filter fun s => decide (s.at_ < hi) && !d.blockShed x s.at_
      let d := d.setCtx x { c with out := c.out.filter fun s => decide (hi ≤ s.at_) }
      if d.groupRun 0 ∧ ¬ l.isEmpty then d.push 0 (2 + g.ctxPrio x) (.sample (d.sampleOf x l)) else d
    else d
  | none => d

/-- Code, exponent and mantissas of a block of partial sums, in units of 2^−14; a block that this chip does not deliver, or
that it sheds, is 0 marked 0b11. -/
def Dev.sumBlock (d : Dev) (x b : Nat) : (Nat × Nat) × List (Int × Int) :=
  match (d.ctx x).out.find? fun s => s.at_ == b with
  | some s =>
    if d.blockShed x b then ((3, 0), List.replicate 16 (0, 0))
    else
      let e := blockExp 16 s.vals 29 16
      ((s.code, e - 14), s.vals.map fun v => (sat16 (rndDiv v.1 (2 ^ e)), sat16 (rndDiv v.2 (2 ^ e))))
  | none => ((3, 0), List.replicate 16 (0, 0))

/-- The oldest past interval for which a member or tail owes the packet of partial sums of a rate code: one in which chord contexts
are enabled, the lowest of them `x`. -/
def Dev.sumsOwed (d : Dev) (x : Nat) : Option Nat :=
  let r := d.ctxRate x
  let s := interval (period r)
  let first := d.intervalOf r (max (d.chordNext (8 + r)) (d.now - fedKeep))
  ((List.range (fedKeep / s + 2)).map fun i => first + i * s).find? fun lo =>
    decide (d.chordNext (8 + r) ≤ lo) && decide (lo + s ≤ d.now) && decide ((d.chordSet false r lo).head? = some x)

/-- The CHORD packet of a member or tail for a rate code and an interval, once every context has settled it; one packet for each
interval, with a block that has none 0 marked 0b11. Partial sums of a hop that is down are discarded at egress (R32, R189,
R287). -/
def Dev.chordSums (d : Dev) (x : Nat) : Dev :=
  match d.sumsOwed x with
  | some lo =>
    let r := d.ctxRate x
    let hi := lo + interval (period r)
    let xs := d.chordSet false r lo
    if xs.all fun y => d.intervalDone y r lo then
      let bs := xs.flatMap fun y => (blockStarts r lo).map (d.sumBlock y)
      let k : ChordPkt :=
        { sender := Fin.ofNat 8 d.chipNo, tx := false, rate := Fin.ofNat 8 r, ts := d.tsAt lo,
          nblk := fullBlocks (period r), k := xs.length, desc := bs.map (·.1), mants := bs.flatMap (·.2) }
      let d := xs.foldl (fun d y =>
        d.setCtx y { d.ctx y with out := (d.ctx y).out.filter fun s => decide (hi ≤ s.at_) }) d
      let d := d.chordSent (8 + r) hi
      if d.groupRun 1 then d.push 1 6 (.chord k) else d
    else d
  | none => d

/-- A receive context's packet enters egress. -/
def Dev.rxEgress (d : Dev) (x : Nat) : Dev :=
  if d.running ∧ d.ctxChord x ∧ ¬ d.ctxTx x ∧ ¬ d.hostSide then d.chordSums x else d.rxPacket x

end Sys2Proof.Machine
end

