-- ==== Sys2Proof/Machine/Ingress.lean ====
section
/-! DEFINITION. Received packets: framing, check values, acceptance, and what each type does; bulk transfers; the passing of
packets along the chain (R33, R37, R269–R280, R289–R293). -/

namespace Sys2Proof.Machine

/-! ## Replies from below (R33, R78) -/

/-- The result that a reply carries (R74). -/
def resOf (r : Reply) : Res :=
  let w := wordAt r.result 0
  if r.status = sOk ∨ r.status = sAccepted ∨ r.status = sHeld then { status := r.status, words := r.result }
  else refusal r.status (fld w 15 0) (fld w 31 16)

/-- A reply of a chip below ends or advances the command in flight that was passed to it. -/
def Dev.replyBelow (d : Dev) (r : Reply) : Dev :=
  match d.flightOf r.tag with
  | some f =>
    if f.opc = 0x0E03 then
      (if r.final then
        (d.updFlight r.tag fun f => { f with parts := setPart r.target.toNat (resOf r) f.parts }).latNext r.tag 4
       else d)
    else if r.final then d.finishPartAt r.tag r.target.toNat (resOf r) r.ts
    else d.noteAt r.tag r.status r.ts
  | none => d

/-- The reply that a packet holds (Table 3.3), if it is whole. -/
def parseReply (bs : List Byte) : Option Reply :=
  let n := lenField bs
  if 20 ≤ bs.length ∧ 20 + n ≤ bs.length ∧ byteField bs (16 + n) 4 = crcOf 0 (bs.take (16 + n)) then
    some { opc := byteField bs 0 2, tag := BitVec.ofNat 8 (byteField bs 2 1), status := byteField bs 3 1,
           target := BitVec.ofNat 16 (byteField bs 4 2), final := nbit (byteField bs 6 1) 0, dup := nbit (byteField bs 6 1) 1,
           ts := BitVec.ofNat 48 (byteField bs 10 6), result := bytesWords ((bs.drop 16).take n) }
  else none

/-! ## Events from below (R37, R278) -/

/-- The event that a packet holds (Table 11.4), if it is whole. -/
def parseEvent (bs : List Byte) : Option EventPkt :=
  if byteField bs 16 4 = crcOf 0 (bs.take 16) then
    some { source := byteField bs 0 2 % 512, chan := byteField bs 2 1 % 4, lost := nbit (byteField bs 2 1) 7,
           rec_ := { cause := BitVec.ofNat 16 (byteField bs 4 2), loc := BitVec.ofNat 16 (byteField bs 6 2),
                     detail := BitVec.ofNat 16 (byteField bs 8 2), ts := BitVec.ofNat 48 (byteField bs 10 6) } }
  else none

/-- The head passes a member's event on to the host; a member's RESTART becomes the head's MEMBER_RESTART (Table 1.8, R37). -/
def Dev.eventBelow (d : Dev) (k : Nat) (e : EventPkt) : Dev :=
  if e.rec_.cause = 0x0408 then d.fault 0x0504 0 (tgtWord k 0 0) e.rec_.detail.toNat
  else match d.eventWay with
    | .jtag => d.sendEvent e
    | _ => d.push 0 0 (.event e)

/-! ## Framing (R271, R274, R275) -/

/-- Framing is lost, and reported (R275). What arrives from now on is discarded until a pointer word tells where a header lies. -/
def Dev.loseFraming (d : Dev) (g : Nat) : Dev :=
  ((d.setFramed g false).setLg g { d.lg g with lost := true }).fault 0x0407 0 (d.lowRx g) 0xFF

/-- A pointer word disagrees with the parse, or a bad header stands where one is expected. -/
def Dev.framingRow (d : Dev) (g : Nat) : Dev :=
  if d.boot.phase = .up ∧ d.groupRun g ∧ d.framed g then d.loseFraming g else d

/-- Fields of a header word (Table 11.1). -/
def hwType (w : BitVec 64) : Nat := w.toNat % 16
def hwVc (w : BitVec 64) : Nat := w.toNat / 16 % 8
def hwPlen (w : BitVec 64) : Nat := w.toNat / 256 % 4096
def hwChip (w : BitVec 64) : Nat := w.toNat / 2 ^ 20 % 8
def hwId (w : BitVec 64) : Nat := w.toNat / 2 ^ 32 % 65536

/-- A header word that keeps a receiver framed: its HCRC holds, its TYPE is not reserved, PLEN is at least 2 (R271). -/
def headGood (w : BitVec 64) : Bool :=
  w.toNat / 2 ^ 48 == crcOf 3 (natBytes 6 (w.toNat % 2 ^ 48)) && decide (1 ≤ hwType w) && decide (hwType w ≤ 11) &&
  decide (2 ≤ hwPlen w)

/-- The check word of a packet matches under an algorithm (R273). -/
def checkGood (alg : Nat) (ws : List (BitVec 64)) : Bool :=
  ((ws.getLast?).getD 0).toNat % 2 ^ 32 == crcOf alg (bytes64 ws.dropLast)

/-! ## Acceptance (R277, Table 11.3) -/

/-- A COMMAND packet whose PLEN does not match its LEN fails step 1 of R70 (R278). -/
def Dev.commandFrame (d : Dev) (path : Path) (pl : List (BitVec 64)) : Dev :=
  let bs := bytes64 pl
  let n := 20 + lenField bs
  if pl.length = (n + 7) / 8 then d.commandPacket path (bs.take n) else d.discardCommand

/-- A packet for chip `k` that arrives from above is for this chip; in the boot state any `k` is. -/
def Dev.chipMine (d : Dev) (k : Nat) : Bool := k == d.chipNo || d.bootLat

/-- The group on which a chip takes what the head sends over VC1: U of a member, H in the boot state (Table 11.3). -/
def Dev.fromHead (d : Dev) (g : Nat) : Bool := g == d.upGroup && (!d.hostSide || d.bootLat)

/-- COMMAND: from the host on VC0 of H, from the head on VC1 (R33). -/
def Dev.takeCommand (d : Dev) (g vc chip : Nat) (pl : List (BitVec 64)) : Dev :=
  if vc = 0 ∧ g = 0 ∧ d.hostSide ∧ chip = 0 then d.commandFrame .vc0 pl
  else if vc = 1 ∧ d.fromHead g ∧ (d.chipMine chip ∨ d.below chip) then d.commandFrame .vc1 pl
  else d

/-- REPLY and EVENT: from the chips below, on VC1 of D. -/
def Dev.fromBelow (d : Dev) (g vc chip : Nat) : Bool := g == 2 && vc == 1 && d.below chip

/-- The command of a tag reached this member over VC1. -/
def Dev.relays (d : Dev) (tag : BitVec 8) : Bool := !d.hostSide && (d.flightOf tag).all fun f => f.hdr.path == .vc1

/-- A reply of chip `chip` below: a member that passed its command on passes the reply up as it is, CHIP included (Table 11.3), and
the tag leaves its flight with the final one; elsewhere it ends or advances the command in flight here. -/
def Dev.takeReply (d : Dev) (chip : Nat) (pl : List (BitVec 64)) : Dev :=
  let bs := bytes64 pl
  if pl.length = (20 + lenField bs + 7) / 8 then
    match parseReply bs with
    | some r =>
      if d.relays r.tag then (if r.final ∧ !r.dup then d.land r.tag else d).push 1 1 (.pass 2 chip 0 pl) else d.replyBelow r
    | none => d
  else d

def Dev.takeEvent (d : Dev) (chip : Nat) (pl : List (BitVec 64)) : Dev :=
  if pl.length = 3 then
    if d.role = 1 then
      match parseEvent (bytes64 pl) with
      | some e => d.eventBelow chip e
      | none => d
    else d.push 1 1 (.pass 3 chip 0 pl)
  else d

/-- The mantissas of `n` sample pairs of `m` bits. -/
def pairsOf (m n x : Nat) : List (Int × Int) :=
  (List.range n).map fun i => (sx m (x / 2 ^ (2 * m * i)), sx m (x / 2 ^ (2 * m * i + m)))

/-- SAMPLE: from the host, on the virtual channel of its context (Table 11.5). -/
def Dev.takeSample (d : Dev) (vc id : Nat) (pl : List (BitVec 64)) : Dev :=
  let w1 := ((pl[0]?).getD 0).toNat
  let w2 := ((pl[1]?).getD 0).toNat
  let n := w1 / 2 ^ 48 % 16
  let comp : Fin 4 := Fin.ofNat 4 (w1 / 2 ^ 52)
  let m := mantWidth comp
  if vc = 2 + d.ctxPrio (id % 128) ∧ pl.length = 2 + (n * m + 1) / 2 then
    d.txSample { ctx := Fin.ofNat 128 id, ts := BitVec.ofNat 48 w1, nblk := n, comp := comp,
                 codes := (List.range n).map (fun i => w2 / 4 ^ i % 4),
                 exps := (List.range n).map (fun i => w2 / 2 ^ 16 / 16 ^ i % 16),
                 mants := pairsOf m (16 * n) (ofWords64 (pl.drop 2)) }
  else d

/-- CHORD: from the neighbour whose chip number it gives (R287). -/
def Dev.takeChord (d : Dev) (g chip id : Nat) (pl : List (BitVec 64)) : Dev :=
  let w1 := ((pl[0]?).getD 0).toNat
  let n := w1 / 2 ^ 48 % 16
  let k := w1 / 2 ^ 56 % 256
  let nd := (k * n + 7) / 8
  if pl.length = 1 + nd + 8 * k * n ∧ (if g = 2 then chip = d.chipNo + 1 else chip + 1 = d.chipNo) then
    let ds := ofWords64 ((pl.drop 1).take nd)
    d.chordPacket (g == 2)
      { sender := Fin.ofNat 8 chip, tx := nbit id 8, rate := Fin.ofNat 8 id, ts := BitVec.ofNat 48 w1, nblk := n, k := k,
        desc := (List.range (k * n)).map (fun i => (ds / 256 ^ i % 4, ds / 256 ^ i / 16 % 16)),
        mants := pairsOf 16 (16 * k * n) (ofWords64 (pl.drop (1 + nd))) }
  else d

/-- A POLL is answered with STATUS by the chip that it names, or passed on. A single chip that the head reaches in the boot
state answers under the number that the poll gives it (DEDUCED, log entry 24). -/
def Dev.takePoll (d : Dev) (pl : List (BitVec 64)) (w : BitVec 64) : Dev :=
  let k := w.toNat % 8
  if d.chipMine k then d.push d.upGroup 1 (.pass 6 k 2 [d.statusWord])
  else if d.role = 2 then d.push 2 1 (.pass 6 0 1 pl)
  else d

/-- LCTL (Table 11.8): polls and markers from above, STATUS words from below. -/
def Dev.takeLctl (d : Dev) (g chip id : Nat) (pl : List (BitVec 64)) : Dev :=
  match pl with
  | [w] =>
    if g = 2 then
      if id % 16 = 2 ∧ d.below chip then
        (if d.role = 1 then d.statusRow chip w else d.push 1 1 (.pass 6 chip 2 pl))
      else d
    else if d.fromHead g ∧ (chip < d.chipNo ∨ d.bootLat) then
      if id % 16 = 1 then d.takePoll pl w
      else if id % 16 = 3 then d.markRow (w.toNat / 2 ^ 32 % 65536) w
      else d
    else d
  | _ => d

/-- BULK_WR and BULK_RD: for this chip, or passed down (R33, Table 11.9). -/
def Dev.takeBulk (d : Dev) (g typ chip : Nat) (pl : List (BitVec 64)) : Dev :=
  let w1 := ((pl[0]?).getD 0).toNat
  let n := w1 / 2 ^ 32 % 8192
  let a := mkw w1
  let xid : Byte := BitVec.ofNat 8 (w1 / 2 ^ 48)
  if g = d.upGroup ∧ pl.length = 1 + (if typ = 7 then (n + 1) / 2 else 0) then
    if d.chipMine chip then
      d.bulkArrive
        { write := typ == 7, grp := g, addr := a, xid := xid, ack := nbit w1 56, n := n,
          data := if typ = 7 then (List.range n).map fun i => mkw (ofWords64 (pl.drop 1) / 2 ^ (32 * i)) else [] }
    else if d.below chip then d.push 2 7 (.pass typ chip 0 pl)
    else d
  else d

/-- BULK_DATA, BULK_ACK and CAPTURE of a chip below: the number of data words agrees with NW (R290); they go up as they are. -/
def Dev.passBulk (d : Dev) (g typ chip : Nat) (pl : List (BitVec 64)) : Dev :=
  let nw := ((pl[0]?).getD 0).toNat / 2 ^ 32 % 8192
  if g = 2 ∧ d.below chip ∧ (typ = 10 → nw = 0) ∧ pl.length = 1 + (nw + 1) / 2 then d.push d.upGroup 7 (.pass typ chip 0 pl) else d

/-- A checked packet is accepted under Table 11.3, or discarded without report. -/
def Dev.accept (d : Dev) (g : Nat) (w : BitVec 64) (pl : List (BitVec 64)) : Dev :=
  let vc := hwVc w
  let chip := hwChip w
  let id := hwId w
  match hwType w with
  | 1 => d.takeCommand g vc chip pl
  | 2 => if d.fromBelow g vc chip then d.takeReply chip pl else d
  | 3 => if d.fromBelow g vc chip then d.takeEvent chip pl else d
  | 4 => if g = 0 ∧ chip = 0 then d.takeSample vc id pl else d
  | 5 => if vc = 6 then d.takeChord g chip id pl else d
  | 6 => if vc = 1 then d.takeLctl g chip id pl else d
  | 7 => if vc = 7 then d.takeBulk g 7 chip pl else d
  | 8 => if vc = 7 then d.takeBulk g 8 chip pl else d
  | t => if vc = 7 then d.passBulk g t chip pl else d

/-- A discard is reported on VC0, VC1 and VC7 (R275). -/
def Dev.reportDiscard (d : Dev) (g vc : Nat) : Dev :=
  if vc = 0 ∨ vc = 1 ∨ vc = 7 then d.fault 0x0407 0 (d.lowRx g) vc else d

/-- A framed packet. Where its header is bad, or it is not as long as its PLEN says, so that no header stands where the next one is
expected, framing is lost (R271). -/
def Dev.packetIn (d : Dev) (g : Nat) (ws : List (BitVec 64)) : Dev :=
  match ws with
  | w :: rest =>
    if headGood w ∧ ws.length = hwPlen w then
      let d := (d.setFramed g true).polySettle
      if checkGood (d.inPoly (hwVc w)) ws then d.accept g w rest.dropLast else d.reportDiscard g (hwVc w)
    else d.loseFraming g
  | [] => d

/-- FIRST of a pointer word whose CRC holds (R269). -/
def pointerFirst (w : BitVec 64) : Option Nat :=
  if w.toNat / 2 ^ 48 = crcOf 3 (natBytes 6 (w.toNat % 2 ^ 48)) then some (w.toNat % 1024) else none

/-- The words of superblocks of `n` words without their pointer words. -/
def withoutPointers (n : Nat) (ws : List (BitVec 64)) : List (BitVec 64) :=
  ((List.range ws.length).zip ws).filterMap fun e => if e.1 % n = 0 then none else some e.2

/-- Where a receiver of `m` lanes that has lost framing resumes in the words that begin a superblock: at FIRST of a good pointer
word that names a header (R271). Idle words end the packet. -/
def resumeAt (m : Nat) (ws : List (BitVec 64)) : Option (List (BitVec 64)) :=
  match ws with
  | w :: _ =>
    (pointerFirst w).bind fun f =>
      if 1 ≤ f ∧ f < 63 * m ∧ f < ws.length then
        let l := (withoutPointers (63 * m) ws).drop (f - 1)
        some (l.take (hwPlen (l.headD 0)))
      else none
  | [] => none

/-- Words arrive on a group in RUN: a packet, without the pointer words that it skips. On a group that has lost framing they are the
words from the beginning of a superblock, pointer words included, and all of them are discarded unless that superblock's pointer word
names a header (R271; log entry 24 says what the operand of the command holds). -/
def Dev.packetRow (d : Dev) (g : Nat) (ws : List (BitVec 64)) : Dev :=
  if d.boot.phase = .up ∧ d.groupRun g then
    if (d.lg g).lost then
      match resumeAt (popcount 16 (d.lg g).peerTx) ws with
      | some p => (d.setLg g { d.lg g with lost := false }).packetIn g p
      | none => d
    else d.packetIn g ws
  else d

end Sys2Proof.Machine
end

