-- ==== Sys2Proof/Machine/LinkRows.lean ====
section
/-! DEFINITION. The events of lanes, lane groups, packets and the lattice. -/

namespace Sys2Proof.Machine

/-- After 200 ns below or above the threshold, a lane's LOS sets or clears. (R250) -/
def execLos (n : Fin 16) (on : Bool) (s : State) : Out :=
  act (whenUp fun d => d.losRow n on) s

/-- A lane gains block lock after 64 valid headers, or loses it after 16 invalid headers in 64. (R250) -/
def execBlockLock (n : Fin 16) (on : Bool) (s : State) : Out :=
  act (whenUp fun d => d.blockLockRow n on) s

/-- A lane gains comma lock after 4 good commas, or loses it after 3 missing ones. (R250) -/
def execCommaLock (n : Fin 16) (on : Bool) (s : State) : Out :=
  act (whenUp fun d => d.commaLockRow n on) s

/-- A good comma is received and its RXOK, TXMASK, CTRL and SEQ are taken. (R248) -/
def execComma (n : Fin 16) (payload : BitVec 64) (s : State) : Out :=
  act (whenUp fun d => d.commaRow n payload) s

/-- A lane that has stayed ready for 1 ms in RUN enters RXOK. (R252) -/
def execRxokAdd (n : Fin 16) (s : State) : Out :=
  act (whenUp fun d => d.rxokAddRow n) s

/-- At the second superblock boundary after a comma with a differing RXOK, TXMASK changes and capacity is tested.
(R259) -/
def execTxmaskChange (g : Fin 3) (s : State) : Out :=
  act (whenUp fun d => d.maskRow g) s

/-- A partner RXOK with no lane of LANES sends the group back to TRAIN at the second boundary. (R260) -/
def execEmptyRxok (g : Fin 3) (s : State) : Out :=
  act (whenUp fun d => d.emptyRow g) s

/-- A ready lane in RUN loses readiness; RXOK drops it and the loss is reported. (R258) -/
def execLaneLost (n : Fin 16) (s : State) : Out :=
  act (whenUp fun d => d.laneLostRow n) s

/-- The loss of the last ready lane sends a group to LISTEN with one report. (R266) -/
def execGroupLost (g : Fin 3) (s : State) : Out :=
  act (whenUp fun d => d.groupLostRow g) s

/-- In LISTEN, an attempt starts after 100 ms, or 4 ms after an LOS clears. (R255) -/
def execTrainingAttempt (g : Fin 3) (s : State) : Out :=
  act (whenUp fun d => d.attempt g) s

/-- At a SEQ 0 boundary with both ends ready, the group enters RUN. (R254) -/
def execLinkUp (g : Fin 3) (s : State) : Out :=
  act (whenUp fun d => d.linkUpRow g) s

/-- 2 ms after entering TRAIN, the group enters RUN on the lanes ready at both ends, or LISTEN. (R254) -/
def execTrainingTimeout (g : Fin 3) (s : State) : Out :=
  act (whenUp fun d => d.trainTimeout g) s

/-- At the first boundary after a RATE commit's reply has left, the group enters RATE and sends announcements. (R256)
-/
def execRateAnnouncement (g : Fin 3) (s : State) : Out :=
  act (whenUp fun d => d.rateRow g) s

/-- After 16 announcement superblocks and 2 µs idle, the group enters TRAIN at the new rate. (R256) -/
def execRateIdleEnd (g : Fin 3) (s : State) : Out :=
  act (whenUp fun d => d.rateEndRow g) s

/-- An added lane trains alone while the others carry on. (R256) -/
def execLaneAddTraining (n : Fin 16) (s : State) : Out :=
  act (whenUp fun d => d.addRow n) s

/-- At the next superblock boundary after a commit removes a lane from LANES, that lane leaves TXMASK and powers down.
(R256) -/
def execRemovedLane (n : Fin 16) (s : State) : Out :=
  act (whenUp fun d => d.removedRow n) s

/-- On receiving SLEEP, a lane's receiver powers down except CTLE, DFE and LOS. (R265) -/
def execPartnerSleep (n : Fin 16) (s : State) : Out :=
  act (whenUp fun d => d.partnerSleepRow n) s

/-- A lane not ready within 100 µs of LOS clearing after a partner sleep falls under R252. (R265) -/
def execPartnerRelockTimeout (n : Fin 16) (s : State) : Out :=
  act (whenUp fun d => d.relockRow n) s

/-- Every 10 µs in RUN, each receive lane's CTLE and DFE adapt by at most one code per tap. (R251) -/
def execEqualiserAdapt (n : Fin 16) (s : State) : Out :=
  act (whenUp fun d => d.adaptRow n) s

/-- A received packet is framed, checked and accepted, or discarded. (R274) -/
def execPacketReceived (g : Fin 3) (words : List (BitVec 64)) (s : State) : Out :=
  actIf (decide (1 ≤ words.length) && decide (words.length ≤ 4095)) (whenUp fun d => d.packetRow g words) s

/-- A receiver loses framing and discards up to the next good pointer word. (R271) -/
def execFramingLoss (g : Fin 3) (s : State) : Out :=
  act (whenUp fun d => d.framingRow g) s

/-- A bulk write request is checked, stored and written to memory, after those that the store holds. (R291) -/
def execBulkWr (r : BulkReq) (data : List Word) (s : State) : Out :=
  actIf (decide (1 ≤ data.length) && decide (data.length ≤ 8184)) (whenUp fun d =>
    (d.bulkArrive { write := true, grp := r.grp, addr := r.addr, xid := r.xid, ack := r.ack, n := 0, data := data }).bulkDrain) s

/-- A bulk read request is checked and answered with BULK_DATA, after those that the store holds. (R291) -/
def execBulkRd (r : BulkReq) (n : BitVec 13) (s : State) : Out :=
  actIf (decide (1 ≤ n.toNat) && decide (n.toNat ≤ 8184)) (whenUp fun d =>
    (d.bulkArrive { write := false, grp := r.grp, addr := r.addr, xid := r.xid, ack := false, n := n.toNat, data := [] }).bulkDrain) s

/-- A packet finishes leaving the lanes and the egress arbiter chooses the next packet by virtual-channel priority.
(R26) -/
def execPacketTransmitted (g : Fin 3) (s : State) : Out :=
  act (whenUp fun d => d.packetSent g) s

/-- An arriving command packet is checked in order and then dispatched or refused. (R70) -/
def execCommandPacket (path : Path) (bytes : List Byte) (s : State) : Out :=
  act (whenUp fun d => d.commandPacket path bytes) s

/-- The head polls each member in turn over VC1, with a full round every 50 µs. (R33) -/
def execPoll (s : State) : Out :=
  act (whenUp fun d => d.pollRow) s

/-- The head receives a member's STATUS and checks its frame number and offset. (R65) -/
def execMemberStatus (k : Fin 8) (word : BitVec 64) (s : State) : Out :=
  act (whenUp fun d => d.statusRow k word) s

/-- A member receives a frame marker, adds its HOP_LAT, passes it on and computes its offset. (R65) -/
def execFrameMark (frame : BitVec 23) (latSum : BitVec 16) (s : State) : Out :=
  act (whenUp fun d => d.markRow latSum.toNat (BitVec.ofNat 64 frame.toNat)) s

end Sys2Proof.Machine
end

