-- ==== Sys2Proof/Machine/RegisterRows.lean ====
section
/-! DEFINITION. The rows of registers: what a write or a read of one does at once. Each acts while the chip is out of the boot state. -/

namespace Sys2Proof.Machine

/-- A write by command, engine or DMA to a register with no row of its own acts under each field's access code. (R2)
-/
def execRegisterWrite (port : Port) (addr val : Word) (s : State) : Out :=
  act (whenUp fun d => d.portWrite port addr.toNat val) s

/-- A write of 1 to TB_CTRL.ARM arms the timebase, is refused, or stops a running timebase. (R44) -/
def execArm (port : Port) (s : State) : Out :=
  act (whenUp fun d => d.portWrite port Reg.tbCtrl.addr 1) s

/-- A read of TS_LO returns TIMESTAMP bits 31:0 and latches bits 47:32 for the reading port. (R46) -/
def execTsLoRead (port : Port) (s : State) : Out :=
  act (whenUp fun d => d.readAct port Reg.tsLo.addr) s

/-- A write of 1 to CTL.GO of an RFFE mailbox queues its job in the class named by TXN. (R121) -/
def execGo (b : Fin 16) (sn : Fin 5) (s : State) : Out :=
  act (whenUp fun d => d.rffeGo b sn) s

/-- A write of 1 to CCTL.GO checks the capture request in CREQ0 to CREQ2 and takes regions, or refuses the request.
(R211) -/
def execCctlGo (b : Fin 16) (sn : Fin 5) (s : State) : Out :=
  act (whenUp fun d => d.capGo b sn) s

/-- A write of 1 to a bit of CAP_REL frees a DONE region. (R214) -/
def execCapRel (b : Fin 16) (mask : Byte) (s : State) : Out :=
  act (whenUp fun d => d.capRelease b mask.toNat) s

/-- A write of DPD_SWAP with REQ = 1 requests, or replaces, a pending bank swap. (R204) -/
def execDpdSwapRequest (p : Fin 64) (bank : Fin 2) (s : State) : Out :=
  act (whenUp fun d => d.dpdSwapWrite p (mkw (2 ^ 31 + bank.val))) s

/-- A write of DPD_SWAP with REQ = 0 cancels a pending swap. (R204) -/
def execDpdSwapCancel (p : Fin 64) (s : State) : Out :=
  act (whenUp fun d => d.dpdSwapWrite p (mkw (d.f (.dpdSwap p) 0 0))) s

/-- A write of START = 1 to an idle channel checks its configuration and enters PACED, RUN or HALTED. (R319) -/
def execDmaStart (ch : Fin 48) (s : State) : Out :=
  act (whenUp fun d => d.dmaStartGo ch) s

/-- A write of ABORT = 1 lets the beat in progress complete and returns the channel to IDLE. (R327) -/
def execDmaAbortBit (ch : Fin 48) (s : State) : Out :=
  act (whenUp fun d => d.dmaAbortGo ch) s

/-- A write of RESUME = 1 to a halted channel clears its error and re-enters PACED or RUN. (R327) -/
def execResume (ch : Fin 48) (s : State) : Out :=
  act (whenUp fun d => d.dmaResumeGo ch) s

/-- A write of PQ_ADD adds to LEVEL and may assert a pacing request. (R323) -/
def execPqAddWrite (u : Fin 5) (k : Fin 16) (v : BitVec 16) (s : State) : Out :=
  act (whenUp fun d => d.pqAddGo u k v.toNat) s

/-- A write of CU_INIT.INIT loads the algorithm's initial value into a check unit. (R294) -/
def execCuInit (k : Fin 4) (s : State) : Out :=
  act (whenUp fun d => d.cuInitGo k) s

/-- A write of CU_FEED feeds 4 bytes to a check unit. (R294) -/
def execCuFeed (k : Fin 4) (v : Word) (s : State) : Out :=
  act (whenUp fun d => d.cuFeedGo k (wordBytes v)) s

/-- A write of CU_FEED8 feeds 1 byte to a check unit. (R294) -/
def execCuFeed8 (k : Fin 4) (v : Byte) (s : State) : Out :=
  act (whenUp fun d => d.cuFeedGo k [v]) s

/-- A write of CU_VAL restores a check unit's running value. (R294) -/
def execCuValRestore (k : Fin 4) (v : Word) (s : State) : Out :=
  act (whenUp fun d => d.cuRestore k v) s

/-- A write of EN_SET enables one event source. (R344) -/
def execEnSet (sn : BitVec 9) (s : State) : Out :=
  act (whenUp fun d => d.setEn sn.toNat true) s

/-- A write of EN_CLR disables one event source. (R344) -/
def execEnClr (sn : BitVec 9) (s : State) : Out :=
  act (whenUp fun d => d.setEn sn.toNat false) s

/-- A write of PEND_SET fires one source if it is not pending. (R344) -/
def execPendSet (sn : BitVec 9) (s : State) : Out :=
  act (whenUp fun d => d.pendSet sn.toNat) s

/-- A write of PEND_CLR empties the record queue of one source. (R344) -/
def execPendClr (sn : BitVec 9) (s : State) : Out :=
  act (whenUp fun d => d.pendClr sn.toNat) s

/-- A write of an EN word enables or disables 32 sources bit by bit. (R343) -/
def execEnArrayWrite (w : Fin 16) (v : Word) (s : State) : Out :=
  act (whenUp fun d => arrayWrite Dev.enBit d w v) s

/-- A write of a PEND word fires or empties 32 sources bit by bit. (R343) -/
def execPendArrayWrite (w : Fin 16) (v : Word) (s : State) : Out :=
  act (whenUp fun d => arrayWrite Dev.pendBit d w v) s

/-- A write of 0 to bits of an ACT word ends those sources' activity. (R343) -/
def execActArrayWrite (w : Fin 16) (v : Word) (s : State) : Out :=
  act (whenUp fun d => arrayWrite Dev.actBit d w v) s

/-- A read of TGT_CLAIM by an engine target claims the best deliverable source or returns 0, 1022 or 1023. (R335) -/
def execTgtClaim (t : Fin 20) (s : State) : Out :=
  act (whenUp fun d => d.claimRead t) s

/-- A write of a source number to TGT_DONE completes that source's claim. (R336) -/
def execTgtDone (t : Fin 20) (sn : BitVec 9) (s : State) : Out :=
  act (whenUp fun d => d.complete t sn.toNat) s

/-- A write of PS_REQ with OP 1 requests the sleep of a domain. (R350) -/
def execPsReqSleep (d_ : BitVec 9) (s : State) : Out :=
  act (whenUp fun d => d.psReqGo d_.toNat true) s

/-- A write of PS_REQ with OP 0 requests the wake of a domain. (R353) -/
def execPsReqWake (d_ : BitVec 9) (s : State) : Out :=
  act (whenUp fun d => d.psReqGo d_.toNat false) s

/-- A write of PL_MIN deeper than the present step moves the ladder there at once. (R360) -/
def execPlMinWrite (v : BitVec 3) (s : State) : Out :=
  act (whenUp fun d => d.plMinSet v.toNat) s

end Sys2Proof.Machine
end

