-- ==== Sys2Proof/Machine/RfRows.lean ====
section
/-! DEFINITION. The events of the timebase, the synthesisers, the cells, the blocks and the diversity pairs. -/

namespace Sys2Proof.Machine

/-- 20 µs after REF and the chip's IDLE state are both present, REF_SEL is set and the timebase moves from NO_REF to
IDLE. (R43) -/
def execRefDetected (sel : RefSel) (s : State) : Out :=
  act (whenUp fun d => d.refFound sel) s

/-- In ARMED, the first FRAME edge sampled by REF reads FRAME_NEXT and schedules tick 0. (R44) -/
def execArmingEdge (s : State) : Out :=
  act (whenUp fun d => d.armEdge) s

/-- 64 ticks after the arming edge, tick 0 of frame FRAME_NEXT begins and the timebase enters RUN. (R44) -/
def execTimebaseRun (s : State) : Out :=
  act (whenUp fun d => d.tbRun) s

/-- A FRAME edge sampled in RUN sets FRAME_OK when it falls at tick 0 and is otherwise ignored. (R45) -/
def execFrameEdge (s : State) : Out :=
  act (whenUp fun d => d.edgeRow) s

/-- At each frame start the timebase updates FRAME_OK and raises SYNC_OUT, and the head sends a frame marker. (R45) -/
def execFrameStart (s : State) : Out :=
  act (whenUp fun d => d.frameRow) s

/-- 64 ticks after tick 0, SYNC_OUT goes low. (R66) -/
def execSyncOutLow (s : State) : Out :=
  act (whenUp fun d => d.syncLow) s

/-- Every 1 µs the slack of each fabric is measured and reported. (R59) -/
def execSlackMeasurement (f : Fin 5) (v : Byte) (s : State) : Out :=
  act (whenUp fun d => d.slackRow f v.toNat) s

/-- Every 1 µs the power manager raises or lowers each awake fabric's voltage by 5 mV. (R354) -/
def execFabricVoltageStep (s : State) : Out :=
  act (whenUp fun d => d.voltageStep) s

/-- A waiting synthesiser operation is granted the shared band-calibration engine or phase port when it becomes free.
(R24) -/
def execSynthOpGrant (q : Fin 4) (s : State) : Out :=
  act (whenUp fun d => d.synthGrant q) s

/-- 20 µs after BANDCAL began, the synthesiser enters SETTLE. (R101) -/
def execBandcalEnd (n : Fin 8) (s : State) : Out :=
  act (whenUp fun d => d.bandcalEnd n) s

/-- In SETTLE, the lock detector asserts and the synthesiser enters PHASE and queues its phase measurement. (R101) -/
def execLock (n : Fin 8) (s : State) : Out :=
  act (whenUp fun d => d.synLock n) s

/-- 60 µs after BANDCAL began without lock, the relock fails: LOCK_LOST is reported, or the synthesiser enters
UNLOCKED. (R102) -/
def execRelockFail (n : Fin 8) (s : State) : Out :=
  act (whenUp fun d => d.relockFail n) s

/-- Loss of lock in PHASE or READY marks blocks, darkens TX and queues a class-1 recovery relock. (R103) -/
def execLockLost (n : Fin 8) (s : State) : Out :=
  act (whenUp fun d => (d.lockLost n).calWatch (n.val / 2)) s

/-- A 2.0 µs LO phase measurement ends with a correction to apply. (R105) -/
def execPhaseMeasurementEnd (n : Fin 8) (s : State) : Out :=
  act (whenUp fun d => d.phaseEnd n) s

/-- At the next path-block boundary after a phase measurement, the correction is applied, the synthesiser enters READY
and LO_READY fires. (R105) -/
def execLoReady (n : Fin 8) (s : State) : Out :=
  act (whenUp fun d => d.loReadyRow n) s

/-- Every 1 ms while READY, a class-3 phase measurement is queued for tracking. (R107) -/
def execTrackingMeasurement (n : Fin 8) (s : State) : Out :=
  act (whenUp fun d => d.trackingQueue n) s

/-- At each path-block boundary, the correction moves toward the measured value by at most 0.5°. (R107) -/
def execTrackingStep (n : Fin 8) (s : State) : Out :=
  act (whenUp fun d => d.trackingMove n) s

/-- At START − PA_LEAD − TR_LEAD, a TX cell enters PREP and drives FE_TR to TX level. (R111) -/
def execPrep (p : Fin 64) (s : State) : Out :=
  act (whenUp fun d => d.prep p) s

/-- At START − PA_LEAD, the TX cell enters QUEUED and its FE_PA rise joins the chip-wide queue if its LO is READY.
(R116) -/
def execQueued (p : Fin 64) (s : State) : Out :=
  act (whenUp fun d => d.queueRise p) s

/-- A queued rise is granted within the step budget; FE_PA rises and the cell enters ON. (R116) -/
def execFePaRise (s : State) : Out :=
  act (whenUp fun d => d.paRise) s

/-- A TX window not granted, or with its LO not READY, by START enters DARK. (R115) -/
def execDark (p : Fin 64) (s : State) : Out :=
  act (whenUp fun d => d.darkRow p) s

/-- At START + LEN + PA_LAG, FE_PA falls and the TX cell enters TAIL. (R111) -/
def execTail (p : Fin 64) (s : State) : Out :=
  act (whenUp fun d => d.tailRow p) s

/-- TR_LAG after FE_PA falls, the TX cell returns FE_TR to RX level and enters GAP. (R111) -/
def execGap (p : Fin 64) (s : State) : Out :=
  act (whenUp fun d => d.gapRow p) s

/-- At the end of its active interval, or at START when its FE_PA rise was not granted, a burst sends its final reply.
(R114) -/
def execBurstEnd (cell : Fin 128) (s : State) : Out :=
  act (whenUp fun d => d.burstEnd cell) s

/-- At the start of an RX active interval, the ADC pair leaves OFF and enters STARTING. (R130) -/
def execRxActiveStart (p : Fin 64) (s : State) : Out :=
  act (whenUp fun d => d.rxActive p) s

/-- 3,933 ticks after entering STARTING, the ADC pair enters RUN. (R129) -/
def execAdcRun (p : Fin 64) (s : State) : Out :=
  act (whenUp fun d => d.adcRun p) s

/-- At START, the RX cell enters ON and delivery of carrier samples begins. (R130) -/
def execRxWindowStart (p : Fin 64) (s : State) : Out :=
  act (whenUp fun d => d.rxStart p) s

/-- At the end of an RX window, the cell enters GAP and the ADC pair powers down unless another interval follows
within 1 µs. (R130) -/
def execRxWindowEnd (p : Fin 64) (s : State) : Out :=
  act (whenUp fun d => d.rxEnd p) s

/-- At the first of the TX active interval start and START − 1,024, the DAC pair enters STARTING. (R140) -/
def execDacPowerUp (p : Fin 64) (s : State) : Out :=
  act (whenUp fun d => d.dacUp p) s

/-- 787 ticks after power-up, the DAC pair's start-up ends. (R140) -/
def execDacStarted (p : Fin 64) (s : State) : Out :=
  act (whenUp fun d => d.dacStarted p) s

/-- At the end of the TX active interval, the DAC pair returns to OFF or stays in MIDSCALE. (R140) -/
def execDacPowerDown (p : Fin 64) (s : State) : Out :=
  act (whenUp fun d => d.dacDown p) s

/-- An over-range conversion saturates, marks blocks and is reported once per window. (R137) -/
def execAdcOvr (p : Fin 64) (s : State) : Out :=
  act (whenUp fun d => (d.adcOvr p).calAdcOvr p) s

/-- 24 conversions after the last over-range conversion, the cell is clean again and OVR clears. (R134) -/
def execOvrRecoveryEnd (p : Fin 64) (s : State) : Out :=
  act (whenUp fun d => d.ovrEnd p) s

/-- 8 ticks after the input returns, the neighbours are clean again and NBR clears. (R135) -/
def execNbrRecoveryEnd (p : Fin 64) (s : State) : Out :=
  act (whenUp fun d => d.nbrEnd p) s

/-- 19,661 ticks after EN = 1, the ORX enters IDLE. (R144) -/
def execOrxStarted (b : Fin 16) (s : State) : Out :=
  act (whenUp fun d => d.orxStarted b) s

/-- A class-2 or class-3 block request that has waited 2 ms is raised one class. (R18) -/
def execBlockRequestRaised (b : Fin 16) (s : State) : Out :=
  act (whenUp fun d => d.raiseRow b) s

/-- The block arbiter grants a whole ORX job, which begins with its input switch. (R16) -/
def execOrxJobGrant (b : Fin 16) (s : State) : Out :=
  act (whenUp fun d => d.orxGrant b) s

/-- An ORX job completes and is returned to its requester, flagged if over-range. (R145) -/
def execOrxJobEnd (b : Fin 16) (r : OrxResult) (s : State) : Out :=
  act (whenUp fun d => d.orxJobEnd b r) s

/-- The block arbiter grants one RFFE transaction. (R16) -/
def execRffeJobGrant (b : Fin 16) (s : State) : Out :=
  act (whenUp fun d => d.rffeGrant b) s

/-- An RFFE transaction ends and its mailbox RESULT is set. (R120) -/
def execRffeJobEnd (b : Fin 16) (parityOk : Bool) (data : List Byte) (s : State) : Out :=
  actIf (decide (data.length ≤ 16)) (whenUp fun d => d.rffeEnd b parityOk data) s

/-- At its trigger tick, an enabled timed entry issues its write as a class-2 job. (R122) -/
def execTimedEntryTrigger (b : Fin 16) (n : Fin 16) (s : State) : Out :=
  act (whenUp fun d => d.timedRow b n) s

/-- When no suitable window has occurred 20 ms after a mismatch measurement was requested, the measurement ends with
LATE. (R126) -/
def execMismatchTimeout (tag : BitVec 8) (s : State) : Out :=
  act (whenUp fun d => d.misTimeout tag) s

/-- After the search, the pair's correlator keeps or changes the chosen branch. (R124) -/
def execDiversityDecision (k : Fin 32) (m : DivMeas) (s : State) : Out :=
  act (whenUp fun d => d.divDecide k m) s

end Sys2Proof.Machine
end

