-- ==== Sys2Proof/Machine/StreamRows.lean ====
section
/-! DEFINITION. The events of commit groups, streams, beams, path processing and captures. -/

namespace Sys2Proof.Machine

/-- At its boundary tick, an accepted group's staged values become live, the group becomes EMPTY and the final OK is
sent. (R88) -/
def execApplication (g : Fin 272) (s : State) : Out :=
  act (whenUp fun d => d.groupBoundary g) s

/-- At its start tick − 2,048, the swap in the SLOT moves to BOUND and its first entry is fetched. (R178) -/
def execSwapBind (x : Fin 128) (s : State) : Out :=
  act (whenUp fun d => d.swapBind x) s

/-- At its start tick, the swap's schedule becomes LIVE and its fade begins. (R178) -/
def execSwapStart (x : Fin 128) (s : State) : Out :=
  act (whenUp fun d => d.swapStart x) s

/-- At s_0 + FADE_LEN × P, BOUND empties and the swap sends its final OK. (R178) -/
def execFadeEnd (x : Fin 128) (s : State) : Out :=
  act (whenUp fun d => d.fadeEnd x) s

/-- At the boundary tick of a schedule point, that point's entry takes effect for the context. (R176) -/
def execSchedulePointChange (x : Fin 128) (s : State) : Out :=
  act (whenUp fun d => d.pointChange x) s

/-- 2,048 ticks before a schedule point's change tick, the slice issues the class-1 fetch of the new entry. (R174) -/
def execWeightFetchIssue (x : Fin 128) (s : State) : Out :=
  act (whenUp fun d => d.fetchIssueRow x) s

/-- A class-1 weight-entry fetch, issued 2,048 ticks before its change tick, completes. (R174) -/
def execWeightFetchDone (x : Fin 128) (s : State) : Out :=
  act (whenUp fun d => d.fetchDone x) s

/-- An RX carrier block of 16 samples is complete with its validity code; CARR_STAT and the stream blocks of the
contexts that use it are updated. (R162) -/
def execCarrierBlockComplete (cell : Fin 128) (c : Fin 8) (s : State) : Out :=
  act (whenUp fun d => if cell.val < 64 then d else d.carrierBlockRow (cell.val - 64) c) s

/-- A partial sum not arrived by its deadline is replaced by 0 and marked 0b11. (R185) -/
def execPartialSumMissing (x : Fin 128) (s : State) : Out :=
  act (whenUp fun d => d.partialMissing x) s

/-- A transmit SAMPLE packet is checked against its arrival window and stored, or discarded. (R52) -/
def execTxSamplePacket (pkt : SamplePkt) (s : State) : Out :=
  actIf (pkt.wf) (whenUp fun d => d.txSample pkt) s

/-- At T − TX_LEAD, a stored transmit sample leaves the ingress store for the beam engine, or the head forwards it
down the chord. (R51) -/
def execIngressRelease (x : Fin 128) (s : State) : Out :=
  act (whenUp fun d => d.ingressRelease x) s

/-- 48 ticks before T, the gate passes the path sample, or 0 + j0 when none is held, into the TXCLK domain. (R49) -/
def execReleaseGate (p : Fin 64) (s : State) : Out :=
  act (whenUp fun d => d.releaseGate p) s

/-- When the last block of its interval is complete, a receive context's packet enters egress. (R282) -/
def execRxSamplePacketEgress (x : Fin 128) (s : State) : Out :=
  act (whenUp fun d => d.rxEgress x) s

/-- A CHORD packet arrives and its partial sums or samples are used, or it is discarded on a K mismatch. (R288) -/
def execChordPacket (down : Bool) (pkt : ChordPkt) (s : State) : Out :=
  actIf (pkt.wf) (whenUp fun d => d.chordPacket down pkt) s

/-- At the binding tick, a pending bank swap becomes bound and its bank is fetched as a class-2 request. (R205) -/
def execDpdBind (p : Fin 64) (s : State) : Out :=
  act (whenUp fun d => d.dpdBind p) s

/-- The class-2 fetch of a bound coefficient bank completes and the bank is validated, becoming LIVE at once outside
RUN. (R205) -/
def execBankFetchDone (p : Fin 64) (s : State) : Out :=
  act (whenUp fun d => d.bankFetchDone p) s

/-- At the slot boundary, PREV takes LIVE and LIVE takes the fetched bank, or the swap is dropped as late. (R205) -/
def execDpdBankSwap (p : Fin 64) (s : State) : Out :=
  act (whenUp fun d => d.dpdSwapRow p) s

/-- At the end of each 4,096-tick interval, the guard judges an eligible interval for EXPAND or CLIP. (R207) -/
def execGuardJudgement (p : Fin 64) (_ : Unit) (s : State) : Out :=
  act (whenUp fun d => d.guardJudge p) s

/-- 256 ticks after a tripped interval, the path falls back one store, enters the guard lock and drops swaps. (R208)
-/
def execGuardFallback (p : Fin 64) (s : State) : Out :=
  act (whenUp fun d => d.guardFallback p) s

/-- At T − 2,048 ticks, the ORX job of a triggered capture enters its block queue. (R212) -/
def execCaptureJobQueued (b : Fin 16) (sn : Fin 5) (s : State) : Out :=
  act (whenUp fun d => d.capJobQueued b sn) s

/-- At T0, set by its trigger, a capture starts sampling. (R212) -/
def execCaptureStart (b : Fin 16) (sn : Fin 5) (s : State) : Out :=
  act (whenUp fun d => d.capStart b sn) s

/-- A capture whose ORX job is not granted by T − 394, or that finds no window within 20 ms, ends with LATE and frees
its regions. (R212) -/
def execCaptureLate (b : Fin 16) (sn : Fin 5) (s : State) : Out :=
  act (whenUp fun d => d.capLate b sn) s

/-- A capture completes within 128 ticks of its last tick; its regions read DONE and the block's event source fires.
(R214) -/
def execCaptureDone (b : Fin 16) (sn : Fin 5) (s : State) : Out :=
  act (whenUp fun d => d.capDone b sn) s

end Sys2Proof.Machine
end

