-- ==== Sys2Proof/Machine/Jtag.lean ====
section
/-! DEFINITION. The JTAG port: instructions, pins in boundary test, and the service path (R97–R99, R364, R383, R384). -/

namespace Sys2Proof.Machine

/-! ## Instructions (Table 17.9) -/

/-- Load the instruction register. -/
def Dev.setIr (d : Dev) (code : Nat) : Dev := d.setJtag { d.jtag with ir := code }

/-- An instruction that acts as BYPASS in SHUTDOWN (R364). -/
def Dev.setIrUp (d : Dev) (code : Nat) : Dev := d.setIr (if d.isDown then 0xFF else code)

/-- The codes of Table 17.9. -/
def jtagCodes : List Nat := [0x00, 0x01, 0x02, 0x03, 0x04, 0x05, 0x06, 0x21, 0xFF]

/-- BYPASS, by its own code or by one that the table does not list. -/
def Dev.bypassRow (d : Dev) (code : Byte) : Dev :=
  if code = 0xFF ∨ ¬ jtagCodes.contains code.toNat then d.setIr 0xFF else d

/-- The identification register (R383). -/
def idcodeValue : Word := 0x16464FFF

/-! ## Pins (R384) -/

/-- The level that the block itself drives at an output cell of the boundary register; none where it is an input, a serial
bus or a lane, whose level is not state. -/
def Dev.ownLevel (d : Dev) (c : Nat) : Option Bool :=
  if c < 64 then some (d.fePa c)
  else if c < 128 then some (d.feTr (c - 64))
  else if c < 144 then some (d.feAuxPin (c - 128))
  else if c = 209 then some d.tb.syncOut
  else if c = 210 then some (!d.eventnLow)
  else none

/-- EXTEST and CLAMP drive the output pins from the boundary register, HIGHZ floats them (R383). -/
def Dev.pinLevel (d : Dev) (c : Nat) : Option Bool :=
  if d.jtag.ir = 0 ∨ d.jtag.ir = 4 then some (d.bcell c)
  else if d.jtag.ir = 3 then none
  else d.ownLevel c

/-- SAMPLE/PRELOAD: the boundary register takes the levels at the pins; one that is not state is a free value. In SHUTDOWN
the cells of the lanes capture 0 (R383). No command shifts data into the register (log entry 25). -/
def Dev.sampleRow (d : Dev) : Dev :=
  let d := d.setIr 1
  (List.range 243).foldl (fun d c =>
    match d.ownLevel c with
    | some b => d.setBcell c b
    | none => if 211 ≤ c ∧ d.isDown then d.setBcell c false else (d.setBcell c (d.free.getLsbD 0)).used) d

/-! ## The service path (R97–R99) -/

/-- IN_READY: the inbound side can take the first word of a packet. The sequencer behind it runs once boot is complete. -/
def Dev.inReady (d : Dev) : Bool :=
  d.boot.phase == .up && d.jtag.inb.isEmpty && d.jtag.done.isNone && !d.jtag.discard && d.jtag.wait.isEmpty

/-- The head word of the outbound queue. -/
def Jtag.headWord (j : Jtag) : Option Word := (j.out.head?).bind fun p => p.words.head?

/-- The service register is selected and works (R97, R364). -/
def Dev.svcOn (d : Dev) : Bool := d.jtag.ir == 0x21 && !d.isDown

/-- Capture-DR of a service scan. -/
def Dev.svcCapture (d : Dev) : Dev :=
  d.setJtag { d.jtag with capValid := d.jtag.headWord.isSome, capReady := d.inReady,
                          capWord := (d.jtag.headWord).getD 0 }

/-- Append a word to the inbound packet. A bad LEN is refused once the header is whole; a whole packet waits for the
sequencer. -/
def Dev.putWord (d : Dev) (w : Word) : Dev :=
  let ws := d.jtag.inb ++ [w]
  let bs := wordsBytes ws
  let len := lenField bs
  if ws.length = 4 ∧ (1024 < len ∨ len % 4 ≠ 0) then
    (d.setJtag { d.jtag with inb := [], discard := true }).final (byteField bs 0 2) (parseHdr .jtag bs) badHeader
  else if 4 ≤ ws.length ∧ 20 + len ≤ 4 * ws.length then d.setJtag { d.jtag with inb := [], done := some ws }
  else d.setJtag { d.jtag with inb := ws }

/-- PUT: a word of a packet in assembly is taken; a first word only while IN_READY is 1 (R98). -/
def Dev.putRow (d : Dev) (w : Word) : Dev :=
  if d.svcOn then
    let d := d.svcCapture
    if d.jtag.inb.isEmpty ∧ !d.inReady then d else d.putWord w
  else d

/-- Remove the head word of the outbound queue; replies that wait enter as room appears (R99). A final reply leaves with its last
word (R276). -/
def Dev.getWord (d : Dev) : Dev :=
  match d.jtag.out with
  | p :: rest =>
    let p := { p with words := p.words.tail }
    let d := (d.setJtag { d.jtag with out := if p.words.isEmpty then rest else p :: rest }).jtagRefill d.jtag.wait.length
    if p.words.isEmpty then d.finalLeft p.fin else d
  | [] => d

/-- GET. -/
def Dev.getRow (d : Dev) : Dev := if d.svcOn then d.svcCapture.getWord else d

/-- NONE. -/
def Dev.noneRow (d : Dev) : Dev := if d.svcOn then d.svcCapture else d

/-- FLUSH. -/
def Dev.flushRow (d : Dev) : Dev :=
  if d.svcOn then
    let d := d.svcCapture
    d.setJtag { d.jtag with inb := [], discard := false }
  else d

/-- What Capture-DR of the selected data register loads: its length and its bits. -/
def Dev.dataReg (d : Dev) : Nat × Nat :=
  if d.jtag.ir = 2 then (32, idcodeValue.toNat)
  else if d.jtag.ir = 0x21 then
    (34, (d.jtag.headWord.getD 0).toNat + 2 ^ 32 * b2n d.inReady + 2 ^ 33 * b2n d.jtag.headWord.isSome)
  else if d.jtag.ir = 0 ∨ d.jtag.ir = 1 ∨ d.jtag.ir = 5 ∨ d.jtag.ir = 6 then
    (243, (List.range 243).foldl (fun n c => n + b2n (d.bcell c) * 2 ^ c) 0)
  else (1, 0)

end Sys2Proof.Machine
end

