-- ==== Sys2Proof/Machine/SystemRows.lean ====
section
/-! DEFINITION. The events of the hub, the DMA channels, power, boot and JTAG. -/

namespace Sys2Proof.Machine

/-- An event source fires and appends its record, or is discarded and sets LOST; a source or a record that Table 14.1 does not list
never fires. (R333) -/
def execSourceFiring (sn : BitVec 9) (r : Rec) (s : State) : Out :=
  act (whenUp fun d => if d.sourceRec sn.toNat r then d.fire sn.toNat r else d) s

/-- At a rising edge of its line, a host channel claims a source and sends an EVENT packet, or defers until room
exists. (R338) -/
def execHostChannelClaim (c : Fin 4) (s : State) : Out :=
  act (whenUp fun d => d.channelClaim c) s

/-- A running channel whose request is asserted issues a burst of beats. (R323) -/
def execDmaBurst (ch : Fin 48) (s : State) : Out :=
  act (whenUp fun d => d.dmaBurstRow ch) s

/-- A beat completes, advancing the addresses and COUNT, decreasing LEVEL and feeding a bound check unit. (R322) -/
def execDmaBeatComplete (ch : Fin 48) (s : State) : Out :=
  act (whenUp fun d => d.beatRow ch) s

/-- A failed beat is retried or halts the channel. (R326) -/
def execDmaBeatFail (ch : Fin 48) (write : Bool) (err : BeatErr) (s : State) : Out :=
  act (whenUp fun d => d.beatFailRow ch write err) s

/-- A link-destination channel stalled for VC7 egress room resumes when room appears. (R328) -/
def execDmaStallResume (ch : Fin 48) (s : State) : Out :=
  act (whenUp fun d => d.dmaStallEnd ch) s

/-- The power manager grants the next waiting sleep or wake transition the mutex. (R29) -/
def execPowerTransitionGrant (s : State) : Out :=
  act (whenUp fun d => d.grantRow) s

/-- A sleep or wake transition ends after its transition time and frees the mutex. (R350) -/
def execPowerTransitionEnd (s : State) : Out :=
  act (whenUp fun d => d.transEnd) s

/-- WAKE_GAP µs after a wake, the next wake may be granted. (R352) -/
def execWakeGapEnd (s : State) : Out :=
  act (whenUp fun d => d.gapEnd) s

/-- Every 200 µs the round converts its next channel and replaces its reading. (R355) -/
def execHousekeepingConversion (reading : Int) (s : State) : Out :=
  actIf (decide (-32768 ≤ reading) && decide (reading < 65536)) (whenUp fun d => d.hkConvert reading) s

/-- At the end of each 8 ms round, sensors, governing temperature and ladder are evaluated and source 177 fires.
(R355) -/
def execHkRound (s : State) : Out :=
  act (whenUp fun d => d.hkRound) s

/-- A ladder step change takes the mutex, applies all its caps at once, sheds or restores streams and fires source
176. (R361) -/
def execThrottle (s : State) : Out :=
  act (whenUp fun d => d.throttleRow) s

/-- A comparator at 135 °C for 10 µs starts the shutdown and drives FE_PA inactive. (R363) -/
def execThermalTrip (s : State) : Out :=
  act (fun d => d.trip) s

/-- 200 ns after the trip, every FE_TR goes to its RX level. (R363) -/
def execShutdownTr (s : State) : Out :=
  act (fun d => d.tripTr) s

/-- 1 µs after the trip, the regulators switch off and the CX6464 is in SHUTDOWN. (R363) -/
def execShutdownDown (s : State) : Out :=
  act (fun d => d.tripDown) s

/-- After all comparators read below 100 °C for 1 s, the CX6464 enters the boot state. (R364) -/
def execThermalRestart (s : State) : Out :=
  act (fun d => d.coolRestart) s

/-- A PORn low pulse of 1 µs or more puts the CX6464 into the boot state. (R346) -/
def execPornAssert (pulse : PornPulse) (s : State) : Out :=
  act (fun d => d.pornLow pulse) s

/-- When PORn rises, the boot state machine reads the comparators and starts the boot sequence or enters SHUTDOWN.
(R347) -/
def execPornRelease (hot : Bool) (s : State) : Out :=
  act (fun d => d.pornHigh hot) s

/-- 1 ms after PORn rises, the fabrics stand at 0.72 V and memory clearing begins. (R347) -/
def execFabricsUp (s : State) : Out :=
  act (fun d => d.fabricsUp) s

/-- When boot completes, CHIP reads IDLE, commands are accepted and source 1 fires. (R347) -/
def execRestart (s : State) : Out :=
  act (fun d => d.restart) s

/-- An Update-DR of SVC with 0b00 does nothing. (R97) -/
def execSvcNone (s : State) : Out :=
  act (fun d => d.noneRow) s

/-- An Update-DR of SVC with 0b01 appends a word to the inbound packet, or discards it. (R98) -/
def execPut (w : Word) (s : State) : Out :=
  act (fun d => d.putRow w) s

/-- An Update-DR of SVC with 0b10 removes the captured head word of the outbound queue. (R97) -/
def execSvcGet (s : State) : Out :=
  act (fun d => d.getRow) s

/-- An Update-DR of SVC with 0b11 discards any partial inbound packet. (R97) -/
def execFlush (s : State) : Out :=
  act (fun d => d.flushRow) s

/-- Within 1 µs of completion, the sequencer takes the inbound JTAG packet and IN_READY returns to 1. (R98) -/
def execSvcPacketTaken (s : State) : Out :=
  act (fun d => d.svcTaken) s

/-- JTAG instruction 0x00 selects the boundary register and drives the pins from it. (R383) -/
def execExtest (s : State) : Out :=
  act (fun d => d.setIr 0x00) s

/-- JTAG instruction 0x01 selects the boundary register for sampling and preloading. (R383) -/
def execSamplePreload (s : State) : Out :=
  act (fun d => d.sampleRow) s

/-- JTAG instruction 0x02 selects the identification register. (R383) -/
def execIdcode (s : State) : Out :=
  act (fun d => d.setIr 0x02) s

/-- JTAG instruction 0x03 floats the pins and selects bypass. (R383) -/
def execHighz (s : State) : Out :=
  act (fun d => d.setIr 0x03) s

/-- JTAG instruction 0x04 drives the pins from the boundary register and selects bypass. (R383) -/
def execClamp (s : State) : Out :=
  act (fun d => d.setIr 0x04) s

/-- JTAG instruction 0x05, IEEE 1149.6 test on the lanes. (R383) -/
def execExtestPulse (s : State) : Out :=
  act (fun d => d.setIrUp 0x05) s

/-- JTAG instruction 0x06, IEEE 1149.6 test on the lanes. (R383) -/
def execExtestTrain (s : State) : Out :=
  act (fun d => d.setIrUp 0x06) s

/-- JTAG instruction 0x21 selects the 34-bit service data register. (R97) -/
def execSvc (s : State) : Out :=
  act (fun d => d.setIrUp 0x21) s

/-- JTAG instruction 0xFF, or any unlisted code, selects bypass. (R383) -/
def execBypass (code : Byte) (s : State) : Out :=
  act (fun d => d.bypassRow code) s

/-- An assertion of TRSTn resets the TAP asynchronously, selecting IDCODE. (R383) -/
def execTrstn (s : State) : Out :=
  act (fun d => d.setIr 0x02) s

end Sys2Proof.Machine
end

