-- ==== Sys2Proof/Machine/VeCode.lean ====
section
/-! DEFINITION. The encoding of engine instructions (R302, Tables 12.3 and 12.4): the words of every instruction, and the
reading of a word. A field that no row of the table binds is written 0 and read without regard. -/

namespace Sys2Proof.Machine

/-! ## Formats (Table 12.3) -/

def fmtR (op : BitVec 6) (rd rs1 rs2 : Reg5) (func : BitVec 11) : Word := op ++ rd ++ rs1 ++ rs2 ++ func
def fmtI (op : BitVec 6) (rd rs1 : Reg5) (imm : BitVec 16) : Word := op ++ rd ++ rs1 ++ imm
def fmtJ (op : BitVec 6) (imm : BitVec 26) : Word := op ++ imm
def fmtV (op : BitVec 6) (vd vs1 vs2 : VReg) (sh : BitVec 5) (func : BitVec 9) : Word := op ++ vd ++ vs1 ++ vs2 ++ sh ++ func
def fmtX (rd : Reg5) (v lane : BitVec 4) (sh : BitVec 5) (func : BitVec 8) : Word :=
  (0x33 : BitVec 6) ++ rd ++ v ++ lane ++ sh ++ func
def fmtY (rs1 : Reg5) (func : BitVec 6) : Word :=
  (0x3F : BitVec 6) ++ (0 : BitVec 5) ++ rs1 ++ (0 : BitVec 10) ++ func

/-- Fields of a word. -/
def opOf (w : Word) : BitVec 6 := w.extractLsb' 26 6
def rdOf (w : Word) : Reg5 := w.extractLsb' 21 5
def rs1Of (w : Word) : Reg5 := w.extractLsb' 16 5
def rs2Of (w : Word) : Reg5 := w.extractLsb' 11 5
def immOf (w : Word) : BitVec 16 := w.extractLsb' 0 16
def imm26Of (w : Word) : BitVec 26 := w.extractLsb' 0 26
def funcR (w : Word) : BitVec 11 := w.extractLsb' 0 11
def vdOf (w : Word) : VReg := w.extractLsb' 22 4
def vs1Of (w : Word) : VReg := w.extractLsb' 18 4
def vs2Of (w : Word) : VReg := w.extractLsb' 14 4
def shV (w : Word) : BitVec 5 := w.extractLsb' 9 5
def funcV (w : Word) : BitVec 9 := w.extractLsb' 0 9
def vX (w : Word) : VReg := w.extractLsb' 17 4
def laneX (w : Word) : BitVec 4 := w.extractLsb' 13 4
def shX (w : Word) : BitVec 5 := w.extractLsb' 8 5
def funcX (w : Word) : BitVec 8 := w.extractLsb' 0 8
def funcY (w : Word) : BitVec 6 := w.extractLsb' 0 6

/-- An accumulator as the four-bit field that names it. -/
def accField (a : Fin 2) : BitVec 4 := BitVec.ofNat 4 a.val

/-- The accumulator that a four-bit field names; none when its other bits are not 0. -/
def accOf (f : BitVec 4) : Option (Fin 2) := if f = 0 then some 0 else if f = 1 then some 1 else none

/-- A vector register in bits 25:22 with bit 21 at 0, as VLD and VST hold it. -/
def vecField (v : VReg) : Reg5 := v ++ (0 : BitVec 1)

/-! ## Encoding -/

/-- The word of an engine instruction; none for every other command. -/
def encodeVe : Instr → Option Word
  | .veAdd _ rd a b => some (fmtR 0x00 rd a b 0x000)
  | .veSub _ rd a b => some (fmtR 0x00 rd a b 0x001)
  | .veAnd _ rd a b => some (fmtR 0x00 rd a b 0x002)
  | .veOr _ rd a b => some (fmtR 0x00 rd a b 0x003)
  | .veXor _ rd a b => some (fmtR 0x00 rd a b 0x004)
  | .veSll _ rd a b => some (fmtR 0x00 rd a b 0x005)
  | .veSrl _ rd a b => some (fmtR 0x00 rd a b 0x006)
  | .veSra _ rd a b => some (fmtR 0x00 rd a b 0x007)
  | .veSlt _ rd a b => some (fmtR 0x00 rd a b 0x008)
  | .veSltu _ rd a b => some (fmtR 0x00 rd a b 0x009)
  | .veMul _ rd a b => some (fmtR 0x00 rd a b 0x00A)
  | .veMulh _ rd a b => some (fmtR 0x00 rd a b 0x00B)
  | .veAddi _ rd a i => some (fmtI 0x01 rd a i)
  | .veAndi _ rd a i => some (fmtI 0x02 rd a i)
  | .veOri _ rd a i => some (fmtI 0x03 rd a i)
  | .veXori _ rd a i => some (fmtI 0x04 rd a i)
  | .veLui _ rd i => some (fmtI 0x05 rd 0 i)
  | .veSlli _ rd a sh => some (fmtI 0x06 rd a ((0 : BitVec 11) ++ sh))
  | .veSrli _ rd a sh => some (fmtI 0x07 rd a ((0 : BitVec 11) ++ sh))
  | .veSrai _ rd a sh => some (fmtI 0x08 rd a ((0 : BitVec 11) ++ sh))
  | .veLw _ rd a i => some (fmtI 0x10 rd a i)
  | .veLh _ rd a i => some (fmtI 0x11 rd a i)
  | .veLhu _ rd a i => some (fmtI 0x12 rd a i)
  | .veLb _ rd a i => some (fmtI 0x13 rd a i)
  | .veLbu _ rd a i => some (fmtI 0x14 rd a i)
  | .veSw _ b a i => some (fmtI 0x18 b a i)
  | .veSh _ b a i => some (fmtI 0x19 b a i)
  | .veSb _ b a i => some (fmtI 0x1A b a i)
  | .veBeq _ b a i => some (fmtI 0x20 b a i)
  | .veBne _ b a i => some (fmtI 0x21 b a i)
  | .veBlt _ b a i => some (fmtI 0x22 b a i)
  | .veBge _ b a i => some (fmtI 0x23 b a i)
  | .veBltu _ b a i => some (fmtI 0x24 b a i)
  | .veBgeu _ b a i => some (fmtI 0x25 b a i)
  | .veJal _ i => some (fmtJ 0x28 i)
  | .veJalr _ rd a i => some (fmtI 0x29 rd a i)
  | .veVld _ v a i => some (fmtI 0x30 (vecField v) a i)
  | .veVst _ v a i => some (fmtI 0x31 (vecField v) a i)
  | .veVadd _ vd a b => some (fmtV 0x32 vd a b 0 0x001)
  | .veVsub _ vd a b => some (fmtV 0x32 vd a b 0 0x002)
  | .veVmul _ vd a b sh => some (fmtV 0x32 vd a b sh 0x003)
  | .veVmulc _ vd a b sh => some (fmtV 0x32 vd a b sh 0x004)
  | .veVmag2 _ vd a sh => some (fmtV 0x32 vd a 0 sh 0x005)
  | .veVshr _ vd a sh => some (fmtV 0x32 vd a 0 sh 0x006)
  | .veVshl _ vd a sh => some (fmtV 0x32 vd a 0 sh 0x007)
  | .veVconj _ vd a => some (fmtV 0x32 vd a 0 0 0x008)
  | .veVsplat _ v rs => some (fmtX rs v 0 0 0x01)
  | .veVget _ rd v l => some (fmtX rd v l 0 0x02)
  | .veVput _ rs v l => some (fmtX rs v l 0 0x03)
  | .veAgeti _ rd a sh => some (fmtX rd (accField a) 0 sh 0x10)
  | .veAgetq _ rd a sh => some (fmtX rd (accField a) 0 sh 0x11)
  | .veVdot _ a x y => some (fmtV 0x34 (accField a) x y 0 0x001)
  | .veVdotc _ a x y => some (fmtV 0x34 (accField a) x y 0 0x002)
  | .veAclr _ a => some (fmtV 0x34 (accField a) 0 0 0 0x003)
  | .veNop _ => some (fmtY 0 0x00)
  | .veFenceW _ => some (fmtY 0 0x01)
  | .veCinv _ a => some (fmtY a 0x02)
  | .veWfe _ => some (fmtY 0 0x03)
  | .veSleep _ => some (fmtY 0 0x04)
  | .veHalt _ => some (fmtY 0 0x05)
  | _ => none

/-! ## Decoding -/

/-- Format R: op 0x00. -/
def decodeR (e : Fin 16) (w : Word) : Option Instr :=
  let rd := rdOf w
  let a := rs1Of w
  let b := rs2Of w
  match (funcR w).toNat with
  | 0x000 => some (.veAdd e rd a b)
  | 0x001 => some (.veSub e rd a b)
  | 0x002 => some (.veAnd e rd a b)
  | 0x003 => some (.veOr e rd a b)
  | 0x004 => some (.veXor e rd a b)
  | 0x005 => some (.veSll e rd a b)
  | 0x006 => some (.veSrl e rd a b)
  | 0x007 => some (.veSra e rd a b)
  | 0x008 => some (.veSlt e rd a b)
  | 0x009 => some (.veSltu e rd a b)
  | 0x00A => some (.veMul e rd a b)
  | 0x00B => some (.veMulh e rd a b)
  | _ => none

/-- A shift by an immediate: bits 15:5 are 0. -/
def decodeShift (f : Reg5 → Reg5 → BitVec 5 → Instr) (w : Word) : Option Instr :=
  if (w.extractLsb' 5 11 : BitVec 11) = 0 then some (f (rdOf w) (rs1Of w) (w.extractLsb' 0 5)) else none

/-- A vector load or store: bit 21 is 0. -/
def decodeVec (f : VReg → Reg5 → BitVec 16 → Instr) (w : Word) : Option Instr :=
  if w.getLsbD 21 then none else some (f (vdOf w) (rs1Of w) (immOf w))

/-- Format V of op 0x32. -/
def decodeV (e : Fin 16) (w : Word) : Option Instr :=
  let vd := vdOf w
  let a := vs1Of w
  let b := vs2Of w
  let sh := shV w
  match (funcV w).toNat with
  | 0x001 => some (.veVadd e vd a b)
  | 0x002 => some (.veVsub e vd a b)
  | 0x003 => some (.veVmul e vd a b sh)
  | 0x004 => some (.veVmulc e vd a b sh)
  | 0x005 => some (.veVmag2 e vd a sh)
  | 0x006 => if b = 0 then some (.veVshr e vd a sh) else none
  | 0x007 => if b = 0 then some (.veVshl e vd a sh) else none
  | 0x008 => if b = 0 ∧ sh = 0 then some (.veVconj e vd a) else none
  | _ => none

/-- Format X. -/
def decodeX (e : Fin 16) (w : Word) : Option Instr :=
  match (funcX w).toNat with
  | 0x01 => some (.veVsplat e (vX w) (rdOf w))
  | 0x02 => some (.veVget e (rdOf w) (vX w) (laneX w))
  | 0x03 => some (.veVput e (rdOf w) (vX w) (laneX w))
  | 0x10 => (accOf (vX w)).map fun a => .veAgeti e (rdOf w) a (shX w)
  | 0x11 => (accOf (vX w)).map fun a => .veAgetq e (rdOf w) a (shX w)
  | _ => none

/-- Format V of op 0x34. -/
def decodeA (e : Fin 16) (w : Word) : Option Instr :=
  match (funcV w).toNat with
  | 0x001 => (accOf (vdOf w)).map fun a => .veVdot e a (vs1Of w) (vs2Of w)
  | 0x002 => (accOf (vdOf w)).map fun a => .veVdotc e a (vs1Of w) (vs2Of w)
  | 0x003 => if vs1Of w = 0 ∧ vs2Of w = 0 ∧ shV w = 0 then (accOf (vdOf w)).map fun a => .veAclr e a else none
  | _ => none

/-- Format Y: bits 25:21 and 15:6 are 0. -/
def decodeY (e : Fin 16) (w : Word) : Option Instr :=
  if rdOf w = 0 ∧ (w.extractLsb' 6 10 : BitVec 10) = 0 then
    match (funcY w).toNat with
    | 0x00 => some (.veNop e)
    | 0x01 => some (.veFenceW e)
    | 0x02 => some (.veCinv e (rs1Of w))
    | 0x03 => some (.veWfe e)
    | 0x04 => some (.veSleep e)
    | 0x05 => some (.veHalt e)
    | _ => none
  else none

/-- The instruction that a word stands for; none when it is illegal (R302). -/
def decodeVe (e : Fin 16) (w : Word) : Option Instr :=
  let rd := rdOf w
  let a := rs1Of w
  let i := immOf w
  match (opOf w).toNat with
  | 0x00 => decodeR e w
  | 0x01 => some (.veAddi e rd a i)
  | 0x02 => some (.veAndi e rd a i)
  | 0x03 => some (.veOri e rd a i)
  | 0x04 => some (.veXori e rd a i)
  | 0x05 => if a = 0 then some (.veLui e rd i) else none
  | 0x06 => decodeShift (.veSlli e) w
  | 0x07 => decodeShift (.veSrli e) w
  | 0x08 => decodeShift (.veSrai e) w
  | 0x10 => some (.veLw e rd a i)
  | 0x11 => some (.veLh e rd a i)
  | 0x12 => some (.veLhu e rd a i)
  | 0x13 => some (.veLb e rd a i)
  | 0x14 => some (.veLbu e rd a i)
  | 0x18 => some (.veSw e rd a i)
  | 0x19 => some (.veSh e rd a i)
  | 0x1A => some (.veSb e rd a i)
  | 0x20 => some (.veBeq e rd a i)
  | 0x21 => some (.veBne e rd a i)
  | 0x22 => some (.veBlt e rd a i)
  | 0x23 => some (.veBge e rd a i)
  | 0x24 => some (.veBltu e rd a i)
  | 0x25 => some (.veBgeu e rd a i)
  | 0x28 => some (.veJal e (imm26Of w))
  | 0x29 => some (.veJalr e rd a i)
  | 0x30 => decodeVec (.veVld e) w
  | 0x31 => decodeVec (.veVst e) w
  | 0x32 => decodeV e w
  | 0x33 => decodeX e w
  | 0x34 => decodeA e w
  | 0x3F => decodeY e w
  | _ => none

end Sys2Proof.Machine
end

