-- ==== Sys2Proof/Machine/VeExec.lean ====
section
/-! DEFINITION. What the engine instructions do (R297–R312, Table 12.4). -/

namespace Sys2Proof.Machine

/-! ## The address space of an engine (Table 12.2) -/

/-- What an engine finds at a word address. -/
inductive View where
  | imem (a : Nat)
  | dmem (a : Nat)
  | ctrl (o : Nat)
  | shared (a : Nat)
  | capture (a : Nat)
  | register (a : Nat)
  | none
deriving DecidableEq, Repr

/-- The view of engine `e`; the self window reaches its own local window. -/
def viewAt (e a : Nat) : View :=
  if 0xF0000000 ≤ a ∧ a < 0xF0100000 then
    let o := a - 0xF0000000
    if o < 0x10000 then .imem (engBase e + o)
    else if o < 0x40000 then .dmem (engBase e + o)
    else if 0x80000 ≤ o ∧ o < 0x81000 then .ctrl (o - 0x80000)
    else .none
  else match placeAt a with
    | .reg _ => .register a
    | .reserved => .register a
    | .chipMem => .shared a
    | .quadMem _ => .shared a
    | .capture _ => .capture a
    | .imem _ => .none
    | .dmem _ => .none
    | .ctrl _ _ => .none
    | .unmapped => .none

/-- The word that holds an address. -/
def wordOf (a : Nat) : Nat := a / 4 * 4

/-- The word addresses of an access of `n` bytes. -/
def wordsIn (a n : Nat) : List Nat := (List.range ((n + 3) / 4)).map fun i => wordOf a + 4 * i

/-! ## Running an instruction -/

/-- The next instruction. -/
def pcNext (x : Ve) : Ve := { x with pc := (x.pc + 4) % 2 ^ 32 }

/-- Change the registers of an engine and go on to the next instruction. -/
def Dev.engDo (d : Dev) (e : Nat) (f : Ve → Ve) : Dev := d.setEng e (pcNext (f (d.eng e)))

/-- A running engine executes: its instruction memory answers the fetch, or the fetch faults (R305). -/
def engRun (e : Fin 16) (f : Dev → Dev) (d : Dev) : Dev :=
  let x := d.eng e.val
  if x.st = .running ∧ x.pc < 0x10000 then
    if d.badAt (engBase e.val + x.pc) 1 then d.engFault e.val 5 (pcAddr x.pc) else f d
  else d

/-- The effective address of a memory access (R303). -/
def effAddr (x : Ve) (rs1 : Reg5) (imm : BitVec 16) : Nat := (x.sreg rs1.toNat + imm.signExtend 32).toNat

/-! ## Loads (R304, R305, R310) -/

/-- The bytes of a 64-byte block, a word at a time, from registers or capture buffers. -/
def Dev.readEach (d : Dev) (e : Fin 16) : List Nat → Dev × List Byte
  | [] => (d, [])
  | a :: l =>
    let r := d.readWord (.engine e) a
    let rest := r.1.readEach e l
    (rest.1, wordBytes r.2 ++ rest.2)

/-- A load of `n` bytes from `a`, which is aligned: the bytes, or the fault cause. -/
def Dev.loadBytes (d : Dev) (e : Fin 16) (a n : Nat) : Dev × Except Nat (List Byte) :=
  let ws := wordsIn a n
  let cut (l : List Byte) : List Byte := (l.drop (a - wordOf a)).take n
  match viewAt e.val (wordOf a) with
  | .imem g => if d.badAt g ws.length then (d, .error 5) else (d, .ok (cut (Memory.readBytes d.mem g (4 * ws.length))))
  | .dmem g => if d.badAt g ws.length then (d, .error 5) else (d, .ok (cut (Memory.readBytes d.mem g (4 * ws.length))))
  | .ctrl o => (d, .ok (cut ((List.range ws.length).flatMap fun i => wordBytes (d.engCtrl e.val (o + 4 * i)))))
  | .shared g =>
    (match d.cacheLoad e.val (lineBase g) with
     | (d, some line) => (d, .ok ((line.drop (a % 64)).take n))
     | (d, none) => (d, .error 6))
  | .capture g =>
    if d.badAt g ws.length then (d, .error 6)
    else
      let r := d.readEach e ws
      (r.1, .ok (cut r.2))
  | .register _ =>
    if ws.all fun w => viewAt e.val w == .register w then
      let r := d.readEach e ws
      (r.1, .ok (cut r.2))
    else (d, .error 3)
  | .none => (d, .error 3)

/-- A fault of an access; an uncorrectable error in shared memory is reported by the memory (R36, R305). -/
def Dev.accessFault (d : Dev) (e : Nat) (cause a : Nat) : Dev :=
  (if cause = 6 then d.memReport a else d).engFault e cause a

/-- A load instruction of `n` bytes. -/
def Dev.engLoad (d : Dev) (e : Fin 16) (a n : Nat) (f : List Byte → Ve → Ve) : Dev :=
  if a % n ≠ 0 then d.engFault e.val 2 a
  else match d.loadBytes e a n with
    | (d, .ok bs) => d.engDo e.val (f bs)
    | (d, .error c) => d.accessFault e.val c a

/-- A scalar load: the bytes extended to a word. -/
def loadTo (rd : Reg5) (ext : Nat → Word) (bs : List Byte) (x : Ve) : Ve := x.setS rd.toNat (ext (bytesNat bs))

def zext (n : Nat) : Word := mkw n
def sext8 (n : Nat) : Word := (BitVec.ofNat 8 n).signExtend 32
def sext16 (n : Nat) : Word := (BitVec.ofNat 16 n).signExtend 32

/-! ## Stores (R304, R311, R312) -/

/-- A store to registers: whole words; bytes not written take what a read would return (R304). -/
def Dev.storeEach (d : Dev) (e : Fin 16) (a : Nat) (bs : List Byte) : List Nat → Dev
  | [] => d
  | w :: l =>
    let old := wordBytes (d.peek (.engine e) w)
    let new := old.zipIdx.map fun b => if a ≤ w + b.2 ∧ w + b.2 < a + bs.length then (bs[w + b.2 - a]?).getD 0 else b.1
    (d.portWrite (.engine e) w (mkw (bytesNat new))).storeEach e a bs l

/-- Store bytes in local memory; words written whole hold no error any more. -/
def Dev.storeLocal (d : Dev) (g : Nat) (bs : List Byte) : Dev :=
  let d := d.storeBytes g bs
  { d with bad := d.bad.filter fun a => !(decide (g ≤ a) && decide (a + 4 ≤ g + bs.length)) }

/-- A store of bytes at an aligned address: the store, or the fault cause. -/
def Dev.storeTo (d : Dev) (e : Fin 16) (a : Nat) (bs : List Byte) : Except Nat Dev :=
  match viewAt e.val (wordOf a) with
  | .imem _ => .error 4
  | .dmem g => .ok (d.storeLocal (g + (a - wordOf a)) bs)
  | .ctrl _ => .ok d
  | .shared g => .ok (d.sharedStore e.val (g + (a - wordOf a)) bs)
  | .capture _ => .error 3
  | .register _ =>
    let ws := wordsIn a bs.length
    if ws.all fun w => viewAt e.val w == .register w then .ok (d.storeEach e a bs ws) else .error 3
  | .none => .error 3

/-- A store instruction. The registers do not change; the next instruction follows unless the store itself stopped the
engine. -/
def Dev.engStore (d : Dev) (e : Fin 16) (a n : Nat) (bs : List Byte) : Dev :=
  if a % n ≠ 0 then d.engFault e.val 2 a
  else match d.storeTo e a bs with
    | .ok d => d.engDo e.val id
    | .error c => d.accessFault e.val c a

/-! ## Flow -/

/-- The target of a branch or JAL (Table 12.4). -/
def flowTarget (pc : Nat) (imm : BitVec 32) : Nat := (BitVec.ofNat 32 pc + 4 + 4 * imm).toNat

/-- A branch. -/
def Dev.engBranch (d : Dev) (e : Nat) (taken : Bool) (imm : BitVec 16) : Dev :=
  if taken then
    let x := d.eng e
    d.setEng e { x with pc := flowTarget x.pc (imm.signExtend 32) }
  else d.engDo e id

/-! ## Lane arithmetic (R297, Table 12.4) -/

/-- sat32 and sat48. -/
def sat32 (v : Int) : Int := satTo 32 v
def sat48 (v : Int) : Int := satTo 48 v

/-- A lane as a complex value, and back with sat16. -/
def cxOf (w : Word) : Int × Int := (cxI w, cxQ w)
def cxSat (v : Int × Int) : Word := mkCx (sat16 v.1) (sat16 v.2)

/-- Rounding division by 2^sh of both parts. -/
def cxShr (sh : Nat) (v : Int × Int) : Int × Int := (rndDiv v.1 (2 ^ sh), rndDiv v.2 (2 ^ sh))

/-- The conjugate. -/
def cconj (v : Int × Int) : Int × Int := (v.1, -v.2)

/-- Apply a lane function of one or two vectors. -/
def map1 (f : Int × Int → Int × Int) (vd vs1 : VReg) (x : Ve) : Ve :=
  x.setLanes vd.toNat ((x.lanes vs1.toNat).map fun a => cxSat (f (cxOf a)))
def map2 (f : Int × Int → Int × Int → Int × Int) (vd vs1 vs2 : VReg) (x : Ve) : Ve :=
  x.setLanes vd.toNat (((x.lanes vs1.toNat).zip (x.lanes vs2.toNat)).map fun a => cxSat (f (cxOf a.1) (cxOf a.2)))

/-- Accumulate a sum of products. -/
def accumulate (f : Int × Int → Int × Int → Int × Int) (a : Fin 2) (vs1 vs2 : VReg) (x : Ve) : Ve :=
  let s := ((x.lanes vs1.toNat).zip (x.lanes vs2.toNat)).foldl (fun s l => cadd s (f (cxOf l.1) (cxOf l.2))) (0, 0)
  (x.setAcc a.val 0 (sat48 (x.acc a.val 0 + s.1))).setAcc a.val 1 (sat48 (x.acc a.val 1 + s.2))

/-! ## Waiting (R308, R309) -/

/-- WFE: clears EVL and completes, or waits. -/
def Dev.engWfe (d : Dev) (e : Nat) : Dev :=
  if d.engWakes e then d.engDo e fun x => { x with evl := false }
  else d.setEng e { d.eng e with st := .waiting, wait := .wfe }

/-- SLEEP: drains, then acts as WFE, or waits for the sleep of the engine's domain. -/
def Dev.engSleep (d : Dev) (e : Nat) : Dev :=
  let d := d.drainAll e
  if d.engWakes e then d.engDo e fun x => { x with evl := false }
  else (d.setEng e { d.eng e with st := .waiting, wait := .sleep }).sleepReq d.projectAll (136 + e) none

/-- An illegal word: cause 1 (R302, R305). -/
def Dev.illegalRow (d : Dev) (e : Fin 16) (w : Word) : Dev :=
  if (decodeVe e w).isNone then engRun e (fun d => d.engFault e.val 1 0) d else d

/-- A fetch beyond instruction memory: cause 7. -/
def Dev.fetchFaultRow (d : Dev) (e : Nat) : Dev :=
  let x := d.eng e
  if x.st = .running ∧ 0x10000 ≤ x.pc then d.engFault e 7 (pcAddr x.pc) else d

/-- The row that a running engine's next instruction is: the instruction at PC, an illegal one, or a fetch fault. -/
def Dev.engNext (d : Dev) (e : Fin 16) : Option Instr :=
  let x := d.eng e.val
  if x.st = .running then
    if 0x10000 ≤ x.pc then some (.fetchFault e)
    else
      let w := Memory.readWord d.mem (engBase e.val + x.pc)
      some ((decodeVe e w).getD (.illegalInstruction e w))
  else none

end Sys2Proof.Machine
end

