-- ==== Sys2Proof/Machine/VeFamily.lean ====
section
/-! DEFINITION. The meanings of the engine instructions and of the engine's own events (Table 12.4, R302–R311). -/

namespace Sys2Proof.Machine

/-- ADD: rd = rs1 + rs2, wrapping. -/
def execVeAdd (e : Fin 16) (rd rs1 rs2 : Reg5) (s : State) : Out :=
  act (engRun e fun d => d.engDo e fun x =>
    x.setS rd.toNat (x.sreg rs1.toNat + x.sreg rs2.toNat)) s

/-- SUB: rd = rs1 − rs2, wrapping. -/
def execVeSub (e : Fin 16) (rd rs1 rs2 : Reg5) (s : State) : Out :=
  act (engRun e fun d => d.engDo e fun x =>
    x.setS rd.toNat (x.sreg rs1.toNat - x.sreg rs2.toNat)) s

/-- AND. -/
def execVeAnd (e : Fin 16) (rd rs1 rs2 : Reg5) (s : State) : Out :=
  act (engRun e fun d => d.engDo e fun x =>
    x.setS rd.toNat (x.sreg rs1.toNat &&& x.sreg rs2.toNat)) s

/-- OR. -/
def execVeOr (e : Fin 16) (rd rs1 rs2 : Reg5) (s : State) : Out :=
  act (engRun e fun d => d.engDo e fun x =>
    x.setS rd.toNat (x.sreg rs1.toNat ||| x.sreg rs2.toNat)) s

/-- XOR. -/
def execVeXor (e : Fin 16) (rd rs1 rs2 : Reg5) (s : State) : Out :=
  act (engRun e fun d => d.engDo e fun x =>
    x.setS rd.toNat (x.sreg rs1.toNat ^^^ x.sreg rs2.toNat)) s

/-- SLL: by rs2 bits 4:0. -/
def execVeSll (e : Fin 16) (rd rs1 rs2 : Reg5) (s : State) : Out :=
  act (engRun e fun d => d.engDo e fun x =>
    x.setS rd.toNat (x.sreg rs1.toNat <<< ((x.sreg rs2.toNat).toNat % 32))) s

/-- SRL: by rs2 bits 4:0. -/
def execVeSrl (e : Fin 16) (rd rs1 rs2 : Reg5) (s : State) : Out :=
  act (engRun e fun d => d.engDo e fun x =>
    x.setS rd.toNat (x.sreg rs1.toNat >>> ((x.sreg rs2.toNat).toNat % 32))) s

/-- SRA: by rs2 bits 4:0. -/
def execVeSra (e : Fin 16) (rd rs1 rs2 : Reg5) (s : State) : Out :=
  act (engRun e fun d => d.engDo e fun x =>
    x.setS rd.toNat (BitVec.sshiftRight (x.sreg rs1.toNat) ((x.sreg rs2.toNat).toNat % 32))) s

/-- SLT: signed. -/
def execVeSlt (e : Fin 16) (rd rs1 rs2 : Reg5) (s : State) : Out :=
  act (engRun e fun d => d.engDo e fun x =>
    x.setS rd.toNat (if (x.sreg rs1.toNat).slt (x.sreg rs2.toNat) then 1 else 0)) s

/-- SLTU: unsigned. -/
def execVeSltu (e : Fin 16) (rd rs1 rs2 : Reg5) (s : State) : Out :=
  act (engRun e fun d => d.engDo e fun x =>
    x.setS rd.toNat (if (x.sreg rs1.toNat).ult (x.sreg rs2.toNat) then 1 else 0)) s

/-- MUL: the low 32 bits of the product. -/
def execVeMul (e : Fin 16) (rd rs1 rs2 : Reg5) (s : State) : Out :=
  act (engRun e fun d => d.engDo e fun x =>
    x.setS rd.toNat (x.sreg rs1.toNat * x.sreg rs2.toNat)) s

/-- MULH: the high 32 bits of the signed product. -/
def execVeMulh (e : Fin 16) (rd rs1 rs2 : Reg5) (s : State) : Out :=
  act (engRun e fun d => d.engDo e fun x =>
    x.setS rd.toNat (BitVec.ofInt 32 ((x.sreg rs1.toNat).toInt * (x.sreg rs2.toNat).toInt / 2 ^ 32))) s

/-- ADDI. -/
def execVeAddi (e : Fin 16) (rd rs1 : Reg5) (imm : BitVec 16) (s : State) : Out :=
  act (engRun e fun d => d.engDo e fun x =>
    x.setS rd.toNat (x.sreg rs1.toNat + imm.signExtend 32)) s

/-- ANDI, imm zero-extended. -/
def execVeAndi (e : Fin 16) (rd rs1 : Reg5) (imm : BitVec 16) (s : State) : Out :=
  act (engRun e fun d => d.engDo e fun x =>
    x.setS rd.toNat (x.sreg rs1.toNat &&& imm.zeroExtend 32)) s

/-- ORI, imm zero-extended. -/
def execVeOri (e : Fin 16) (rd rs1 : Reg5) (imm : BitVec 16) (s : State) : Out :=
  act (engRun e fun d => d.engDo e fun x =>
    x.setS rd.toNat (x.sreg rs1.toNat ||| imm.zeroExtend 32)) s

/-- XORI, imm zero-extended. -/
def execVeXori (e : Fin 16) (rd rs1 : Reg5) (imm : BitVec 16) (s : State) : Out :=
  act (engRun e fun d => d.engDo e fun x =>
    x.setS rd.toNat (x.sreg rs1.toNat ^^^ imm.zeroExtend 32)) s

/-- LUI: rd = imm << 16. -/
def execVeLui (e : Fin 16) (rd : Reg5) (imm : BitVec 16) (s : State) : Out :=
  act (engRun e fun d => d.engDo e fun x =>
    x.setS rd.toNat (imm.zeroExtend 32 <<< 16)) s

/-- SLLI. -/
def execVeSlli (e : Fin 16) (rd rs1 : Reg5) (sh : BitVec 5) (s : State) : Out :=
  act (engRun e fun d => d.engDo e fun x =>
    x.setS rd.toNat (x.sreg rs1.toNat <<< sh.toNat)) s

/-- SRLI. -/
def execVeSrli (e : Fin 16) (rd rs1 : Reg5) (sh : BitVec 5) (s : State) : Out :=
  act (engRun e fun d => d.engDo e fun x =>
    x.setS rd.toNat (x.sreg rs1.toNat >>> sh.toNat)) s

/-- SRAI. -/
def execVeSrai (e : Fin 16) (rd rs1 : Reg5) (sh : BitVec 5) (s : State) : Out :=
  act (engRun e fun d => d.engDo e fun x =>
    x.setS rd.toNat (BitVec.sshiftRight (x.sreg rs1.toNat) sh.toNat)) s

/-- LW. -/
def execVeLw (e : Fin 16) (rd rs1 : Reg5) (imm : BitVec 16) (s : State) : Out :=
  act (engRun e fun d =>
    d.engLoad e (effAddr (d.eng e) rs1 imm) 4 (loadTo rd zext)) s

/-- LH. -/
def execVeLh (e : Fin 16) (rd rs1 : Reg5) (imm : BitVec 16) (s : State) : Out :=
  act (engRun e fun d =>
    d.engLoad e (effAddr (d.eng e) rs1 imm) 2 (loadTo rd sext16)) s

/-- LHU. -/
def execVeLhu (e : Fin 16) (rd rs1 : Reg5) (imm : BitVec 16) (s : State) : Out :=
  act (engRun e fun d =>
    d.engLoad e (effAddr (d.eng e) rs1 imm) 2 (loadTo rd zext)) s

/-- LB. -/
def execVeLb (e : Fin 16) (rd rs1 : Reg5) (imm : BitVec 16) (s : State) : Out :=
  act (engRun e fun d =>
    d.engLoad e (effAddr (d.eng e) rs1 imm) 1 (loadTo rd sext8)) s

/-- LBU. -/
def execVeLbu (e : Fin 16) (rd rs1 : Reg5) (imm : BitVec 16) (s : State) : Out :=
  act (engRun e fun d =>
    d.engLoad e (effAddr (d.eng e) rs1 imm) 1 (loadTo rd zext)) s

/-- SW. -/
def execVeSw (e : Fin 16) (rs2 rs1 : Reg5) (imm : BitVec 16) (s : State) : Out :=
  act (engRun e fun d =>
    d.engStore e (effAddr (d.eng e) rs1 imm) 4 ((wordBytes ((d.eng e).sreg rs2.toNat)).take 4)) s

/-- SH: the low 16 bits of rs2. -/
def execVeSh (e : Fin 16) (rs2 rs1 : Reg5) (imm : BitVec 16) (s : State) : Out :=
  act (engRun e fun d =>
    d.engStore e (effAddr (d.eng e) rs1 imm) 2 ((wordBytes ((d.eng e).sreg rs2.toNat)).take 2)) s

/-- SB: the low 8 bits of rs2. -/
def execVeSb (e : Fin 16) (rs2 rs1 : Reg5) (imm : BitVec 16) (s : State) : Out :=
  act (engRun e fun d =>
    d.engStore e (effAddr (d.eng e) rs1 imm) 1 ((wordBytes ((d.eng e).sreg rs2.toNat)).take 1)) s

/-- BEQ. -/
def execVeBeq (e : Fin 16) (rs2 rs1 : Reg5) (imm : BitVec 16) (s : State) : Out :=
  act (engRun e fun d =>
    let x := d.eng e
    d.engBranch e (x.sreg rs2.toNat == x.sreg rs1.toNat) imm) s

/-- BNE. -/
def execVeBne (e : Fin 16) (rs2 rs1 : Reg5) (imm : BitVec 16) (s : State) : Out :=
  act (engRun e fun d =>
    let x := d.eng e
    d.engBranch e (x.sreg rs2.toNat != x.sreg rs1.toNat) imm) s

/-- BLT: rs2 < rs1, signed (DEDUCED, log entry 26). -/
def execVeBlt (e : Fin 16) (rs2 rs1 : Reg5) (imm : BitVec 16) (s : State) : Out :=
  act (engRun e fun d =>
    let x := d.eng e
    d.engBranch e ((x.sreg rs2.toNat).slt (x.sreg rs1.toNat)) imm) s

/-- BGE: rs2 ≥ rs1, signed. -/
def execVeBge (e : Fin 16) (rs2 rs1 : Reg5) (imm : BitVec 16) (s : State) : Out :=
  act (engRun e fun d =>
    let x := d.eng e
    d.engBranch e (!(x.sreg rs2.toNat).slt (x.sreg rs1.toNat)) imm) s

/-- BLTU: rs2 < rs1, unsigned. -/
def execVeBltu (e : Fin 16) (rs2 rs1 : Reg5) (imm : BitVec 16) (s : State) : Out :=
  act (engRun e fun d =>
    let x := d.eng e
    d.engBranch e ((x.sreg rs2.toNat).ult (x.sreg rs1.toNat)) imm) s

/-- BGEU: rs2 ≥ rs1, unsigned. -/
def execVeBgeu (e : Fin 16) (rs2 rs1 : Reg5) (imm : BitVec 16) (s : State) : Out :=
  act (engRun e fun d =>
    let x := d.eng e
    d.engBranch e (!(x.sreg rs2.toNat).ult (x.sreg rs1.toNat)) imm) s

/-- JAL: s31 = PC + 4, then the jump. -/
def execVeJal (e : Fin 16) (imm : BitVec 26) (s : State) : Out :=
  act (engRun e fun d =>
    let x := d.eng e
    d.setEng e { x.setS 31 (mkw (x.pc + 4)) with pc := flowTarget x.pc (imm.signExtend 32) }) s

/-- JALR: rd = PC + 4; PC = rs1 + imm, which is a multiple of 4 (Table 12.5). -/
def execVeJalr (e : Fin 16) (rd rs1 : Reg5) (imm : BitVec 16) (s : State) : Out :=
  act (engRun e fun d =>
    let x := d.eng e
    let t := effAddr x rs1 imm
    if t % 4 ≠ 0 then d.engFault e 2 t
    else d.setEng e { x.setS rd.toNat (mkw (x.pc + 4)) with pc := t }) s

/-- VLD: lane l at address + 4l. -/
def execVeVld (e : Fin 16) (vd : VReg) (rs1 : Reg5) (imm : BitVec 16) (s : State) : Out :=
  act (engRun e fun d =>
    d.engLoad e (effAddr (d.eng e) rs1 imm) 64 fun bs x => x.setLanes vd.toNat (bytesWords bs)) s

/-- VST: lane l at address + 4l. -/
def execVeVst (e : Fin 16) (vs : VReg) (rs1 : Reg5) (imm : BitVec 16) (s : State) : Out :=
  act (engRun e fun d =>
    d.engStore e (effAddr (d.eng e) rs1 imm) 64 (wordsBytes ((d.eng e).lanes vs.toNat))) s

/-- VADD: I and Q with sat16. -/
def execVeVadd (e : Fin 16) (vd vs1 vs2 : VReg) (s : State) : Out :=
  act (engRun e fun d => d.engDo e (map2 cadd vd vs1 vs2)) s

/-- VSUB: I and Q with sat16. -/
def execVeVsub (e : Fin 16) (vd vs1 vs2 : VReg) (s : State) : Out :=
  act (engRun e fun d => d.engDo e
    (map2 (fun a b => (a.1 - b.1, a.2 - b.2)) vd vs1 vs2)) s

/-- VMUL: sat16(rnd(vs1 × vs2 / 2^sh)). -/
def execVeVmul (e : Fin 16) (vd vs1 vs2 : VReg) (sh : BitVec 5) (s : State) : Out :=
  act (engRun e fun d => d.engDo e
    (map2 (fun a b => cxShr sh.toNat (cmul a b)) vd vs1 vs2)) s

/-- VMULC: sat16(rnd(vs1 × conj(vs2) / 2^sh)). -/
def execVeVmulc (e : Fin 16) (vd vs1 vs2 : VReg) (sh : BitVec 5) (s : State) : Out :=
  act (engRun e fun d => d.engDo e
    (map2 (fun a b => cxShr sh.toNat (cmul a (cconj b))) vd vs1 vs2)) s

/-- VMAG2: I = sat16(rnd((I² + Q²) / 2^sh)), Q = 0. -/
def execVeVmag2 (e : Fin 16) (vd vs1 : VReg) (sh : BitVec 5) (s : State) : Out :=
  act (engRun e fun d => d.engDo e
    (map1 (fun a => (rndDiv (a.1 * a.1 + a.2 * a.2) (2 ^ sh.toNat), 0)) vd vs1)) s

/-- VSHR: sat16(rnd(vs1 / 2^sh)). -/
def execVeVshr (e : Fin 16) (vd vs1 : VReg) (sh : BitVec 5) (s : State) : Out :=
  act (engRun e fun d => d.engDo e (map1 (cxShr sh.toNat) vd vs1)) s

/-- VSHL: sat16(vs1 × 2^sh). -/
def execVeVshl (e : Fin 16) (vd vs1 : VReg) (sh : BitVec 5) (s : State) : Out :=
  act (engRun e fun d => d.engDo e
    (map1 (fun a => (a.1 * 2 ^ sh.toNat, a.2 * 2 ^ sh.toNat)) vd vs1)) s

/-- VCONJ: conj(vs1) with sat16. -/
def execVeVconj (e : Fin 16) (vd vs1 : VReg) (s : State) : Out :=
  act (engRun e fun d => d.engDo e (map1 cconj vd vs1)) s

/-- VSPLAT: every lane of v = rs. -/
def execVeVsplat (e : Fin 16) (v : VReg) (rs : Reg5) (s : State) : Out :=
  act (engRun e fun d => d.engDo e fun x =>
    x.setLanes v.toNat (List.replicate 16 (x.sreg rs.toNat))) s

/-- VGET: rd = lane of v. -/
def execVeVget (e : Fin 16) (rd : Reg5) (v : VReg) (lane : BitVec 4) (s : State) : Out :=
  act (engRun e fun d => d.engDo e fun x =>
    x.setS rd.toNat (x.lane v.toNat lane.toNat)) s

/-- VPUT: lane of v = rs. -/
def execVeVput (e : Fin 16) (rs : Reg5) (v : VReg) (lane : BitVec 4) (s : State) : Out :=
  act (engRun e fun d => d.engDo e fun x =>
    x.setLane v.toNat lane.toNat (x.sreg rs.toNat)) s

/-- AGETI: rd = sat32(rnd(I of a / 2^sh)). -/
def execVeAgeti (e : Fin 16) (rd : Reg5) (a : Fin 2) (sh : BitVec 5) (s : State) : Out :=
  act (engRun e fun d => d.engDo e fun x =>
    x.setS rd.toNat (mkw (unsx 32 (sat32 (rndDiv (x.acc a 0) (2 ^ sh.toNat)))))) s

/-- AGETQ: rd = sat32(rnd(Q of a / 2^sh)). -/
def execVeAgetq (e : Fin 16) (rd : Reg5) (a : Fin 2) (sh : BitVec 5) (s : State) : Out :=
  act (engRun e fun d => d.engDo e fun x =>
    x.setS rd.toNat (mkw (unsx 32 (sat32 (rndDiv (x.acc a 1) (2 ^ sh.toNat)))))) s

/-- VDOT: ad = sat48(ad + Σ vs1[l] × vs2[l]). -/
def execVeVdot (e : Fin 16) (a : Fin 2) (vs1 vs2 : VReg) (s : State) : Out :=
  act (engRun e fun d => d.engDo e (accumulate cmul a vs1 vs2)) s

/-- VDOTC: ad = sat48(ad + Σ vs1[l] × conj(vs2[l])). -/
def execVeVdotc (e : Fin 16) (a : Fin 2) (vs1 vs2 : VReg) (s : State) : Out :=
  act (engRun e fun d => d.engDo e
    (accumulate (fun x y => cmul x (cconj y)) a vs1 vs2)) s

/-- ACLR: ad = 0. -/
def execVeAclr (e : Fin 16) (a : Fin 2) (s : State) : Out :=
  act (engRun e fun d => d.engDo e fun x => (x.setAcc a 0 0).setAcc a 1 0) s

/-- NOP. -/
def execVeNop (e : Fin 16) (s : State) : Out :=
  act (engRun e fun d => d.engDo e id) s

/-- FENCE.W: every entry of the write buffer is written first (R306). -/
def execVeFenceW (e : Fin 16) (s : State) : Out :=
  act (engRun e fun d => (d.drainAll e).engDo e id) s

/-- CINV: the whole cache for s0, else the line of the address in rs1 (R307). -/
def execVeCinv (e : Fin 16) (rs1 : Reg5) (s : State) : Out :=
  act (engRun e fun d =>
    (d.cinv e (rs1 == 0) ((d.eng e).sreg rs1.toNat).toNat).engDo e id) s

/-- WFE (R308). -/
def execVeWfe (e : Fin 16) (s : State) : Out :=
  act (engRun e fun d => d.engWfe e) s

/-- SLEEP (R309). -/
def execVeSleep (e : Fin 16) (s : State) : Out :=
  act (engRun e fun d => d.engSleep e) s

/-- HALT: drains the write buffer, then HALTED with PC at the next instruction. -/
def execVeHalt (e : Fin 16) (s : State) : Out :=
  act (engRun e fun d =>
    (d.drainAll e).engDo e fun x => { x with st := .halted }) s

/-- The oldest entry of the write buffer is written into shared memory (R311). -/
def execWriteBufferDrain (e : Fin 16) (s : State) : Out := act (fun d => d.drainOne e) s

/-- A WAITING or SLEEPING engine follows its wake condition (R308, R309). -/
def execEngineWake (e : Fin 16) (s : State) : Out := act (fun d => d.engineWakeRow e) s

/-- An illegal word faults with cause 0x1 (R302, R305). -/
def execIllegalInstruction (e : Fin 16) (w : Word) (s : State) : Out := act (fun d => d.illegalRow e w) s

/-- A fetch at or beyond 0xF001_0000 faults with cause 0x7 (R305). -/
def execFetchFault (e : Fin 16) (s : State) : Out := act (fun d => d.fetchFaultRow e) s

end Sys2Proof.Machine
end

