-- ==== Sys2Proof/Machine/Dispatch.lean ====
section
/-! DEFINITION. The dispatch of a command to its meaning, one arm a constructor. -/

namespace Sys2Proof.Machine

/-- The effect of a command on everything but the queue. -/
def exec (i : Instr) (s : State) : Host.Outcome State Fault Refusal :=
  match i with
  | .nop h ps => Sys2Proof.Machine.execNop h ps s
  | .idGet h ps => Sys2Proof.Machine.execIdGet h ps s
  | .capWalk h ps => Sys2Proof.Machine.execCapWalk h ps s
  | .tagAbort h ps => Sys2Proof.Machine.execTagAbort h ps s
  | .regRead h ps => Sys2Proof.Machine.execRegRead h ps s
  | .regWrite h ps => Sys2Proof.Machine.execRegWrite h ps s
  | .regModify h ps => Sys2Proof.Machine.execRegModify h ps s
  | .stageRead h ps => Sys2Proof.Machine.execStageRead h ps s
  | .commit h ps => Sys2Proof.Machine.execCommit h ps s
  | .discard h ps => Sys2Proof.Machine.execDiscard h ps s
  | .application g => Sys2Proof.Machine.execApplication g s
  | .synSet h ps => Sys2Proof.Machine.execSynSet h ps s
  | .synGet h ps => Sys2Proof.Machine.execSynGet h ps s
  | .cellLo h ps => Sys2Proof.Machine.execCellLo h ps s
  | .winSet h ps => Sys2Proof.Machine.execWinSet h ps s
  | .winBurst h ps => Sys2Proof.Machine.execWinBurst h ps s
  | .burstEnd cell => Sys2Proof.Machine.execBurstEnd cell s
  | .rffeXfer h ps => Sys2Proof.Machine.execRffeXfer h ps s
  | .rffeTimed h ps => Sys2Proof.Machine.execRffeTimed h ps s
  | .divSet h ps => Sys2Proof.Machine.execDivSet h ps s
  | .divSeq h ps => Sys2Proof.Machine.execDivSeq h ps s
  | .mismatchMeas h ps => Sys2Proof.Machine.execMismatchMeas h ps s
  | .mismatchTimeout tag => Sys2Proof.Machine.execMismatchTimeout tag s
  | .adcSet h ps => Sys2Proof.Machine.execAdcSet h ps s
  | .dacSet h ps => Sys2Proof.Machine.execDacSet h ps s
  | .convGet h ps => Sys2Proof.Machine.execConvGet h ps s
  | .orxSet h ps => Sys2Proof.Machine.execOrxSet h ps s
  | .orxGet h ps => Sys2Proof.Machine.execOrxGet h ps s
  | .chainSet h ps => Sys2Proof.Machine.execChainSet h ps s
  | .carrSet h ps => Sys2Proof.Machine.execCarrSet h ps s
  | .carrGain h ps => Sys2Proof.Machine.execCarrGain h ps s
  | .chainSync h ps => Sys2Proof.Machine.execChainSync h ps s
  | .chainGet h ps => Sys2Proof.Machine.execChainGet h ps s
  | .ctxSet h ps => Sys2Proof.Machine.execCtxSet h ps s
  | .ctxGet h ps => Sys2Proof.Machine.execCtxGet h ps s
  | .beamSwap h ps => Sys2Proof.Machine.execBeamSwap h ps s
  | .wtWrite h ps => Sys2Proof.Machine.execWtWrite h ps s
  | .wtRead h ps => Sys2Proof.Machine.execWtRead h ps s
  | .swapBind x => Sys2Proof.Machine.execSwapBind x s
  | .swapStart x => Sys2Proof.Machine.execSwapStart x s
  | .fadeEnd x => Sys2Proof.Machine.execFadeEnd x s
  | .schedulePointChange x => Sys2Proof.Machine.execSchedulePointChange x s
  | .weightFetchDone x => Sys2Proof.Machine.execWeightFetchDone x s
  | .ppSet h ps => Sys2Proof.Machine.execPpSet h ps s
  | .cfrPulse h ps => Sys2Proof.Machine.execCfrPulse h ps s
  | .dpdSwap h ps => Sys2Proof.Machine.execDpdSwap h ps s
  | .dpdClear h ps => Sys2Proof.Machine.execDpdClear h ps s
  | .ppGet h ps => Sys2Proof.Machine.execPpGet h ps s
  | .orxCapture h ps => Sys2Proof.Machine.execOrxCapture h ps s
  | .capRelease h ps => Sys2Proof.Machine.execCapRelease h ps s
  | .dpdSwapRequest p bank => Sys2Proof.Machine.execDpdSwapRequest p bank s
  | .dpdSwapCancel p => Sys2Proof.Machine.execDpdSwapCancel p s
  | .dpdBind p => Sys2Proof.Machine.execDpdBind p s
  | .dpdBankSwap p => Sys2Proof.Machine.execDpdBankSwap p s
  | .guardJudgement p m => Sys2Proof.Machine.execGuardJudgement p m s
  | .guardFallback p => Sys2Proof.Machine.execGuardFallback p s
  | .cctlGo b sn => Sys2Proof.Machine.execCctlGo b sn s
  | .captureStart b sn => Sys2Proof.Machine.execCaptureStart b sn s
  | .captureLate b sn => Sys2Proof.Machine.execCaptureLate b sn s
  | .captureDone b sn => Sys2Proof.Machine.execCaptureDone b sn s
  | .capRel b mask => Sys2Proof.Machine.execCapRel b mask s
  | .calCfg h ps => Sys2Proof.Machine.execCalCfg h ps s
  | .calClass h ps => Sys2Proof.Machine.execCalClass h ps s
  | .calRun h ps => Sys2Proof.Machine.execCalRun h ps s
  | .calStop h ps => Sys2Proof.Machine.execCalStop h ps s
  | .calClear h ps => Sys2Proof.Machine.execCalClear h ps s
  | .calGet h ps => Sys2Proof.Machine.execCalGet h ps s
  | .calExport h ps => Sys2Proof.Machine.execCalExport h ps s
  | .calImport h ps => Sys2Proof.Machine.execCalImport h ps s
  | .stepPlacement q => Sys2Proof.Machine.execStepPlacement q s
  | .calOrxRequest u => Sys2Proof.Machine.execCalOrxRequest u s
  | .stepStart u => Sys2Proof.Machine.execStepStart u s
  | .stepEnd u r => Sys2Proof.Machine.execStepEnd u r s
  | .calStore q => Sys2Proof.Machine.execCalStore q s
  | .calTimeout q => Sys2Proof.Machine.execCalTimeout q s
  | .backgroundUpdateDue u kind => Sys2Proof.Machine.execBackgroundUpdateDue u kind s
  | .linkCfg h ps => Sys2Proof.Machine.execLinkCfg h ps s
  | .linkGet h ps => Sys2Proof.Machine.execLinkGet h ps s
  | .linkRetrain h ps => Sys2Proof.Machine.execLinkRetrain h ps s
  | .laneCfg h ps => Sys2Proof.Machine.execLaneCfg h ps s
  | .laneGet h ps => Sys2Proof.Machine.execLaneGet h ps s
  | .engLoad h ps => Sys2Proof.Machine.execEngLoad h ps s
  | .engStart h ps => Sys2Proof.Machine.execEngStart h ps s
  | .engHalt h ps => Sys2Proof.Machine.execEngHalt h ps s
  | .engKick h ps => Sys2Proof.Machine.execEngKick h ps s
  | .engGet h ps => Sys2Proof.Machine.execEngGet h ps s
  | .memFill h ps => Sys2Proof.Machine.execMemFill h ps s
  | .dmaSet h ps => Sys2Proof.Machine.execDmaSet h ps s
  | .dmaRun h ps => Sys2Proof.Machine.execDmaRun h ps s
  | .dmaResume h ps => Sys2Proof.Machine.execDmaResume h ps s
  | .dmaAbort h ps => Sys2Proof.Machine.execDmaAbort h ps s
  | .dmaGet h ps => Sys2Proof.Machine.execDmaGet h ps s
  | .pqAdd h ps => Sys2Proof.Machine.execPqAdd h ps s
  | .evtSrc h ps => Sys2Proof.Machine.execEvtSrc h ps s
  | .evtThresh h ps => Sys2Proof.Machine.execEvtThresh h ps s
  | .evtArray h ps => Sys2Proof.Machine.execEvtArray h ps s
  | .evtComplete h ps => Sys2Proof.Machine.execEvtComplete h ps s
  | .evtGet h ps => Sys2Proof.Machine.execEvtGet h ps s
  | .pwrSleep h ps => Sys2Proof.Machine.execPwrSleep h ps s
  | .pwrWake h ps => Sys2Proof.Machine.execPwrWake h ps s
  | .pmCfg h ps => Sys2Proof.Machine.execPmCfg h ps s
  | .plSet h ps => Sys2Proof.Machine.execPlSet h ps s
  | .plMin h ps => Sys2Proof.Machine.execPlMin h ps s
  | .auxLim h ps => Sys2Proof.Machine.execAuxLim h ps s
  | .pwrGet h ps => Sys2Proof.Machine.execPwrGet h ps s
  | .hkGet h ps => Sys2Proof.Machine.execHkGet h ps s
  | .latSet h ps => Sys2Proof.Machine.execLatSet h ps s
  | .latGet h ps => Sys2Proof.Machine.execLatGet h ps s
  | .latMembers h ps => Sys2Proof.Machine.execLatMembers h ps s
  | .latArm h ps => Sys2Proof.Machine.execLatArm h ps s
  | .commandPacket path bytes => Sys2Proof.Machine.execCommandPacket path bytes s
  | .registerWrite port addr val => Sys2Proof.Machine.execRegisterWrite port addr val s
  | .arm port => Sys2Proof.Machine.execArm port s
  | .tsLoRead port => Sys2Proof.Machine.execTsLoRead port s
  | .go b sn => Sys2Proof.Machine.execGo b sn s
  | .dmaStart ch => Sys2Proof.Machine.execDmaStart ch s
  | .dmaAbortBit ch => Sys2Proof.Machine.execDmaAbortBit ch s
  | .resume ch => Sys2Proof.Machine.execResume ch s
  | .pqAddWrite u k v => Sys2Proof.Machine.execPqAddWrite u k v s
  | .cuInit k => Sys2Proof.Machine.execCuInit k s
  | .cuFeed k v => Sys2Proof.Machine.execCuFeed k v s
  | .cuFeed8 k v => Sys2Proof.Machine.execCuFeed8 k v s
  | .cuValRestore k v => Sys2Proof.Machine.execCuValRestore k v s
  | .enSet sn => Sys2Proof.Machine.execEnSet sn s
  | .enClr sn => Sys2Proof.Machine.execEnClr sn s
  | .pendSet sn => Sys2Proof.Machine.execPendSet sn s
  | .pendClr sn => Sys2Proof.Machine.execPendClr sn s
  | .enArrayWrite w v => Sys2Proof.Machine.execEnArrayWrite w v s
  | .pendArrayWrite w v => Sys2Proof.Machine.execPendArrayWrite w v s
  | .actArrayWrite w v => Sys2Proof.Machine.execActArrayWrite w v s
  | .tgtClaim t => Sys2Proof.Machine.execTgtClaim t s
  | .tgtDone t sn => Sys2Proof.Machine.execTgtDone t sn s
  | .psReqSleep d => Sys2Proof.Machine.execPsReqSleep d s
  | .psReqWake d => Sys2Proof.Machine.execPsReqWake d s
  | .plMinWrite v => Sys2Proof.Machine.execPlMinWrite v s
  | .veAdd e rd rs1 rs2 => Sys2Proof.Machine.execVeAdd e rd rs1 rs2 s
  | .veSub e rd rs1 rs2 => Sys2Proof.Machine.execVeSub e rd rs1 rs2 s
  | .veAnd e rd rs1 rs2 => Sys2Proof.Machine.execVeAnd e rd rs1 rs2 s
  | .veOr e rd rs1 rs2 => Sys2Proof.Machine.execVeOr e rd rs1 rs2 s
  | .veXor e rd rs1 rs2 => Sys2Proof.Machine.execVeXor e rd rs1 rs2 s
  | .veSll e rd rs1 rs2 => Sys2Proof.Machine.execVeSll e rd rs1 rs2 s
  | .veSrl e rd rs1 rs2 => Sys2Proof.Machine.execVeSrl e rd rs1 rs2 s
  | .veSra e rd rs1 rs2 => Sys2Proof.Machine.execVeSra e rd rs1 rs2 s
  | .veSlt e rd rs1 rs2 => Sys2Proof.Machine.execVeSlt e rd rs1 rs2 s
  | .veSltu e rd rs1 rs2 => Sys2Proof.Machine.execVeSltu e rd rs1 rs2 s
  | .veMul e rd rs1 rs2 => Sys2Proof.Machine.execVeMul e rd rs1 rs2 s
  | .veMulh e rd rs1 rs2 => Sys2Proof.Machine.execVeMulh e rd rs1 rs2 s
  | .veAddi e rd rs1 imm => Sys2Proof.Machine.execVeAddi e rd rs1 imm s
  | .veAndi e rd rs1 imm => Sys2Proof.Machine.execVeAndi e rd rs1 imm s
  | .veOri e rd rs1 imm => Sys2Proof.Machine.execVeOri e rd rs1 imm s
  | .veXori e rd rs1 imm => Sys2Proof.Machine.execVeXori e rd rs1 imm s
  | .veLui e rd imm => Sys2Proof.Machine.execVeLui e rd imm s
  | .veSlli e rd rs1 sh => Sys2Proof.Machine.execVeSlli e rd rs1 sh s
  | .veSrli e rd rs1 sh => Sys2Proof.Machine.execVeSrli e rd rs1 sh s
  | .veSrai e rd rs1 sh => Sys2Proof.Machine.execVeSrai e rd rs1 sh s
  | .veLw e rd rs1 imm => Sys2Proof.Machine.execVeLw e rd rs1 imm s
  | .veLh e rd rs1 imm => Sys2Proof.Machine.execVeLh e rd rs1 imm s
  | .veLhu e rd rs1 imm => Sys2Proof.Machine.execVeLhu e rd rs1 imm s
  | .veLb e rd rs1 imm => Sys2Proof.Machine.execVeLb e rd rs1 imm s
  | .veLbu e rd rs1 imm => Sys2Proof.Machine.execVeLbu e rd rs1 imm s
  | .veSw e rs2 rs1 imm => Sys2Proof.Machine.execVeSw e rs2 rs1 imm s
  | .veSh e rs2 rs1 imm => Sys2Proof.Machine.execVeSh e rs2 rs1 imm s
  | .veSb e rs2 rs1 imm => Sys2Proof.Machine.execVeSb e rs2 rs1 imm s
  | .veBeq e rs2 rs1 imm => Sys2Proof.Machine.execVeBeq e rs2 rs1 imm s
  | .veBne e rs2 rs1 imm => Sys2Proof.Machine.execVeBne e rs2 rs1 imm s
  | .veBlt e rs2 rs1 imm => Sys2Proof.Machine.execVeBlt e rs2 rs1 imm s
  | .veBge e rs2 rs1 imm => Sys2Proof.Machine.execVeBge e rs2 rs1 imm s
  | .veBltu e rs2 rs1 imm => Sys2Proof.Machine.execVeBltu e rs2 rs1 imm s
  | .veBgeu e rs2 rs1 imm => Sys2Proof.Machine.execVeBgeu e rs2 rs1 imm s
  | .veJal e imm => Sys2Proof.Machine.execVeJal e imm s
  | .veJalr e rd rs1 imm => Sys2Proof.Machine.execVeJalr e rd rs1 imm s
  | .veVld e vd rs1 imm => Sys2Proof.Machine.execVeVld e vd rs1 imm s
  | .veVst e vs rs1 imm => Sys2Proof.Machine.execVeVst e vs rs1 imm s
  | .veVadd e vd vs1 vs2 => Sys2Proof.Machine.execVeVadd e vd vs1 vs2 s
  | .veVsub e vd vs1 vs2 => Sys2Proof.Machine.execVeVsub e vd vs1 vs2 s
  | .veVmul e vd vs1 vs2 sh => Sys2Proof.Machine.execVeVmul e vd vs1 vs2 sh s
  | .veVmulc e vd vs1 vs2 sh => Sys2Proof.Machine.execVeVmulc e vd vs1 vs2 sh s
  | .veVmag2 e vd vs1 sh => Sys2Proof.Machine.execVeVmag2 e vd vs1 sh s
  | .veVshr e vd vs1 sh => Sys2Proof.Machine.execVeVshr e vd vs1 sh s
  | .veVshl e vd vs1 sh => Sys2Proof.Machine.execVeVshl e vd vs1 sh s
  | .veVconj e vd vs1 => Sys2Proof.Machine.execVeVconj e vd vs1 s
  | .veVsplat e v rs => Sys2Proof.Machine.execVeVsplat e v rs s
  | .veVget e rd v lane => Sys2Proof.Machine.execVeVget e rd v lane s
  | .veVput e rs v lane => Sys2Proof.Machine.execVeVput e rs v lane s
  | .veAgeti e rd a sh => Sys2Proof.Machine.execVeAgeti e rd a sh s
  | .veAgetq e rd a sh => Sys2Proof.Machine.execVeAgetq e rd a sh s
  | .veVdot e a vs1 vs2 => Sys2Proof.Machine.execVeVdot e a vs1 vs2 s
  | .veVdotc e a vs1 vs2 => Sys2Proof.Machine.execVeVdotc e a vs1 vs2 s
  | .veAclr e a => Sys2Proof.Machine.execVeAclr e a s
  | .veNop e => Sys2Proof.Machine.execVeNop e s
  | .veFenceW e => Sys2Proof.Machine.execVeFenceW e s
  | .veCinv e rs1 => Sys2Proof.Machine.execVeCinv e rs1 s
  | .veWfe e => Sys2Proof.Machine.execVeWfe e s
  | .veSleep e => Sys2Proof.Machine.execVeSleep e s
  | .veHalt e => Sys2Proof.Machine.execVeHalt e s
  | .writeBufferDrain e => Sys2Proof.Machine.execWriteBufferDrain e s
  | .engineWake e => Sys2Proof.Machine.execEngineWake e s
  | .refDetected sel => Sys2Proof.Machine.execRefDetected sel s
  | .armingEdge => Sys2Proof.Machine.execArmingEdge s
  | .timebaseRun => Sys2Proof.Machine.execTimebaseRun s
  | .frameEdge => Sys2Proof.Machine.execFrameEdge s
  | .frameStart => Sys2Proof.Machine.execFrameStart s
  | .syncOutLow => Sys2Proof.Machine.execSyncOutLow s
  | .slackMeasurement f v => Sys2Proof.Machine.execSlackMeasurement f v s
  | .fabricVoltageStep => Sys2Proof.Machine.execFabricVoltageStep s
  | .synthOpGrant q => Sys2Proof.Machine.execSynthOpGrant q s
  | .bandcalEnd n => Sys2Proof.Machine.execBandcalEnd n s
  | .lock n => Sys2Proof.Machine.execLock n s
  | .relockFail n => Sys2Proof.Machine.execRelockFail n s
  | .lockLost n => Sys2Proof.Machine.execLockLost n s
  | .phaseMeasurementEnd n => Sys2Proof.Machine.execPhaseMeasurementEnd n s
  | .loReady n => Sys2Proof.Machine.execLoReady n s
  | .trackingMeasurement n => Sys2Proof.Machine.execTrackingMeasurement n s
  | .trackingStep n => Sys2Proof.Machine.execTrackingStep n s
  | .prep p => Sys2Proof.Machine.execPrep p s
  | .queued p => Sys2Proof.Machine.execQueued p s
  | .fePaRise => Sys2Proof.Machine.execFePaRise s
  | .dark p => Sys2Proof.Machine.execDark p s
  | .tail p => Sys2Proof.Machine.execTail p s
  | .gap p => Sys2Proof.Machine.execGap p s
  | .rxActiveStart p => Sys2Proof.Machine.execRxActiveStart p s
  | .adcRun p => Sys2Proof.Machine.execAdcRun p s
  | .rxWindowStart p => Sys2Proof.Machine.execRxWindowStart p s
  | .rxWindowEnd p => Sys2Proof.Machine.execRxWindowEnd p s
  | .dacPowerUp p => Sys2Proof.Machine.execDacPowerUp p s
  | .dacStarted p => Sys2Proof.Machine.execDacStarted p s
  | .dacPowerDown p => Sys2Proof.Machine.execDacPowerDown p s
  | .adcOvr p => Sys2Proof.Machine.execAdcOvr p s
  | .ovrRecoveryEnd p => Sys2Proof.Machine.execOvrRecoveryEnd p s
  | .nbrRecoveryEnd p => Sys2Proof.Machine.execNbrRecoveryEnd p s
  | .orxStarted b => Sys2Proof.Machine.execOrxStarted b s
  | .blockRequestRaised b => Sys2Proof.Machine.execBlockRequestRaised b s
  | .orxJobGrant b => Sys2Proof.Machine.execOrxJobGrant b s
  | .orxJobEnd b r => Sys2Proof.Machine.execOrxJobEnd b r s
  | .rffeJobGrant b => Sys2Proof.Machine.execRffeJobGrant b s
  | .rffeJobEnd b parityOk data => Sys2Proof.Machine.execRffeJobEnd b parityOk data s
  | .timedEntryTrigger b n => Sys2Proof.Machine.execTimedEntryTrigger b n s
  | .diversityDecision k m => Sys2Proof.Machine.execDiversityDecision k m s
  | .txSamplePacket pkt => Sys2Proof.Machine.execTxSamplePacket pkt s
  | .ingressRelease x => Sys2Proof.Machine.execIngressRelease x s
  | .releaseGate p => Sys2Proof.Machine.execReleaseGate p s
  | .rxSamplePacketEgress x => Sys2Proof.Machine.execRxSamplePacketEgress x s
  | .chordPacket down pkt => Sys2Proof.Machine.execChordPacket down pkt s
  | .partialSumMissing x => Sys2Proof.Machine.execPartialSumMissing x s
  | .poll => Sys2Proof.Machine.execPoll s
  | .memberStatus k word => Sys2Proof.Machine.execMemberStatus k word s
  | .frameMark frame latSum => Sys2Proof.Machine.execFrameMark frame latSum s
  | .los n on => Sys2Proof.Machine.execLos n on s
  | .blockLock n on => Sys2Proof.Machine.execBlockLock n on s
  | .commaLock n on => Sys2Proof.Machine.execCommaLock n on s
  | .comma n payload => Sys2Proof.Machine.execComma n payload s
  | .rxokAdd n => Sys2Proof.Machine.execRxokAdd n s
  | .txmaskChange g => Sys2Proof.Machine.execTxmaskChange g s
  | .emptyRxok g => Sys2Proof.Machine.execEmptyRxok g s
  | .laneLost n => Sys2Proof.Machine.execLaneLost n s
  | .groupLost g => Sys2Proof.Machine.execGroupLost g s
  | .trainingAttempt g => Sys2Proof.Machine.execTrainingAttempt g s
  | .linkUp g => Sys2Proof.Machine.execLinkUp g s
  | .trainingTimeout g => Sys2Proof.Machine.execTrainingTimeout g s
  | .rateAnnouncement g => Sys2Proof.Machine.execRateAnnouncement g s
  | .rateIdleEnd g => Sys2Proof.Machine.execRateIdleEnd g s
  | .laneAddTraining n => Sys2Proof.Machine.execLaneAddTraining n s
  | .partnerSleep n => Sys2Proof.Machine.execPartnerSleep n s
  | .partnerRelockTimeout n => Sys2Proof.Machine.execPartnerRelockTimeout n s
  | .packetReceived g words => Sys2Proof.Machine.execPacketReceived g words s
  | .framingLoss g => Sys2Proof.Machine.execFramingLoss g s
  | .bulkWr r data => Sys2Proof.Machine.execBulkWr r data s
  | .bulkRd r n => Sys2Proof.Machine.execBulkRd r n s
  | .svcNone => Sys2Proof.Machine.execSvcNone s
  | .put w => Sys2Proof.Machine.execPut w s
  | .svcGet => Sys2Proof.Machine.execSvcGet s
  | .flush => Sys2Proof.Machine.execFlush s
  | .svcPacketTaken => Sys2Proof.Machine.execSvcPacketTaken s
  | .extest => Sys2Proof.Machine.execExtest s
  | .samplePreload => Sys2Proof.Machine.execSamplePreload s
  | .idcode => Sys2Proof.Machine.execIdcode s
  | .highz => Sys2Proof.Machine.execHighz s
  | .clamp => Sys2Proof.Machine.execClamp s
  | .extestPulse => Sys2Proof.Machine.execExtestPulse s
  | .extestTrain => Sys2Proof.Machine.execExtestTrain s
  | .svc => Sys2Proof.Machine.execSvc s
  | .bypass code => Sys2Proof.Machine.execBypass code s
  | .trstn => Sys2Proof.Machine.execTrstn s
  | .sourceFiring sn r => Sys2Proof.Machine.execSourceFiring sn r s
  | .hostChannelClaim c => Sys2Proof.Machine.execHostChannelClaim c s
  | .dmaBurst ch => Sys2Proof.Machine.execDmaBurst ch s
  | .dmaBeatComplete ch => Sys2Proof.Machine.execDmaBeatComplete ch s
  | .dmaBeatFail ch write err => Sys2Proof.Machine.execDmaBeatFail ch write err s
  | .dmaStallResume ch => Sys2Proof.Machine.execDmaStallResume ch s
  | .powerTransitionGrant => Sys2Proof.Machine.execPowerTransitionGrant s
  | .powerTransitionEnd => Sys2Proof.Machine.execPowerTransitionEnd s
  | .wakeGapEnd => Sys2Proof.Machine.execWakeGapEnd s
  | .housekeepingConversion reading => Sys2Proof.Machine.execHousekeepingConversion reading s
  | .hkRound => Sys2Proof.Machine.execHkRound s
  | .throttle => Sys2Proof.Machine.execThrottle s
  | .thermalTrip => Sys2Proof.Machine.execThermalTrip s
  | .shutdownTr => Sys2Proof.Machine.execShutdownTr s
  | .shutdownDown => Sys2Proof.Machine.execShutdownDown s
  | .thermalRestart => Sys2Proof.Machine.execThermalRestart s
  | .pornAssert pulse => Sys2Proof.Machine.execPornAssert pulse s
  | .pornRelease hot => Sys2Proof.Machine.execPornRelease hot s
  | .fabricsUp => Sys2Proof.Machine.execFabricsUp s
  | .restart => Sys2Proof.Machine.execRestart s
  | .captureJobQueued b sn => Sys2Proof.Machine.execCaptureJobQueued b sn s
  | .weightFetchIssue x => Sys2Proof.Machine.execWeightFetchIssue x s
  | .bankFetchDone p => Sys2Proof.Machine.execBankFetchDone p s
  | .packetTransmitted g => Sys2Proof.Machine.execPacketTransmitted g s
  | .removedLane n => Sys2Proof.Machine.execRemovedLane n s
  | .equaliserAdapt n => Sys2Proof.Machine.execEqualiserAdapt n s
  | .illegalInstruction e w => Sys2Proof.Machine.execIllegalInstruction e w s
  | .fetchFault e => Sys2Proof.Machine.execFetchFault e s
  | .engLoadDone e => Sys2Proof.Machine.execEngLoadDone e s
  | .memFillDone tag => Sys2Proof.Machine.execMemFillDone tag s
  | .calExportDone q => Sys2Proof.Machine.execCalExportDone q s
  | .calImportApply q => Sys2Proof.Machine.execCalImportApply q s
  | .calClearApply q => Sys2Proof.Machine.execCalClearApply q s
  | .carrierBlockComplete cell c => Sys2Proof.Machine.execCarrierBlockComplete cell c s

end Sys2Proof.Machine
end

