-- ==== Sys2Proof/Machine/Timers.lean ====
section
/-! DEFINITION. What the block does of itself: the rows that fall due with time and need nothing from outside, and the work
of the engines and the DMA channels at a tick (DESIGN CHOICE, log entry 2). -/

namespace Sys2Proof.Machine

/-- The rows of the boot and the thermal shutdown (Tables 15.2 and 15.7). -/
def bootRows : List Instr := [.shutdownTr, .shutdownDown, .fabricsUp, .restart]

/-- The timebase and the synthesisers, but for the failure of a relock. -/
def clockRows : List Instr :=
  [.timebaseRun, .frameStart, .syncOutLow] ++
  (List.finRange 4).map .synthOpGrant ++
  (List.finRange 8).flatMap fun n =>
    [.bandcalEnd n, .phaseMeasurementEnd n, .loReady n, .trackingMeasurement n, .trackingStep n]

/-- Cells: TX windows before RX windows, the end of a window before the start of the next; then what a TX cell reports. -/
def cellRows : List Instr :=
  (List.finRange 64).flatMap (fun p =>
    [.tail p, .gap p, .dacPowerDown p, .rxWindowEnd p, .ovrRecoveryEnd p, .nbrRecoveryEnd p]) ++
  (List.finRange 128).map .burstEnd ++
  (List.finRange 64).flatMap (fun p =>
    [.dacPowerUp p, .dacStarted p, .prep p, .queued p, .rxActiveStart p, .adcRun p, .rxWindowStart p]) ++
  [.fePaRise] ++ (List.finRange 64).flatMap fun p => [.dark p, .releaseGate p]

/-- An ORX job that ends of itself (R16, R145). -/
def Dev.orxEndRows (d : Dev) (b : Fin 16) : List Instr :=
  if d.orxEndsItself b then [.orxJobEnd b { w0 := 0, w1 := 0 }] else []

/-- The slots and entries of a block, and the blocks themselves. -/
def Dev.blockRows (d : Dev) : List Instr :=
  (List.finRange 16).flatMap fun b =>
    d.orxEndRows b ++ [.orxStarted b, .blockRequestRaised b] ++
    (List.finRange 16).map (.timedEntryTrigger b) ++
    (List.finRange 5).flatMap (fun k => [.captureDone b k, .captureJobQueued b k]) ++
    [.orxJobGrant b, .rffeJobGrant b] ++
    (List.finRange 5).flatMap fun k => [.captureStart b k, .captureLate b k]

/-- An interval of the guards that ends now (R207). -/
def Dev.guardRows (d : Dev) (p : Fin 64) : List Instr :=
  if d.guardEnd p = d.now then [.guardJudgement p ()] else []

/-- What a quadrant can report, by the index of the unit it names: a synthesiser pair, a context, a path. -/
def Dev.quadrantRows (d : Dev) : List Instr :=
  (List.finRange 128).flatMap fun x =>
    (if h : x.val < 4 then [.relockFail ⟨2 * x.val, by omega⟩, .relockFail ⟨2 * x.val + 1, by omega⟩] else []) ++
    [.weightFetchIssue x, .swapBind x, .weightFetchDone x, .swapStart x, .schedulePointChange x, .fadeEnd x] ++
    if h : x.val < 64 then
      [.dpdBind ⟨x.val, h⟩, .bankFetchDone ⟨x.val, h⟩] ++ d.guardRows ⟨x.val, h⟩ ++
      [.guardFallback ⟨x.val, h⟩, .dpdBankSwap ⟨x.val, h⟩]
    else []

/-- Streams: samples that leave their store, blocks that are complete, packets that leave. -/
def streamRows : List Instr :=
  (List.finRange 128).map .ingressRelease ++
  (List.finRange 64).flatMap (fun c => (List.finRange 8).map fun k => .carrierBlockComplete (c.natAdd 64) k) ++
  (List.finRange 128).flatMap fun x => [.partialSumMissing x, .rxSamplePacketEgress x]

/-- The units of calibration. -/
def calUnitList : List CalUnit := (List.finRange 16).map .orx ++ (List.finRange 128).map .cell

/-- Calibration. -/
def calRows : List Instr :=
  (List.finRange 4).flatMap (fun q => [.calStore q, .calTimeout q, .calExportDone q, .calImportApply q, .calClearApply q]) ++
  calUnitList.flatMap (fun u =>
    (List.finRange 7).map (.backgroundUpdateDue u) ++ [.calOrxRequest u, .stepStart u]) ++
  (List.finRange 4).map .stepPlacement

/-- Lanes, groups and the packet layer. -/
def linkRows : List Instr :=
  (List.finRange 16).flatMap (fun n => [.laneAddTraining n, .rxokAdd n, .removedLane n, .partnerRelockTimeout n, .equaliserAdapt n]) ++
  (List.finRange 3).flatMap (fun g =>
    [.groupLost g, .txmaskChange g, .emptyRxok g, .trainingAttempt g, .linkUp g, .trainingTimeout g, .rateAnnouncement g,
     .rateIdleEnd g]) ++
  (List.finRange 16).map .laneLost

/-- Loads, wakes, stalls, power, host channels, the JTAG path, and the poll of the lattice; the sends come last. -/
def systemRows : List Instr :=
  (List.finRange 16).flatMap (fun e => [.engLoadDone e, .engineWake e]) ++
  (List.finRange 48).map .dmaStallResume ++
  [.powerTransitionEnd, .wakeGapEnd, .throttle, .powerTransitionGrant, .poll] ++
  (List.finRange 4).map .hostChannelClaim ++ [.svcPacketTaken] ++ (List.finRange 3).map .packetTransmitted

/-- The accepted groups in the order of their boundaries, those of one tick in the order of their acceptance (R91). -/
def Dev.groupRows (d : Dev) : List Instr :=
  d.acceptedGroups.filterMap fun e => if h : e.1 < 272 then some (.application ⟨e.1, h⟩) else none

/-- The rows whose operand is the tag of a command in flight. -/
def Dev.tagRows (d : Dev) : List Instr :=
  (List.range 16).flatMap (fun b => (d.block b).mis.map fun m => .mismatchTimeout m.tag) ++
  d.fills.map fun f => .memFillDone f.1

/-- Every row that can fall due of itself. What one tick brings is taken in this order: commits, so that what begins at their
boundary begins with their values; then the cells, blocks, quadrants, the chip and the lattice, so that faults caught at one tick
are reported level by level and by ascending index (R36). -/
def Dev.timed (d : Dev) : List Instr :=
  bootRows ++ (if d.powered then
    d.groupRows ++ clockRows ++ cellRows ++ d.blockRows ++ d.quadrantRows ++ streamRows ++ calRows ++ d.tagRows ++
    [.hkRound] ++ linkRows ++ systemRows else [])

/-- A row is due: it has an effect, and its effect falls at this tick. -/
def Dev.isDue (d : Dev) (i : Instr) : Bool :=
  match exec i { pending := [], dev := d } with
  | .next t => t.dev.now == d.now && t.dev != d
  | _ => false

/-- The first row that is due. -/
def Dev.firstDue (d : Dev) : Option Instr := d.timed.find? d.isDue

/-- What a DMA channel does at a tick: it opens a burst, or one beat of it completes or fails (R322, R323, R326). -/
def Dev.dmaNext (d : Dev) (ch : Fin 48) : Option Instr :=
  let c := ch.val
  if d.dmaMayBurst c && !(d.chan c).stalled then some (.dmaBurst ch)
  else if d.beatRuns c then
    some (if d.readFails c .address then .dmaBeatFail ch false .address
          else if !d.beatReadOk c then .dmaBeatFail ch false .memory
          else if d.beatWriteBad c then .dmaBeatFail ch true .address
          else .dmaBeatComplete ch)
  else none

/-- The work of one tick: one instruction of each running engine, one write-buffer entry of each, one beat of each
channel. -/
def Dev.tickRows (d : Dev) : List Instr :=
  if d.powered then
    (List.finRange 16).filterMap d.engNext ++
    ((List.finRange 16).filter fun e => !(d.eng e.val).wbuf.isEmpty).map .writeBufferDrain ++
    (List.finRange 48).filterMap d.dmaNext
  else []

/-- An empty queue: the first row that is due comes to the front. With none due the commits of the tick reach the request lines
of the hub (R337); then the bulk requests that have arrived complete (R292); then the engines and channels do their work of the
tick; then a REG.MODIFY that has read its word writes it (R82); then the clock advances by a tick. -/
def State.idle (s : State) : State :=
  let d := s.dev
  match d.firstDue with
  | some i => { s with pending := [i] }
  | none =>
    if d.hub.held ≠ [] then { s with dev := d.settleHub }
    else if d.link.bulk ≠ [] then { s with dev := d.bulkNext }
    else if d.tb.workAt ≤ d.now then { pending := d.tickRows, dev := d.setTb { d.tb with workAt := d.now + 1 } }
    else if d.cmd.modify.isSome then { s with dev := d.modifyEnd }
    else { s with dev := { d with now := d.now + 1 } }

end Sys2Proof.Machine
end

