-- ==== Sys2Proof/Safety.lean ====
section
/-! DEFINITION. The terms in which claims are stated: what a command answers, when the units work, and the invariant of
the block. -/

namespace Sys2Proof.Machine

/-- Command `i` answers the next state whose block is `d`; the queue stays as it was. -/
def Gives (i : Instr) (s : State) (d : Dev) : Prop := exec i s = .next { s with dev := d }

/-- Command `i` answers a next state whose block meets `P`; the queue stays as it was. -/
def Reaches (i : Instr) (s : State) (P : Dev → Prop) : Prop := ∃ d, Gives i s d ∧ P d

/-- The memory of the block is in its canonical form. -/
def Inv (s : State) : Prop := Memory.wf s.dev.mem = true

/-- A step that neither stops nor turns the clock back. -/
def Safe (s : State) : Prop := ∃ t, step s = .next t ∧ s.dev.now ≤ t.dev.now

/-- Engine `e` runs and its instruction memory answers the fetch (R305). -/
def CanRun (d : Dev) (e : Fin 16) : Prop :=
  (d.eng e).st = .running ∧ (d.eng e).pc < 0x10000 ∧ d.badAt (engBase e + (d.eng e).pc) 1 = false

/-- Two engines differ at most in PC and in the scalar registers. -/
def SameButScalar (x y : Ve) : Prop := { x with s := [], pc := 0 } = { y with s := [], pc := 0 }

/-- The command writes `v` to scalar register `rd` of engine `e` and goes on to the next instruction; s0 takes no write,
and nothing else changes. -/
def ScalarResult (i : Instr) (s : State) (d : Dev) (e : Fin 16) (rd : Reg5) (v : Word) : Prop :=
  ∃ x : Ve, Gives i s (d.setEng e x) ∧ SameButScalar x (d.eng e) ∧ x.pc = ((d.eng e).pc + 4) % 2 ^ 32 ∧
    ∀ r : Reg5, x.sreg r.toNat = if r = rd ∧ r ≠ 0 then v else (d.eng e).sreg r.toNat

/-- The command changes vector register `vd` of engine `e` to the lanes `f` and goes on to the next instruction; nothing
else changes. -/
def VectorResult (i : Instr) (s : State) (d : Dev) (e : Fin 16) (vd : VReg) (f : Fin 16 → Word) : Prop :=
  ∃ x : Ve, Gives i s (d.setEng e x) ∧ { x with v := [], pc := 0 } = { d.eng e with v := [], pc := 0 } ∧
    x.pc = ((d.eng e).pc + 4) % 2 ^ 32 ∧
    ∀ (v : VReg) (l : Fin 16), x.lane v.toNat l = if v = vd then f l else (d.eng e).lane v.toNat l

/-- The command changes accumulator `a` of engine `e` to I and Q and goes on to the next instruction; nothing else
changes. -/
def AccResult (i : Instr) (s : State) (d : Dev) (e : Fin 16) (a : Fin 2) (vI vQ : Int) : Prop :=
  ∃ x : Ve, Gives i s (d.setEng e x) ∧ { x with a := [], pc := 0 } = { d.eng e with a := [], pc := 0 } ∧
    x.pc = ((d.eng e).pc + 4) % 2 ^ 32 ∧
    ∀ (k : Fin 2) (part : Fin 2), x.acc k part = if k = a then (if part = 0 then vI else vQ) else (d.eng e).acc k part

/-- The command leaves engine `e` at PC `pc` with every register as it was; nothing else changes. -/
def FlowResult (i : Instr) (s : State) (e : Fin 16) (pc : Nat) : Prop :=
  Gives i s (s.dev.setEng e { s.dev.eng e with pc := pc })

/-- The address of a memory access: rs1 plus the sign-extended immediate (R303). -/
def accessAddr (d : Dev) (e : Fin 16) (rs1 : Reg5) (imm : BitVec 16) : Nat :=
  ((d.eng e).sreg rs1.toNat + imm.signExtend 32).toNat

/-- `n` bytes from engine address `a` lie in the local data memory of the engine, aligned (Table 12.2, R303). -/
def InData (a n : Nat) : Prop := a % n = 0 ∧ 0xF0010000 ≤ a ∧ a + n ≤ 0xF0040000

/-- `n` bytes from engine address `a` lie in the local memories of the engine, aligned (Table 12.2, R303). -/
def InLocal (a n : Nat) : Prop := a % n = 0 ∧ 0xF0000000 ≤ a ∧ a + n ≤ 0xF0040000

/-- The place of a local address of engine `e` in the chip's memory. -/
def localAddr (e : Fin 16) (a : Nat) : Nat := engBase e + (a - 0xF0000000)

/-- `n` bytes from address `a` lie in shared memory, aligned (Table 12.2, R303). -/
def InShared (e : Fin 16) (a n : Nat) : Prop := a % n = 0 ∧ viewAt e (wordOf a) = .shared (wordOf a)

/-- The stored word of register `r` becomes `w`; no other register and nothing else of the block changes. -/
def OnlyReg (d e : Dev) (r : Reg) (w : Word) : Prop :=
  e.reg r = w ∧ (∀ q, q.addr ≠ r.addr → e.reg q = d.reg q) ∧ { e with regs := d.regs } = d

/-- Nothing but the event hub and the event latches of the engines changes. -/
def OnlyHub (d e : Dev) : Prop :=
  { e with hub := {}, ve := [] } = { d with hub := {}, ve := [] } ∧
  ∀ i, e.eng i = { d.eng i with evl := (e.eng i).evl }

/-- A write of register `r` does no more than write its bits: `r` has no row of its own among the register commands, and
its unit acts on no write. -/
def plainReg (r : Reg) : Bool :=
  match r with
  | .tbCtrl | .enW _ | .pendW _ | .actW _ | .enSet | .enClr | .pendSet | .pendClr | .tgt _ _ | .dmaR _ _ | .pqLevel _ _
  | .pqAdd _ _ | .plMin | .psReq | .cuInit _ | .cuVal _ | .cuFeed _ | .cuFeed8 _ | .dpdSwap _ | .txCtl _ _ | .cctl _ _
  | .capRel _ => false
  | _ => true

/-- The bits of a register that a write changes at once: those of its RW and LV fields (R2). -/
def liveBits (r : Reg) : Nat := r.bits fun a => a == .rw || a == .lv

/-- The host commands: each with its opcode, its header and its parameter words (Table 3.6). -/
def hostRow : Instr → Option (Nat × Hdr × List Word)
  | .nop h ps => some (0x0000, h, ps)
  | .idGet h ps => some (0x0001, h, ps)
  | .capWalk h ps => some (0x0002, h, ps)
  | .tagAbort h ps => some (0x0003, h, ps)
  | .regRead h ps => some (0x0100, h, ps)
  | .regWrite h ps => some (0x0101, h, ps)
  | .regModify h ps => some (0x0102, h, ps)
  | .stageRead h ps => some (0x0200, h, ps)
  | .commit h ps => some (0x0201, h, ps)
  | .discard h ps => some (0x0202, h, ps)
  | .synSet h ps => some (0x0300, h, ps)
  | .synGet h ps => some (0x0301, h, ps)
  | .cellLo h ps => some (0x0302, h, ps)
  | .winSet h ps => some (0x0303, h, ps)
  | .winBurst h ps => some (0x0304, h, ps)
  | .rffeXfer h ps => some (0x0310, h, ps)
  | .rffeTimed h ps => some (0x0311, h, ps)
  | .divSet h ps => some (0x0320, h, ps)
  | .divSeq h ps => some (0x0321, h, ps)
  | .mismatchMeas h ps => some (0x0330, h, ps)
  | .adcSet h ps => some (0x0400, h, ps)
  | .dacSet h ps => some (0x0401, h, ps)
  | .convGet h ps => some (0x0402, h, ps)
  | .orxSet h ps => some (0x0410, h, ps)
  | .orxGet h ps => some (0x0411, h, ps)
  | .chainSet h ps => some (0x0500, h, ps)
  | .carrSet h ps => some (0x0501, h, ps)
  | .carrGain h ps => some (0x0502, h, ps)
  | .chainSync h ps => some (0x0503, h, ps)
  | .chainGet h ps => some (0x0504, h, ps)
  | .ctxSet h ps => some (0x0600, h, ps)
  | .ctxGet h ps => some (0x0601, h, ps)
  | .beamSwap h ps => some (0x0602, h, ps)
  | .wtWrite h ps => some (0x0610, h, ps)
  | .wtRead h ps => some (0x0611, h, ps)
  | .ppSet h ps => some (0x0700, h, ps)
  | .cfrPulse h ps => some (0x0701, h, ps)
  | .dpdSwap h ps => some (0x0710, h, ps)
  | .dpdClear h ps => some (0x0711, h, ps)
  | .ppGet h ps => some (0x0712, h, ps)
  | .orxCapture h ps => some (0x0720, h, ps)
  | .capRelease h ps => some (0x0721, h, ps)
  | .calCfg h ps => some (0x0800, h, ps)
  | .calClass h ps => some (0x0801, h, ps)
  | .calRun h ps => some (0x0802, h, ps)
  | .calStop h ps => some (0x0803, h, ps)
  | .calClear h ps => some (0x0804, h, ps)
  | .calGet h ps => some (0x0805, h, ps)
  | .calExport h ps => some (0x0810, h, ps)
  | .calImport h ps => some (0x0811, h, ps)
  | .linkCfg h ps => some (0x0900, h, ps)
  | .linkGet h ps => some (0x0901, h, ps)
  | .linkRetrain h ps => some (0x0902, h, ps)
  | .laneCfg h ps => some (0x0910, h, ps)
  | .laneGet h ps => some (0x0911, h, ps)
  | .engLoad h ps => some (0x0A00, h, ps)
  | .engStart h ps => some (0x0A01, h, ps)
  | .engHalt h ps => some (0x0A02, h, ps)
  | .engKick h ps => some (0x0A03, h, ps)
  | .engGet h ps => some (0x0A04, h, ps)
  | .memFill h ps => some (0x0A10, h, ps)
  | .dmaSet h ps => some (0x0B00, h, ps)
  | .dmaRun h ps => some (0x0B01, h, ps)
  | .dmaResume h ps => some (0x0B02, h, ps)
  | .dmaAbort h ps => some (0x0B03, h, ps)
  | .dmaGet h ps => some (0x0B04, h, ps)
  | .pqAdd h ps => some (0x0B10, h, ps)
  | .evtSrc h ps => some (0x0C00, h, ps)
  | .evtThresh h ps => some (0x0C01, h, ps)
  | .evtArray h ps => some (0x0C02, h, ps)
  | .evtComplete h ps => some (0x0C03, h, ps)
  | .evtGet h ps => some (0x0C04, h, ps)
  | .pwrSleep h ps => some (0x0D00, h, ps)
  | .pwrWake h ps => some (0x0D01, h, ps)
  | .pmCfg h ps => some (0x0D02, h, ps)
  | .plSet h ps => some (0x0D03, h, ps)
  | .plMin h ps => some (0x0D04, h, ps)
  | .auxLim h ps => some (0x0D05, h, ps)
  | .pwrGet h ps => some (0x0D06, h, ps)
  | .hkGet h ps => some (0x0D07, h, ps)
  | .latSet h ps => some (0x0E00, h, ps)
  | .latGet h ps => some (0x0E01, h, ps)
  | .latMembers h ps => some (0x0E02, h, ps)
  | .latArm h ps => some (0x0E03, h, ps)
  | _ => none

/-- No command that came earlier is unfinished business of the next one: no packet of the service path and no bulk write wait, and
every REG.MODIFY has written (R76, R82, R292). -/
def Settled (d : Dev) : Prop := d.jtag.done = none ∧ d.link.bulk = [] ∧ d.cmd.modify = none

/-- The host command of header `h` reaches a working chip, in its turn, with a tag that is free, and names unit `u` of level `lv` of
this chip alone (R70, R77). -/
def Addressed (h : Hdr) (d : Dev) (lv u : Nat) : Prop :=
  d.boot.phase = .up ∧ Settled d ∧ d.inFlight h.tag = false ∧ Hdr.chip h = d.chipNo ∧ Hdr.level h = lv ∧ Hdr.index h = u

/-- The block with a command in flight that has one part. -/
def taken (d : Dev) (opc : Nat) (h : Hdr) (ps : List Word) (lv u : Nat) : Dev := d.launch opc h ps [d.unitOf lv u]

/-- Command `i` ends at once with result `r` and changes nothing else: its one effect is the final reply (R72). -/
def Replies (i : Instr) (s : State) (opc : Nat) (h : Hdr) (r : Res) : Prop := Gives i s (s.dev.final opc h r)

/-- Command `i` stages the writes `ws` for unit `u` (R86, R87, R92). With CG_VALID 1 they join GROUP and the reply is OK,
or BUSY when GROUP or a field of theirs is frozen; with CG_VALID 0 they form the private group of the tag and are
committed, or the command is refused and changes nothing; a command that writes no field ignores BOUNDARY and replies OK. -/
def StagesAs (i : Instr) (s : State) (opc : Nat) (h : Hdr) (ps : List Word) (lv u : Nat) (ws : List RWrite) : Prop :=
  let own := stFieldsOf h.group.toNat ws
  let mine := stFieldsOf (privateGroup h.tag) ws
  let e := taken s.dev opc h ps lv u
  let shut := (s.dev.grp h.group.toNat).st = .accepted ∨ s.dev.anyFrozen own = true
  (h.cg = true → own = [] ∨ ¬ shut → Gives i s ((s.dev.stageFields own).final opc h (plain sOk))) ∧
  (h.cg = true → own ≠ [] → shut → Replies i s opc h (plain sBusy)) ∧
  (h.cg = false → mine = [] → Replies i s opc h (plain sOk)) ∧
  (h.cg = false → mine ≠ [] → badBoundary h = true → Replies i s opc h badHeader) ∧
  (h.cg = false → mine ≠ [] → badBoundary h = false →
    (s.dev.anyFrozen mine = true → Replies i s opc h (plain sBusy)) ∧
    (s.dev.anyFrozen mine = false →
      (∀ r, e.commitCheck mine h = .error r → Replies i s opc h r) ∧
      ∀ b, e.commitCheck mine h = .ok b → Gives i s ((e.stageFields mine).commitAccept (privateGroup h.tag) b h)))

/-- A command of header `h`, in flight in block `e`, writes the words `ws` from address `a` and ends with the words `res` (R83): a
refusal of its staged part, closed instruction memory or an ARM at the wrong time is its result, `ends`; otherwise the ST fields are
staged, the other fields act in address order, with CG_VALID 0 the staged ones are committed, and the block that this leaves is the
one that the write `gives`. -/
def RangeWritten (ends : Res → Prop) (gives : Dev → Prop) (h : Hdr) (e : Dev) (a : Nat) (ws res : List Word) : Prop :=
  let st := rangeWrites a ws
  let g := if h.cg then h.group.toNat else privateGroup h.tag
  let own := stFieldsOf g st
  let w := (e.stageFields own).writeRange none a ws
  (∀ r, e.stageCheck h st = .error r → ends r) ∧
  ∀ b, e.stageCheck h st = .ok b →
    (e.imemShut a ws.length = true → ends (refusal sPrecondition 0x0A01)) ∧
    (e.imemShut a ws.length = false →
      (rangeArms a ws = true → e.armRefused = true → ends (plain sPrecondition)) ∧
      (rangeArms a ws = false ∨ e.armRefused = false →
        (h.cg = true ∨ own = [] → gives (w.finishAll h.tag (okWords res))) ∧
        (h.cg = false → own ≠ [] → gives ((w.updFlight h.tag fun f => { f with keep := res }).commitAccept g b h))))

end Sys2Proof.Machine
end

