-- ==== Sys2Proof/Certificates/Slice0/Obligations.lean ====
section
/-! DEFINITION. The statements about the block, for the provers. -/

open Sys2Proof Sys2Proof.Machine

/-- For every command c and state s, a step of s with c at the front of its queue is exec of c on s with the rest of the
queue. Derived from spec/01_array_hierarchy.md R28. -/
def Obligations.StepRunsFront : Prop :=
  ∀ (c : Instr) (s : State) (rest : List Instr),
    step { s with pending := c :: rest } = exec c { s with pending := rest }

/-- A well-formed command answers a next state whose queue is the queue it was given; an ill-formed term is refused by
name and nothing faults. The model's own choice (log entry 2, DESIGN CHOICE): a step on an empty queue puts in the
queue the first time-driven row that has an effect at this tick and changes nothing else; when none has, it lets the
commits of the tick reach the request lines of the hub, then lets the oldest bulk request complete, then queues the
tick's work of the engines and DMA channels, once a tick, then lets a REG.MODIFY write, and, when nothing of this is
left, advances the clock by exactly one tick and changes nothing else. Derived from spec/01_array_hierarchy.md R28,
spec/02_time_and_release.md. Where it goes beyond these rules it is the model's own choice or reading: log entry 2. -/
def Obligations.QueueAndTick : Prop :=
  (∀ (c : Instr) (s : State),
    (c.wf = true → ∃ d, Gives c s d) ∧ (c.wf = false → exec c s = .refused .illFormed)) ∧
  (∀ d : Dev,
    (∀ i, d.firstDue = some i → step { pending := [], dev := d } = .next { pending := [i], dev := d }) ∧
    (d.firstDue = none →
      let then_ (l : List Instr) (e : Dev) : Prop := step { pending := [], dev := d } = .next { pending := l, dev := e }
      (d.hub.held ≠ [] → then_ [] d.settleHub) ∧
      (d.hub.held = [] → d.link.bulk ≠ [] → then_ [] d.bulkNext) ∧
      (d.hub.held = [] → d.link.bulk = [] → d.tb.workAt ≤ d.now →
        then_ d.tickRows { d with tb := { d.tb with workAt := d.now + 1 } }) ∧
      (d.hub.held = [] → d.link.bulk = [] → d.now < d.tb.workAt → d.cmd.modify ≠ none → then_ [] d.modifyEnd) ∧
      (d.hub.held = [] → d.link.bulk = [] → d.now < d.tb.workAt → d.cmd.modify = none →
        then_ [] { d with now := d.now + 1 })))

/-- From every state whose memory lists strictly rising addresses and no byte equal to what an unlisted address reads
as, a step that answers a next state answers one whose memory is in the same form, whatever command is at the front,
and on an empty queue. Derived from spec/01_array_hierarchy.md, spec/12_vertex_engines.md, spec/13_dma.md. -/
def Obligations.MemoryCanonicalKept : Prop :=
  ∀ s t : State, step s = .next t → Inv s → Inv t

/-- The memory of State.reset is in canonical form, and every byte of it reads 0; the queue is empty. After reset the
block is in the boot state with its units off: the chip tick count is 0; no command is in flight, no record is
queued at any source and no packet waits for a group or the service port; PWR_STAT reads BOOT; source 1 and the
fault sources are enabled and the others are not; every fabric reads 0.72 V and every slack 255; group H listens and
the others are off; every engine is HALTED at PC 0, every channel IDLE, every synthesiser off and every path on its
identity bank; and CAL_BGPER, CAL_CTRL and DPD_GRD of every unit read their reset values. Derived from
spec/15_power_and_heat.md R347, spec/00_scope.md R5, spec/00_scope.md R6, spec/14_event_hub.md R340,
spec/08_predistortion.md Table 8.6, spec/09_calibration.md Table 9.6. Where it goes beyond these rules it is the
model's own choice or reading: log entries 4, 6. -/
def Obligations.ResetState : Prop :=
  (Inv State.reset ∧ State.reset.pending = [] ∧ ∀ a, Memory.read State.reset.dev.mem a = 0) ∧
  (let d := State.reset.dev
  d.powered = false ∧ d.now = 0 ∧ d.chipState = 0 ∧ d.cmd.flight = [] ∧ d.tb.st = .noRef ∧ (d.lg 0).st = .listen ∧
  (d.lg 1).st = .off ∧ (d.lg 2).st = .off ∧ (d.src 8).en = true ∧ (d.src 48).en = true ∧ (d.src 112).en = false ∧
  (∀ n, (d.src n).en = (n == 1 || isFaultSource n) ∧ (d.src n).q = [] ∧ (d.src n).lost = false ∧ (d.src n).act = false) ∧ (∀ g vc, d.queueOf g vc = []) ∧
  d.jtag.out = [] ∧ (∀ i, d.fabV i = 0x22 ∧ d.slack i = 255) ∧
  (∀ i, (d.eng i).st = .halted ∧ (d.eng i).pc = 0) ∧ (∀ i, (d.chan i).st = .idle) ∧ (∀ i, (d.syn i).st = .off) ∧
  (∀ q : Fin 4, d.f (.calBgper q) 15 0 = 1000 ∧ d.f (.calCtrl q) 6 0 = 0x7F ∧ d.fb (.calCtrl q) 31 = false) ∧
  (∀ p : Fin 64, d.f (.dpdGrd p) 15 8 = 16 ∧ d.f (.dpdGrd p) 5 0 = 4 ∧ d.f (.dpdGrd p) 19 16 = 8 ∧
    d.fb (.dpdGrd p) 31 = true ∧ (d.path p).store = 2 ∧ (d.path p).live = none))

/-- A step that answers a next state answers one whose tick counter is not below the one before. Derived from
spec/02_time_and_release.md. -/
def Obligations.ClockNeverBack : Prop :=
  ∀ s t : State, step s = .next t → s.dev.now ≤ t.dev.now

/-- After words are stored from an address, each byte of the stored range reads the byte of its word, least significant
first, and every byte outside the range reads as before. Derived from spec/03_command_plane.md R68. -/
def Obligations.MemoryReadAfterWrite : Prop :=
  ∀ (d : Dev) (a : Nat) (ws : List Word),
    (∀ (i : Nat) (h : i < ws.length) (k : Fin 4),
      Memory.read (d.storeWords a ws).mem (a + 4 * i + k) = (ws[i]).extractLsb' (8 * k) 8) ∧
    (∀ b, b < a ∨ a + 4 * ws.length ≤ b → Memory.read (d.storeWords a ws).mem b = Memory.read d.mem b)

/-- ADD, SUB, AND, OR, XOR, SLL, SRL, SRA, SLT, SLTU, MUL and MULH of a running engine complete: rd takes the result of
Table 12.4 (shifts by rs2 bits 4:0, MULH the high word of the signed product), s0 takes no write, PC advances by 4,
and nothing else of the block changes. ADDI (sign-extended), ANDI, ORI, XORI (zero-extended), LUI, SLLI, SRLI and
SRAI of a running engine complete: rd takes the result of Table 12.4, s0 takes no write, PC advances by 4, and
nothing else of the block changes. Derived from spec/12_vertex_engines.md R297, spec/12_vertex_engines.md Table
12.4. Where it goes beyond these rules it is the model's own choice or reading: log entry 2. -/
def Obligations.EngScalars : Prop :=
  (∀ (s : State) (e : Fin 16) (rd rs1 rs2 : Reg5), CanRun s.dev e →
    let a := (s.dev.eng e).sreg rs1.toNat
    let b := (s.dev.eng e).sreg rs2.toNat
    let k := b.toNat % 32
    ScalarResult (.veAdd e rd rs1 rs2) s s.dev e rd (BitVec.ofNat 32 (a.toNat + b.toNat)) ∧
    ScalarResult (.veSub e rd rs1 rs2) s s.dev e rd (BitVec.ofInt 32 (a.toInt - b.toInt)) ∧
    ScalarResult (.veAnd e rd rs1 rs2) s s.dev e rd (a &&& b) ∧
    ScalarResult (.veOr e rd rs1 rs2) s s.dev e rd (a ||| b) ∧
    ScalarResult (.veXor e rd rs1 rs2) s s.dev e rd (a ^^^ b) ∧
    ScalarResult (.veSll e rd rs1 rs2) s s.dev e rd (BitVec.ofNat 32 (a.toNat * 2 ^ k)) ∧
    ScalarResult (.veSrl e rd rs1 rs2) s s.dev e rd (BitVec.ofNat 32 (a.toNat / 2 ^ k)) ∧
    ScalarResult (.veSra e rd rs1 rs2) s s.dev e rd (BitVec.ofInt 32 (a.toInt / 2 ^ k)) ∧
    ScalarResult (.veSlt e rd rs1 rs2) s s.dev e rd (if a.toInt < b.toInt then 1 else 0) ∧
    ScalarResult (.veSltu e rd rs1 rs2) s s.dev e rd (if a.toNat < b.toNat then 1 else 0) ∧
    ScalarResult (.veMul e rd rs1 rs2) s s.dev e rd (BitVec.ofNat 32 (a.toNat * b.toNat)) ∧
    ScalarResult (.veMulh e rd rs1 rs2) s s.dev e rd (BitVec.ofInt 32 (a.toInt * b.toInt / 2 ^ 32))) ∧
  (∀ (s : State) (e : Fin 16) (rd rs1 : Reg5) (imm : BitVec 16) (sh : BitVec 5), CanRun s.dev e →
    let a := (s.dev.eng e).sreg rs1.toNat
    ScalarResult (.veAddi e rd rs1 imm) s s.dev e rd (BitVec.ofInt 32 (a.toInt + imm.toInt)) ∧
    ScalarResult (.veAndi e rd rs1 imm) s s.dev e rd (a &&& BitVec.ofNat 32 imm.toNat) ∧
    ScalarResult (.veOri e rd rs1 imm) s s.dev e rd (a ||| BitVec.ofNat 32 imm.toNat) ∧
    ScalarResult (.veXori e rd rs1 imm) s s.dev e rd (a ^^^ BitVec.ofNat 32 imm.toNat) ∧
    ScalarResult (.veLui e rd imm) s s.dev e rd (BitVec.ofNat 32 (imm.toNat * 65536)) ∧
    ScalarResult (.veSlli e rd rs1 sh) s s.dev e rd (BitVec.ofNat 32 (a.toNat * 2 ^ sh.toNat)) ∧
    ScalarResult (.veSrli e rd rs1 sh) s s.dev e rd (BitVec.ofNat 32 (a.toNat / 2 ^ sh.toNat)) ∧
    ScalarResult (.veSrai e rd rs1 sh) s s.dev e rd (BitVec.ofInt 32 (a.toInt / 2 ^ sh.toNat)))

/-- LW, LH, LHU, LB, LBU and VLD of a running engine from an aligned address in its instruction or data memory complete
when the words read hold no error: rd takes the bytes at the address, least significant first, sign- or
zero-extended; lane l of vd takes the word at address + 4l. s0 takes no write, PC advances by 4, and nothing else
changes. A load from shared memory of a line that the data cache holds takes the cached bytes, whatever memory
holds; of a line that it does not hold and the write buffer does not hold either, when memory reads it without
error, it takes the bytes of memory and the line enters the cache. The line becomes the most recently used of its
set, rd (or vd) takes the bytes extended as Table 12.4 says, PC advances by 4, and nothing else changes. Derived
from spec/12_vertex_engines.md R303, spec/12_vertex_engines.md R304, spec/12_vertex_engines.md Table 12.4,
spec/12_vertex_engines.md R310. Where it goes beyond these rules it is the model's own choice or reading: log entry
2. -/
def Obligations.EngLoads : Prop :=
  (∀ (s : State) (e : Fin 16) (rd rs1 : Reg5) (vd : VReg) (imm : BitVec 16), CanRun s.dev e →
    let a := accessAddr s.dev e rs1 imm
    let byte (k : Nat) : Byte := Memory.read s.dev.mem (localAddr e a + k)
    let half : BitVec 16 := BitVec.ofNat 16 ((byte 0).toNat + 256 * (byte 1).toNat)
    (InLocal a 4 → s.dev.badAt (localAddr e (wordOf a)) 1 = false →
      ScalarResult (.veLw e rd rs1 imm) s s.dev e rd (Memory.readWord s.dev.mem (localAddr e a))) ∧
    (InLocal a 2 → s.dev.badAt (localAddr e (wordOf a)) 1 = false →
      ScalarResult (.veLh e rd rs1 imm) s s.dev e rd (half.signExtend 32)) ∧
    (InLocal a 2 → s.dev.badAt (localAddr e (wordOf a)) 1 = false →
      ScalarResult (.veLhu e rd rs1 imm) s s.dev e rd (half.zeroExtend 32)) ∧
    (InLocal a 1 → s.dev.badAt (localAddr e (wordOf a)) 1 = false →
      ScalarResult (.veLb e rd rs1 imm) s s.dev e rd ((byte 0).signExtend 32)) ∧
    (InLocal a 1 → s.dev.badAt (localAddr e (wordOf a)) 1 = false →
      ScalarResult (.veLbu e rd rs1 imm) s s.dev e rd ((byte 0).zeroExtend 32)) ∧
    (InLocal a 64 → s.dev.badAt (localAddr e a) 16 = false →
      VectorResult (.veVld e vd rs1 imm) s s.dev e vd fun l => Memory.readWord s.dev.mem (localAddr e a + 4 * l))) ∧
  (∀ (s : State) (e : Fin 16) (rd rs1 : Reg5) (vd : VReg) (imm : BitVec 16) (line : List Byte), CanRun s.dev e →
    let a := accessAddr s.dev e rs1 imm
    let x := s.dev.eng e
    (x.cached (lineBase a) = some { base := lineBase a, bytes := line } ∨
      (x.cached (lineBase a) = none ∧ (x.wbuf.any fun w => w.base == lineBase a) = false ∧
        s.dev.badAt (lineBase a) 16 = false ∧ line = Memory.readBytes s.dev.mem (lineBase a) 64)) →
    let after := s.dev.setEng e (x.useLine { base := lineBase a, bytes := line })
    let byte (k : Nat) : Nat := (line.getD (a % 64 + k) 0).toNat
    line.length = 64 →
    (InShared e a 4 →
      ScalarResult (.veLw e rd rs1 imm) s after e rd (BitVec.ofNat 32
        (byte 0 + 256 * (byte 1 + 256 * (byte 2 + 256 * byte 3))))) ∧
    (InShared e a 2 →
      ScalarResult (.veLh e rd rs1 imm) s after e rd ((BitVec.ofNat 16 (byte 0 + 256 * byte 1)).signExtend 32)) ∧
    (InShared e a 2 →
      ScalarResult (.veLhu e rd rs1 imm) s after e rd (BitVec.ofNat 32 (byte 0 + 256 * byte 1))) ∧
    (InShared e a 1 →
      ScalarResult (.veLb e rd rs1 imm) s after e rd ((BitVec.ofNat 8 (byte 0)).signExtend 32)) ∧
    (InShared e a 1 →
      ScalarResult (.veLbu e rd rs1 imm) s after e rd (BitVec.ofNat 32 (byte 0))) ∧
    (InShared e a 64 → VectorResult (.veVld e vd rs1 imm) s after e vd fun l =>
      BitVec.ofNat 32 (byte (4 * l) + 256 * (byte (4 * l + 1) + 256 * (byte (4 * l + 2) + 256 * byte (4 * l + 3))))))

/-- SW, SH, SB and VST of a running engine to an aligned address in its data memory complete: the bytes at the address
take the low bytes of rs2, least significant first (VST: lane l at address + 4l), every other byte of memory reads
as before, no register changes, PC advances by 4, and nothing else of the block changes but that the words written
whole lose their error marks. SW, SH, SB and VST of a running engine to an aligned address in shared memory
complete: the bytes of rs2 (VST: of the lanes), least significant first, go at their offsets of the 64-byte line to
the data cache, where the line is cached, and to the write buffer; no register and no accumulator of the engine
changes and PC advances by 4. Derived from spec/12_vertex_engines.md R303, spec/12_vertex_engines.md R304,
spec/12_vertex_engines.md Table 12.4, spec/12_vertex_engines.md R310, spec/12_vertex_engines.md R311. -/
def Obligations.EngStores : Prop :=
  (∀ (s : State) (e : Fin 16) (rs2 rs1 : Reg5) (vs : VReg) (imm : BitVec 16), CanRun s.dev e →
    let a := accessAddr s.dev e rs1 imm
    let w := (s.dev.eng e).sreg rs2.toNat
    let stored (i : Instr) (n : Nat) (byte : Nat → Byte) : Prop := InData a n → Reaches i s fun d =>
      (∀ k, k < n → Memory.read d.mem (localAddr e a + k) = byte k) ∧
      (∀ b, b < localAddr e a ∨ localAddr e a + n ≤ b → Memory.read d.mem b = Memory.read s.dev.mem b) ∧
      { d with mem := s.dev.mem, bad := s.dev.bad } =
        s.dev.setEng e { s.dev.eng e with pc := ((s.dev.eng e).pc + 4) % 2 ^ 32 } ∧
      (∀ b, b ∈ d.bad ↔ b ∈ s.dev.bad ∧ ¬ (localAddr e a ≤ b ∧ b + 4 ≤ localAddr e a + n))
    stored (.veSw e rs2 rs1 imm) 4 (fun k => w.extractLsb' (8 * k) 8) ∧
    stored (.veSh e rs2 rs1 imm) 2 (fun k => w.extractLsb' (8 * k) 8) ∧
    stored (.veSb e rs2 rs1 imm) 1 (fun _ => w.extractLsb' 0 8) ∧
    stored (.veVst e vs rs1 imm) 64 (fun k => ((s.dev.eng e).lane vs.toNat (k / 4)).extractLsb' (8 * (k % 4)) 8)) ∧
  (∀ (s : State) (e : Fin 16) (rs2 rs1 : Reg5) (vs : VReg) (imm : BitVec 16), CanRun s.dev e →
    let a := accessAddr s.dev e rs1 imm
    let w := (s.dev.eng e).sreg rs2.toNat
    let stored (i : Instr) (n : Nat) (byte : Nat → Byte) : Prop := InShared e a n →
      let bytes := (List.range n).map fun k => (a % 64 + k, byte k)
      let d := (s.dev.cacheStore e (lineBase a) bytes).bufferStore e (lineBase a) bytes
      Gives i s (d.setEng e { d.eng e with pc := ((d.eng e).pc + 4) % 2 ^ 32 }) ∧
      (let x := s.dev.eng e
       (d.eng e).pc = x.pc ∧ (d.eng e).s = x.s ∧ (d.eng e).v = x.v ∧ (d.eng e).a = x.a ∧ (d.eng e).st = x.st)
    stored (.veSw e rs2 rs1 imm) 4 (fun k => w.extractLsb' (8 * k) 8) ∧
    stored (.veSh e rs2 rs1 imm) 2 (fun k => w.extractLsb' (8 * k) 8) ∧
    stored (.veSb e rs2 rs1 imm) 1 (fun _ => w.extractLsb' 0 8) ∧
    stored (.veVst e vs rs1 imm) 64 (fun k => ((s.dev.eng e).lane vs.toNat (k / 4)).extractLsb' (8 * (k % 4)) 8))

/-- Bytes that enter the write buffer are in its youngest entry, which is of their line; the buffer never grows beyond
eight entries; with a free entry, or when the youngest entry is of the same line, memory stays as it was, and memory
changes at most in the bytes of the oldest entry otherwise. A store updates a line that the cache holds and
allocates none. LW of a running engine from the aligned address of a register (or of a reserved word) reads the
register by the engine's port, with what such a read does, and writes the word to rd; SW writes the whole word of
rs2 to the register by that port. SH and SB write the whole word with the bytes of rs2 in their places and the other
bytes as a read would return them; VST writes the sixteen words of the lanes in the order of their addresses. PC
advances by 4. Derived from spec/12_vertex_engines.md R310, spec/12_vertex_engines.md R311,
spec/12_vertex_engines.md R304, spec/00_scope.md R2. -/
def Obligations.EngWriteBuffers : Prop :=
  (∀ (d : Dev) (e base : Nat) (bytes : List (Nat × Byte)),
    let x := d.eng e
    let after := d.bufferStore e base bytes
    (∃ w, (after.eng e).wbuf.getLast? = some w ∧ w.base = base ∧ ∀ b ∈ bytes, b ∈ w.bytes) ∧
    (x.wbuf.length ≤ 8 → (after.eng e).wbuf.length ≤ 8) ∧
    (x.wbuf.length < 8 ∨ (∃ w, x.wbuf.getLast? = some w ∧ w.base = base) → after.mem = d.mem) ∧
    (∀ w rest a, x.wbuf = w :: rest → (∀ p ∈ w.bytes, a ≠ w.base + p.1) →
      Memory.read after.mem a = Memory.read d.mem a) ∧
    (x.cached base = none → d.cacheStore e base bytes = d) ∧
    (∀ c, x.cached base = some c → ((d.cacheStore e base bytes).eng e).cached base =
      some { c with bytes := bytes.foldl (fun l b => l.set b.1 b.2) c.bytes })) ∧
  (∀ (s : State) (e : Fin 16) (rd rs2 rs1 : Reg5) (imm : BitVec 16), CanRun s.dev e →
    let a := accessAddr s.dev e rs1 imm
    let w := (s.dev.eng e).sreg rs2.toNat
    let base := a / 4 * 4
    let old := s.dev.peek (.engine e) base
    let goes (i : Instr) (d : Dev) : Prop := Gives i s (d.setEng e { d.eng e with pc := ((d.eng e).pc + 4) % 2 ^ 32 })
    let merged (n : Nat) : Word := BitVec.ofNat 32 (((List.range 4).map fun k =>
      (if a % 4 ≤ k ∧ k < a % 4 + n then (w.extractLsb' (8 * (k - a % 4)) 8).toNat
       else (old.extractLsb' (8 * k) 8).toNat) * 2 ^ (8 * k)).sum)
    (a % 4 = 0 → viewAt e a = .register a →
      ScalarResult (.veLw e rd rs1 imm) s (s.dev.readAct (.engine e) a) e rd (s.dev.peek (.engine e) a) ∧
      goes (.veSw e rs2 rs1 imm) (s.dev.portWrite (.engine e) a w)) ∧
    (a % 2 = 0 → viewAt e base = .register base →
      goes (.veSh e rs2 rs1 imm) (s.dev.portWrite (.engine e) base (merged 2))) ∧
    (viewAt e base = .register base →
      goes (.veSb e rs2 rs1 imm) (s.dev.portWrite (.engine e) base (merged 1))) ∧
    (∀ vs : VReg, a % 64 = 0 → (∀ l : Fin 16, viewAt e (a + 4 * l) = .register (a + 4 * l)) →
      goes (.veVst e vs rs1 imm) ((List.range 16).foldl
        (fun d l => d.portWrite (.engine e) (a + 4 * l) ((s.dev.eng e).lane vs.toNat l)) s.dev)))

/-- BEQ, BNE, BLT, BGE, BLTU and BGEU of a running engine complete: when the condition of rs2 and rs1 holds PC becomes
PC + 4 + 4 x imm (sign-extended), otherwise PC + 4, modulo 2^32; no register changes and nothing else of the block
does. The order of the operands of the inequalities is the model's reading (log entry 26, DEDUCED). JAL of a running
engine writes PC + 4 to s31 and sets PC to PC + 4 + 4 x imm (26 bits, sign-extended); JALR to a multiple of 4 writes
PC + 4 to rd and sets PC to rs1 + imm, with rs1 read before rd is written. s0 takes no write and nothing else of the
block changes. Derived from spec/12_vertex_engines.md Table 12.4. Where it goes beyond these rules it is the model's
own choice or reading: log entry 26. -/
def Obligations.EngFlow : Prop :=
  (∀ (s : State) (e : Fin 16) (rs2 rs1 : Reg5) (imm : BitVec 16), CanRun s.dev e →
    let a := (s.dev.eng e).sreg rs2.toNat
    let b := (s.dev.eng e).sreg rs1.toNat
    let next := ((s.dev.eng e).pc + 4) % 2 ^ 32
    let taken := ((((s.dev.eng e).pc : Int) + 4 + 4 * imm.toInt) % 2 ^ 32).toNat
    FlowResult (.veBeq e rs2 rs1 imm) s e (if a = b then taken else next) ∧
    FlowResult (.veBne e rs2 rs1 imm) s e (if a ≠ b then taken else next) ∧
    FlowResult (.veBlt e rs2 rs1 imm) s e (if a.toInt < b.toInt then taken else next) ∧
    FlowResult (.veBge e rs2 rs1 imm) s e (if b.toInt ≤ a.toInt then taken else next) ∧
    FlowResult (.veBltu e rs2 rs1 imm) s e (if a.toNat < b.toNat then taken else next) ∧
    FlowResult (.veBgeu e rs2 rs1 imm) s e (if b.toNat ≤ a.toNat then taken else next)) ∧
  (∀ (s : State) (e : Fin 16) (rd rs1 : Reg5) (imm : BitVec 16) (off : BitVec 26), CanRun s.dev e →
    let link (i : Instr) (rd : Reg5) (pc : Nat) : Prop := ∃ x : Ve, Gives i s (s.dev.setEng e x) ∧
      SameButScalar x (s.dev.eng e) ∧ x.pc = pc ∧
      ∀ r : Reg5, x.sreg r.toNat = if r = rd ∧ r ≠ 0 then BitVec.ofNat 32 ((s.dev.eng e).pc + 4)
                                   else (s.dev.eng e).sreg r.toNat
    link (.veJal e off) 31 ((((s.dev.eng e).pc : Int) + 4 + 4 * off.toInt) % 2 ^ 32).toNat ∧
    (accessAddr s.dev e rs1 imm % 4 = 0 → link (.veJalr e rd rs1 imm) rd (accessAddr s.dev e rs1 imm)))

/-- VADD, VSUB, VMUL, VMULC, VMAG2, VSHR, VSHL, VCONJ, VSPLAT and VPUT of a running engine complete: each lane of vd
takes the value of Table 12.4 from the lanes of the sources before the instruction, products and shifts rounded to
nearest with ties away from zero and saturated to 16 bits; PC advances by 4 and nothing else of the block changes.
VDOT and VDOTC of a running engine add the sum over the sixteen lanes of the (conjugate) products to the accumulator
with sat48, ACLR clears it, AGETI and AGETQ write sat32 of its rounded part to rd, VGET writes a lane to rd; PC
advances by 4 and nothing else of the block changes. Derived from spec/12_vertex_engines.md R297,
spec/12_vertex_engines.md Table 12.4. Where it goes beyond these rules it is the model's own choice or reading: log
entry 2. -/
def Obligations.EngVectorUnit : Prop :=
  (∀ (s : State) (e : Fin 16) (vd vs1 vs2 : VReg) (rs : Reg5) (lane : BitVec 4) (sh : BitVec 5), CanRun s.dev e →
    let x := s.dev.eng e
    let aI (l : Fin 16) := cxI (x.lane vs1.toNat l)
    let aQ (l : Fin 16) := cxQ (x.lane vs1.toNat l)
    let bI (l : Fin 16) := cxI (x.lane vs2.toNat l)
    let bQ (l : Fin 16) := cxQ (x.lane vs2.toNat l)
    let n := 2 ^ sh.toNat
    let cx (i q : Int) : Word := mkCx (sat16 i) (sat16 q)
    VectorResult (.veVadd e vd vs1 vs2) s s.dev e vd (fun l => cx (aI l + bI l) (aQ l + bQ l)) ∧
    VectorResult (.veVsub e vd vs1 vs2) s s.dev e vd (fun l => cx (aI l - bI l) (aQ l - bQ l)) ∧
    VectorResult (.veVmul e vd vs1 vs2 sh) s s.dev e vd (fun l => 
      cx (rndDiv (aI l * bI l - aQ l * bQ l) n) (rndDiv (aI l * bQ l + aQ l * bI l) n)) ∧
    VectorResult (.veVmulc e vd vs1 vs2 sh) s s.dev e vd (fun l => 
      cx (rndDiv (aI l * bI l + aQ l * bQ l) n) (rndDiv (aQ l * bI l - aI l * bQ l) n)) ∧
    VectorResult (.veVmag2 e vd vs1 sh) s s.dev e vd (fun l => cx (rndDiv (aI l * aI l + aQ l * aQ l) n) 0) ∧
    VectorResult (.veVshr e vd vs1 sh) s s.dev e vd (fun l => cx (rndDiv (aI l) n) (rndDiv (aQ l) n)) ∧
    VectorResult (.veVshl e vd vs1 sh) s s.dev e vd (fun l => cx (aI l * n) (aQ l * n)) ∧
    VectorResult (.veVconj e vd vs1) s s.dev e vd (fun l => cx (aI l) (-aQ l)) ∧
    VectorResult (.veVsplat e vd rs) s s.dev e vd (fun _ => x.sreg rs.toNat) ∧
    VectorResult (.veVput e rs vd lane) s s.dev e vd (fun l => 
        if l.val = lane.toNat then x.sreg rs.toNat else x.lane vd.toNat l)) ∧
  (∀ (s : State) (e : Fin 16) (k : Fin 2) (vs1 vs2 : VReg) (rd : Reg5) (lane : BitVec 4) (sh : BitVec 5), CanRun s.dev e →
    let x := s.dev.eng e
    let aI (l : Nat) := cxI (x.lane vs1.toNat l)
    let aQ (l : Nat) := cxQ (x.lane vs1.toNat l)
    let bI (l : Nat) := cxI (x.lane vs2.toNat l)
    let bQ (l : Nat) := cxQ (x.lane vs2.toNat l)
    let total (f : Nat → Int) : Int := ((List.range 16).map f).sum
    let clip (n : Nat) (v : Int) : Int := max (-(2 ^ (n - 1))) (min v (2 ^ (n - 1) - 1))
    AccResult (.veVdot e k vs1 vs2) s s.dev e k (clip 48 (x.acc k 0 + total fun l => aI l * bI l - aQ l * bQ l))
      (clip 48 (x.acc k 1 + total fun l => aI l * bQ l + aQ l * bI l)) ∧
    AccResult (.veVdotc e k vs1 vs2) s s.dev e k (clip 48 (x.acc k 0 + total fun l => aI l * bI l + aQ l * bQ l))
      (clip 48 (x.acc k 1 + total fun l => aQ l * bI l - aI l * bQ l)) ∧
    AccResult (.veAclr e k) s s.dev e k 0 0 ∧
    ScalarResult (.veAgeti e rd k sh) s s.dev e rd (BitVec.ofInt 32 (clip 32 (rndDiv (x.acc k 0) (2 ^ sh.toNat)))) ∧
    ScalarResult (.veAgetq e rd k sh) s s.dev e rd (BitVec.ofInt 32 (clip 32 (rndDiv (x.acc k 1) (2 ^ sh.toNat)))) ∧
    ScalarResult (.veVget e rd vs1 lane) s s.dev e rd (x.lane vs1.toNat lane.toNat))

/-- CINV of a running engine completes. With rs1 = s0 the data cache is empty after it; with any other rs1 exactly the
line that holds the address in rs1 has gone. The write buffer and memory stay as they are, and PC advances by 4.
Formalises R307: "CINV with rs1 = s0 invalidates every line of the data cache." -/
def Obligations.EngCacheInvalidate : Prop :=
  ∀ (s : State) (e : Fin 16) (rs1 : Reg5), CanRun s.dev e →
    let x := s.dev.eng e
    ∃ l, Gives (.veCinv e rs1) s (s.dev.setEng e { x with cache := l, pc := (x.pc + 4) % 2 ^ 32 }) ∧
      (rs1 = 0 → l = []) ∧
      (rs1 ≠ 0 → l = x.cache.filter fun c => c.base != (x.sreg rs1.toNat).toNat / 64 * 64)

/-- WFE of a running engine clears EVL and completes when EVL is set or the request line is high; otherwise the engine
waits in WAITING at the same PC. ENGINE_WAKE of an engine that waits in WFE clears EVL and completes the WFE once
the condition holds, and does nothing before. ENG.KICK sets EVL in any state, and a rising edge of the request line
sets it. NOP of a running engine only advances PC. FENCE.W and HALT drain the write buffer first; HALT leaves the
engine HALTED with PC at the next instruction. SLEEP drains the buffer; when the wake condition holds it acts as
WFE, otherwise the engine waits in WAITING for the sleep of its domain. WRITE_BUFFER_DRAIN takes the oldest entry
from the buffer and writes its bytes, and only those, into memory. A drain leaves the buffer empty and changes only
bytes that its entries hold. Derived from spec/12_vertex_engines.md R308, spec/12_vertex_engines.md R306,
spec/12_vertex_engines.md R309, spec/12_vertex_engines.md R311. Where it goes beyond these rules it is the model's
own choice or reading: log entry 2. -/
def Obligations.EngControl : Prop :=
  (∀ (s : State) (e : Fin 16),
    let x := s.dev.eng e
    let wakes : Bool := x.evl || (s.dev.tgt e).line
    (CanRun s.dev e → wakes = true →
      Gives (.veWfe e) s (s.dev.setEng e { x with evl := false, pc := (x.pc + 4) % 2 ^ 32 })) ∧
    (CanRun s.dev e → wakes = false →
      Gives (.veWfe e) s (s.dev.setEng e { x with st := .waiting, wait := .wfe })) ∧
    (x.st = .waiting → x.wait = .wfe → wakes = true →
      Gives (.engineWake e) s (s.dev.setEng e { x with st := .running, wait := .none, evl := false
                                                       pc := (x.pc + 4) % 2 ^ 32 })) ∧
    (wakes = false → Gives (.engineWake e) s s.dev) ∧
    (∀ t : Dev, (t.engKickGo e).eng e = { t.eng e with evl := true }) ∧
    (∀ t : Dev, (t.tgt e).line = false → ((t.reline e).tgt e).line = true → ((t.reline e).eng e).evl = true)) ∧
  (∀ (s : State) (e : Fin 16),
    let x := s.dev.eng e
    let pc := (x.pc + 4) % 2 ^ 32
    let drained := s.dev.drainAll e
    (CanRun s.dev e → Gives (.veNop e) s (s.dev.setEng e { x with pc := pc })) ∧
    (CanRun s.dev e → Gives (.veFenceW e) s (drained.setEng e { x with wbuf := [], pc := pc })) ∧
    (CanRun s.dev e → Gives (.veHalt e) s (drained.setEng e { x with wbuf := [], st := .halted, pc := pc })) ∧
    (CanRun s.dev e → (x.evl || (s.dev.tgt e).line) = true →
      Gives (.veSleep e) s (drained.setEng e { x with wbuf := [], evl := false, pc := pc })) ∧
    (CanRun s.dev e → (x.evl || (s.dev.tgt e).line) = false → Reaches (.veSleep e) s fun d =>
      d.eng e = { x with wbuf := [], st := .waiting, wait := .sleep }) ∧
    (drained.eng e = { x with wbuf := [] } ∧ drained.regs = s.dev.regs ∧
      ∀ b, (∀ w ∈ x.wbuf, ∀ p ∈ w.bytes, b ≠ w.base + p.1) → Memory.read drained.mem b = Memory.read s.dev.mem b) ∧
    (∀ w rest, x.wbuf = w :: rest → Reaches (.writeBufferDrain e) s fun d =>
      d.eng e = { x with wbuf := rest } ∧
      (∀ b, (∀ p ∈ w.bytes, b ≠ w.base + p.1) → Memory.read d.mem b = Memory.read s.dev.mem b) ∧
      ((w.bytes.map Prod.fst).Nodup → ∀ p ∈ w.bytes, Memory.read d.mem (w.base + p.1) = p.2)))

/-- A load or store at an address that is no multiple of its size and JALR to one that is no multiple of 4 (cause 2), a
store into instruction memory (cause 4), a load from the gap above data memory in the self window (cause 3), a word
that no instruction has (cause 1) and a fetch at or beyond the end of instruction memory (cause 7) leave the engine
FAULTED with the cause, the PC of the instruction and the address of Table 12.5, with no register of it written.
Derived from spec/12_vertex_engines.md R305, spec/12_vertex_engines.md R303, spec/12_vertex_engines.md R302. Where
it goes beyond these rules it is the model's own choice or reading: log entry 26. -/
def Obligations.EngFaults : Prop :=
  ∀ (s : State) (e : Fin 16) (rd rs2 rs1 : Reg5) (vd vs : VReg) (imm : BitVec 16) (w : Word),
    let x := s.dev.eng e
    let a := accessAddr s.dev e rs1 imm
    let faulted (i : Instr) (cause addr : Nat) : Prop := Reaches i s fun d =>
      (d.eng e).st = .faulted ∧ (d.eng e).fcause = cause ∧ (d.eng e).fpc = x.pc ∧ (d.eng e).faddr = addr ∧
      (d.eng e).pc = x.pc ∧ (d.eng e).s = x.s ∧ (d.eng e).v = x.v ∧ (d.eng e).a = x.a
    (CanRun s.dev e → a % 4 ≠ 0 → faulted (.veLw e rd rs1 imm) 2 a ∧ faulted (.veSw e rs2 rs1 imm) 2 a ∧
      faulted (.veJalr e rd rs1 imm) 2 a) ∧
    (CanRun s.dev e → a % 2 ≠ 0 → faulted (.veLh e rd rs1 imm) 2 a ∧ faulted (.veLhu e rd rs1 imm) 2 a ∧
      faulted (.veSh e rs2 rs1 imm) 2 a) ∧
    (CanRun s.dev e → a % 64 ≠ 0 → faulted (.veVld e vd rs1 imm) 2 a ∧ faulted (.veVst e vs rs1 imm) 2 a) ∧
    (CanRun s.dev e → 0xF0000000 ≤ a → a < 0xF0010000 →
      (a % 4 = 0 → faulted (.veSw e rs2 rs1 imm) 4 a) ∧ (a % 2 = 0 → faulted (.veSh e rs2 rs1 imm) 4 a) ∧
      faulted (.veSb e rs2 rs1 imm) 4 a ∧ (a % 64 = 0 → faulted (.veVst e vs rs1 imm) 4 a)) ∧
    (CanRun s.dev e → 0xF0040000 ≤ a → a < 0xF0080000 →
      (a % 4 = 0 → faulted (.veLw e rd rs1 imm) 3 a) ∧
      (a % 2 = 0 → faulted (.veLh e rd rs1 imm) 3 a ∧ faulted (.veLhu e rd rs1 imm) 3 a) ∧
      faulted (.veLb e rd rs1 imm) 3 a ∧ faulted (.veLbu e rd rs1 imm) 3 a ∧
      (a % 64 = 0 → faulted (.veVld e vd rs1 imm) 3 a)) ∧
    (CanRun s.dev e → decodeVe e w = none → faulted (.illegalInstruction e w) 1 0) ∧
    (x.st = .running → 0x10000 ≤ x.pc → x.pc < 2 ^ 32 →
      faulted (.fetchFault e) 7 ((0xF0000000 + x.pc) % 2 ^ 32))

/-- For every engine instruction with every value of its operands, decoding its encoded word on its own engine gives
exactly that instruction. Derived from spec/12_vertex_engines.md R302, spec/12_vertex_engines.md Table 12.3,
spec/12_vertex_engines.md Table 12.4. -/
def Obligations.EngEncodingRoundTrip : Prop :=
  ∀ (i : Instr) (w : Word), encodeVe i = some w → ∃ e, decodeVe e w = some i

/-- Words written out from Tables 12.3 and 12.4: ADD s1, s2, s3; ADDI s1, s2, -1; SW s1, 4(s2); BEQ s1, s2, +1; JAL 0;
VMUL v1, v2, v3, 15; AGETQ s5 of a1 by 15; VDOT a1, v2, v3; HALT; and a word of opcode 0x3E, which is illegal.
Derived from spec/12_vertex_engines.md Table 12.3, spec/12_vertex_engines.md Table 12.4. -/
def Obligations.EngEncodingWords : Prop :=
  decodeVe 0 0b000000_00001_00010_00011_00000000000 = some (.veAdd 0 1 2 3) ∧
  decodeVe 0 0b000001_00001_00010_1111111111111111 = some (.veAddi 0 1 2 0xFFFF) ∧
  decodeVe 0 0b011000_00001_00010_0000000000000100 = some (.veSw 0 1 2 4) ∧
  decodeVe 0 0b100000_00001_00010_0000000000000001 = some (.veBeq 0 1 2 1) ∧
  decodeVe 0 0b101000_00000000000000000000000000 = some (.veJal 0 0) ∧
  decodeVe 0 0b110010_0001_0010_0011_01111_000000011 = some (.veVmul 0 1 2 3 15) ∧
  decodeVe 0 0b110011_00101_0001_0000_01111_00010001 = some (.veAgetq 0 5 1 15) ∧
  decodeVe 0 0b110100_0001_0010_0011_00000_000000001 = some (.veVdot 0 1 2 3) ∧
  decodeVe 0 0b111111_00000_00000_0000000000_000101 = some (.veHalt 0) ∧
  decodeVe 0 0b111110_00000000000000000000000000 = none

/-- While the units work, a write by a command, engine or DMA channel to a register without actions of its own and
without ST fields sets exactly the bits of its RW and LV fields to the written word and changes nothing else; a
register that holds only ST and RO fields keeps its live word under a command's port, and an engine's or channel's
write stages each of its ST fields in group 15. A bulk request writes no register. While the units work, a write of
1 to ARM by a command, engine or DMA channel arms an idle timebase and changes nothing else; it is refused, with no
change, in NO_REF, in RUN while anything is placed on the timeline, and changes nothing in ARMED; in RUN with
nothing placed the timebase is ARMED again with no arming edge seen, SYNC_OUT low, and no synthesiser stays READY.
Derived from spec/00_scope.md R2, spec/03_command_plane.md R93, spec/11_fleob_packets.md R291,
spec/02_time_and_release.md R44. Where it goes beyond these rules it is the model's own choice or reading: log
entries 2, 8, 31. -/
def Obligations.RegisterRows : Prop :=
  (∀ (s : State) (port : Port) (a v : Word) (r : Reg), s.dev.powered = true → placeAt a.toNat = .reg r →
    plainReg r = true →
    (port ≠ .bulk → r.stFields = [] → ∃ w : Word, Reaches (.registerWrite port a v) s (fun d => OnlyReg s.dev d r w) ∧
      ∀ i, w.getLsbD i = if (liveBits r).testBit i then v.getLsbD i else (s.dev.reg r).getLsbD i) ∧
    (∀ p, port = .cmd p → liveBits r = 0 →
      Reaches (.registerWrite port a v) s fun d => OnlyReg s.dev d r (s.dev.reg r)) ∧
    ((∃ e, port = .engine e) ∨ (∃ c, port = .dma c) → (s.dev.grp 15).st ≠ .accepted → s.dev.frozen r = false →
      liveBits r = 0 → Reaches (.registerWrite port a v) s fun d => d.reg r = s.dev.reg r ∧
        ∀ f ∈ r.stFields, d.stagedOf r.addr f.lo =
          some { addr := r.addr, lo := f.lo, width := f.width, grp := 15, val := v.toNat / 2 ^ f.lo % 2 ^ f.width }) ∧
    (port = .bulk → Gives (.registerWrite port a v) s s.dev)) ∧
  (∀ (s : State) (port : Port), s.dev.powered = true → port ≠ .bulk →
    (s.dev.tb.st = .idle → Gives (.arm port) s { s.dev with tb := { s.dev.tb with st := .armed, tick0At := none } }) ∧
    (s.dev.tb.st = .noRef ∨ s.dev.tb.st = .armed ∨ (s.dev.tb.st = .run ∧ s.dev.placed = true) →
      Gives (.arm port) s s.dev) ∧
    (s.dev.tb.st = .run → s.dev.placed = false → Reaches (.arm port) s fun d =>
      d.tb.st = .armed ∧ d.tb.tick0At = none ∧ d.tb.syncOut = false ∧ ∀ n : Fin 8, (d.syn n).st ≠ .ready))

/-- While the units work, TS_LO_READ by a command, an engine, a DMA channel or a bulk request latches bits 47:32 of the
present TIMESTAMP for that port, and for no port with another latch; in RUN a read of TS_HI by the port then gives
those bits, the read of TS_LO gives bits 31:0, and nothing else changes. While no running channel holds a check
unit, CU_INIT sets CU_VAL to the initial value of its algorithm, CU_FEED feeds the four bytes of a word, least
significant first, CU_FEED8 one byte, and a write of CU_VAL restores it; nothing else changes. While a running chip
channel holds the unit all four are ignored. Derived from spec/02_time_and_release.md R46, spec/11_fleob_packets.md
R294, spec/11_fleob_packets.md Table 11.2. Where it goes beyond these rules it is the model's own choice or reading:
log entries 2, 8, 31. -/
def Obligations.TimestampAndCheck : Prop :=
  (∀ (s : State) (port : Port), s.dev.powered = true → Reaches (.tsLoRead port) s fun d =>
    { d with tb := { d.tb with latch := s.dev.tb.latch } } = s.dev ∧
    (s.dev.running = true → (d.regWord port .tsHi).toNat * 2 ^ 32 + (s.dev.regWord port .tsLo).toNat = s.dev.ts.toNat) ∧
    ∀ q, portLatch q ≠ portLatch port → d.regWord q .tsHi = s.dev.regWord q .tsHi) ∧
  (∀ (s : State) (k : Fin 4) (v : Word) (b : Byte), s.dev.powered = true →
    let alg := s.dev.f (.cuCfg k) 1 0
    let old := (s.dev.reg (.cuVal k)).toNat
    (s.dev.cuBound k = false →
      Reaches (.cuInit k) s (fun d => OnlyReg s.dev d (.cuVal k) (mkw (crcInit alg))) ∧
      Reaches (.cuFeed k v) s (fun d => OnlyReg s.dev d (.cuVal k)
        (mkw (crcByte alg (crcByte alg (crcByte alg (crcByte alg old (v.extractLsb' 0 8)) (v.extractLsb' 8 8))
          (v.extractLsb' 16 8)) (v.extractLsb' 24 8)))) ∧
      Reaches (.cuFeed8 k b) s (fun d => OnlyReg s.dev d (.cuVal k) (mkw (crcByte alg old b))) ∧
      Reaches (.cuValRestore k v) s (fun d => OnlyReg s.dev d (.cuVal k) v)) ∧
    (s.dev.cuBound k = true → Gives (.cuInit k) s s.dev ∧ Gives (.cuFeed k v) s s.dev ∧
      Gives (.cuFeed8 k b) s s.dev ∧ Gives (.cuValRestore k v) s s.dev))

/-- With L = FRAME x 19,660,800 + TICK and S = 2^23 x 19,660,800, a TIMESTAMP T lies after the present time N exactly
when (L(T) - L(N)) mod S lies between 1 and S/2 - 1; the present TIMESTAMP in RUN has the linear tick of the
present. Formalises R42: "A TIMESTAMP T lies after the present time N when (L(T) − L(N)) mod S lies between 1 and
S/2 − 1. Otherwise T lies at or before N." -/
def Obligations.LinearTickOrder : Prop :=
  ∀ (d : Dev) (t : BitVec 48), d.running = true →
    let L (x : BitVec 48) : Int := ((x.toNat / 2 ^ 25 : Nat) : Int) * 19660800 + ((x.toNat % 2 ^ 25 : Nat) : Int)
    let S : Int := 2 ^ 23 * 19660800
    let x := (L t - L d.ts) % S
    ((d.ahead t).isSome = true ↔ 1 ≤ x ∧ x ≤ S / 2 - 1) ∧ (∀ n, d.ahead t = some n → (n : Int) = x)

/-- While the units work, EN_SET and EN_CLR set the enable of source n (1 to 511) and keep its queued records; PEND_SET
of a source with an empty queue fires it with the zero record, if it is enabled, and changes nothing otherwise;
PEND_CLR empties its queue and clears LOST. No other source changes, and nothing outside the hub but event latches
of engines. Source 0 takes none of them. While the units work, a write of an array word acts on the 32 sources of
the word: EN takes the bit; PEND 0 empties the queue, PEND 1 leaves a pending source and fires an enabled idle one
with the zero record; ACT 0 ends the activity of a source and ACT 1 leaves it. Sources of other words keep their
state, and source 0 takes none. While the units work, SOURCE_FIRING of an enabled source with a record that Table 14.1
lists for it appends the record when fewer than eight are queued and sets LOST when eight are; a disabled source
discards it. No other source changes, nothing outside the hub but event latches of engines. With a record that Table
14.1 does not list it changes nothing. After the hub re-evaluates its lines, the line of
each target is high exactly when it holds fewer than four claims and some source is deliverable to it: enabled,
pending, not active, routed to it, with a priority above its threshold. Derived from spec/14_event_hub.md R344,
spec/14_event_hub.md R333, spec/14_event_hub.md Table 14.2, spec/14_event_hub.md R343, spec/14_event_hub.md R334.
Where it goes beyond these rules it is the model's own choice or reading: log entries 2, 8. -/
def Obligations.HubSignals : Prop :=
  (∀ (s : State) (n : BitVec 9), s.dev.powered = true →
    let x := s.dev.src n.toNat
    let becomes (i : Instr) (y : Src) : Prop := Reaches i s fun d =>
      d.src n.toNat = y ∧ (∀ m, m ≠ n.toNat → d.src m = s.dev.src m) ∧ OnlyHub s.dev d
    (n ≠ 0 →
      becomes (.enSet n) { x with en := true } ∧ becomes (.enClr n) { x with en := false } ∧
      becomes (.pendClr n) { x with q := [], lost := false } ∧
      (x.q = [] → x.en = true →
        becomes (.pendSet n) { x with q := [{ cause := 0, loc := 0, detail := 0, ts := s.dev.ts }] }) ∧
      (x.q ≠ [] ∨ x.en = false → becomes (.pendSet n) x)) ∧
    (n = 0 → Gives (.enSet n) s s.dev ∧ Gives (.enClr n) s s.dev ∧ Gives (.pendSet n) s s.dev ∧
      Gives (.pendClr n) s s.dev)) ∧
  (∀ (s : State) (w : Fin 16) (v : Word), s.dev.powered = true →
    let acts (i : Instr) (f : Src → Bool → Src) : Prop := Reaches i s fun d =>
      OnlyHub s.dev d ∧ ∀ n, n < 512 → d.src n =
        if n ≠ 0 ∧ n / 32 = w.val then f (s.dev.src n) (v.getLsbD (n % 32)) else s.dev.src n
    let zero : Rec := { cause := 0, loc := 0, detail := 0, ts := s.dev.ts }
    acts (.enArrayWrite w v) (fun x b => { x with en := b }) ∧
    acts (.pendArrayWrite w v) (fun x b =>
      if b then (if x.q = [] ∧ x.en = true then { x with q := [zero] } else x) else { x with q := [], lost := false }) ∧
    acts (.actArrayWrite w v) (fun x b => if b = false ∧ x.act = true then { x with act := false, owner := 31 } else x)) ∧
  (∀ (s : State) (n : BitVec 9) (r : Rec), s.dev.powered = true →
    let x := s.dev.src n.toNat
    (s.dev.sourceRec n.toNat r = true → Reaches (.sourceFiring n r) s fun d =>
      d.src n.toNat = (if x.en = false then x else if x.q.length < 8 then { x with q := x.q ++ [r] }
                       else { x with lost := true }) ∧
      (∀ m, m ≠ n.toNat → d.src m = s.dev.src m) ∧ OnlyHub s.dev d) ∧
    (s.dev.sourceRec n.toNat r = false → Gives (.sourceFiring n r) s s.dev)) ∧
  (∀ (d : Dev) (t : Fin 20),
    ((d.relines.tgt t).line = true ↔ (d.tgt t).claims.length < 4 ∧ d.best t ≠ 0) ∧
    (d.best t ≠ 0 → d.deliverable t (d.best t) = true ∧
      ∀ e ∈ d.hub.src, d.deliverable t e.1 = true → d.prio e.1 ≤ d.prio (d.best t)) ∧
    (d.best t = 0 → ∀ e ∈ d.hub.src, e.1 ≠ 0 → d.deliverable t e.1 = false))

/-- While the units work, TGT_CLAIM of an engine target (0 to 15) that holds fewer than four claims and has a
deliverable source takes the oldest record of the best source to TGT_INFO together with LOST, clears LOST, makes the
source active with that owner, and adds it to the target's claims; of any target with nothing deliverable it changes
no source. A host channel claims nothing. While the units work, HOST_CHANNEL_CLAIM of channel c with a pending edge,
fewer than four claims and a deliverable source takes the record of the best source and sends one EVENT packet with
its number, channel and LOST on VC0 of group H while a single chip or head has group H in RUN; with no edge it
changes nothing, and it defers while its path has no room. Derived from spec/14_event_hub.md R335,
spec/14_event_hub.md R338, spec/14_event_hub.md R339. Where it goes beyond these rules it is the model's own choice
or reading: log entries 2, 8. -/
def Obligations.HubClaims : Prop :=
  (∀ (s : State) (t : Fin 20), s.dev.powered = true →
    let x := s.dev.tgt t
    let n := s.dev.best t
    let y := s.dev.src n
    (t.val < 16 → x.claims.length < 4 → n ≠ 0 → ∀ r rest, y.q = r :: rest → Reaches (.tgtClaim t) s fun d =>
      d.src n = { y with q := rest, lost := false, act := true, owner := t } ∧
      (∀ m, m ≠ n → d.src m = s.dev.src m) ∧ (d.tgt t).claims = x.claims ++ [n] ∧
      (d.tgt t).info = some (n, r, y.lost) ∧ OnlyHub s.dev d) ∧
    (16 ≤ t.val ∨ n = 0 ∨ 4 ≤ x.claims.length → Reaches (.tgtClaim t) s fun d =>
      (∀ m, d.src m = s.dev.src m) ∧ (d.tgt t).claims = x.claims ∧ OnlyHub s.dev d)) ∧
  (∀ (s : State) (c : Fin 4), s.dev.powered = true →
    let t := 16 + c.val
    let x := s.dev.tgt t
    let n := s.dev.best t
    let y := s.dev.src n
    (x.edge = true → x.claims.length < 4 → n ≠ 0 → s.dev.hostSide = true → s.dev.groupRun 0 = true →
      ∀ r rest, y.q = r :: rest → Reaches (.hostChannelClaim c) s fun d =>
        d.queueOf 0 0 = s.dev.queueOf 0 0 ++ [.event { source := n, chan := c, lost := y.lost, rec_ := r }] ∧
        (d.src n).act = true ∧ (d.src n).owner = t ∧ (d.src n).q = rest) ∧
    (x.edge = false ∨ s.dev.eventWay = .wait → Gives (.hostChannelClaim c) s s.dev))

/-- A write of source n to TGT_DONE of t clears ACT of n when ACT is 1 with owner t, and is ignored otherwise. A firing
of an active source queues its record and leaves it active, pending and active at once; after the completion it is
deliverable again under the conditions of R334, with its own records. Formalises R336: "A write of source s to
TGT_DONE of t completes s when ACT of s is 1 with owner t, and clears ACT. Otherwise the write is ignored." -/
def Obligations.HubCompletion : Prop :=
  ∀ (s : State) (t : Fin 20) (n : BitVec 9) (r : Rec), s.dev.powered = true →
    let x := s.dev.src n.toNat
    (n ≠ 0 → x.act = true → x.owner = t.val → Reaches (.tgtDone t n) s fun d =>
      (d.src n.toNat).act = false ∧ (d.src n.toNat).q = x.q ∧ (∀ m, m ≠ n.toNat → d.src m = s.dev.src m) ∧
      OnlyHub s.dev d ∧
      ∀ u, d.deliverable u n.toNat = (x.en && !x.q.isEmpty && s.dev.routed n.toNat u &&
        decide (s.dev.thresh u < s.dev.prio n.toNat))) ∧
    (x.act = false ∨ x.owner ≠ t.val → Gives (.tgtDone t n) s s.dev) ∧
    (n ≠ 0 → x.act = true → x.en = true → x.q.length < 8 →
      ((s.dev.fire n.toNat r).src n.toNat).act = true ∧ ((s.dev.fire n.toNat r).src n.toNat).q = x.q ++ [r])

/-- While the units work, START of an idle channel with a non-zero COUNT and a good configuration enters RUN without a
pacing queue and otherwise PACED or RUN as its request stands, with its errors cleared; with a bad configuration it
halts with the configuration error; START of a channel that is not idle or has COUNT 0 changes nothing. ABORT
returns a paced or halted channel, or one between bursts, to IDLE, and waits for the beat in progress. RESUME
re-enters from HALTED only. While the units work, a write of PQ_ADD adds to LEVEL of its queue, saturating at
65,535, and changes no other register; a channel of the unit that names the queue and is PACED enters RUN when the
level has reached HIGH, one between bursts whose request does not stand waits in PACED, and other channels stay as they
were. Derived from spec/13_dma.md R319, spec/13_dma.md R327,
spec/13_dma.md R323, spec/13_dma.md Table 13.2. Where it goes beyond these rules it is the model's own choice or
reading: log entries 2, 8, 16. -/
def Obligations.DmaRegisters : Prop :=
  (∀ (s : State) (ch : Fin 48), s.dev.powered = true →
    let x := s.dev.chan ch
    let good := s.dev.dmaConfigBad ch = false ∧ s.dev.dmaCount ch ≠ 0
    let entered (i : Instr) : Prop := Reaches i s fun d =>
      (d.chan ch).st = (if s.dev.dmaQid ch = 0 ∨ s.dev.dmaRequest ch = true then .run else .paced) ∧
      (d.chan ch).err = 0 ∧ (d.chan ch).retry = 0 ∧ (d.chan ch).left = 0 ∧ d.regs = s.dev.regs ∧ d.mem = s.dev.mem ∧
      ∀ c, c ≠ ch.val → d.chan c = s.dev.chan c
    let halted (i : Instr) : Prop := Reaches i s fun d =>
      (d.chan ch).st = .halted ∧ (d.chan ch).err = 3 ∧ d.regs = s.dev.regs ∧ d.mem = s.dev.mem
    (x.st = .idle → good → entered (.dmaStart ch)) ∧ (x.st = .halted → good → entered (.resume ch)) ∧
    (s.dev.dmaCount ch ≠ 0 → s.dev.dmaConfigBad ch = true →
      (x.st = .idle → halted (.dmaStart ch)) ∧ (x.st = .halted → halted (.resume ch))) ∧
    (x.st ≠ .idle ∨ s.dev.dmaCount ch = 0 → Gives (.dmaStart ch) s s.dev) ∧
    (x.st ≠ .halted ∨ s.dev.dmaCount ch = 0 → Gives (.resume ch) s s.dev) ∧
    (x.st = .idle → Gives (.dmaAbortBit ch) s s.dev) ∧
    (x.st = .run → x.left ≠ 0 → Gives (.dmaAbortBit ch) s (s.dev.setChan ch { x with abort := true })) ∧
    (x.st = .paced ∨ x.st = .halted ∨ (x.st = .run ∧ x.left = 0) → Reaches (.dmaAbortBit ch) s fun d =>
      (d.chan ch).st = .idle ∧ (d.chan ch).err = 0 ∧ d.regs = s.dev.regs ∧ d.mem = s.dev.mem)) ∧
  (∀ (s : State) (u : Fin 5) (k : Fin 16) (v : BitVec 16), s.dev.powered = true →
    let level := min 65535 (s.dev.f (.pqLevel u k) 15 0 + v.toNat)
    Reaches (.pqAddWrite u k v) s fun d =>
      d.reg (.pqLevel u k) = mkw level ∧ (∀ r, r.addr ≠ (Reg.pqLevel u k).addr → d.reg r = s.dev.reg r) ∧
      d.mem = s.dev.mem ∧
      ∀ ch, ch < 48 → d.chan ch =
        if dmaUnit ch = u.val ∧ s.dev.dmaQid ch = k.val + 1 then
          (let req := if s.dev.dmaHigh ch ≤ level then true else if level ≤ s.dev.dmaLow ch then false
                      else (s.dev.chan ch).req
           let x := s.dev.chan ch
           if x.st = .paced ∧ req = true then { x with req := req, st := .run }
           else if x.st = .run ∧ x.left = 0 ∧ req = false then { x with req := req, st := .paced, stalled := false }
           else { x with req := req })
        else s.dev.chan ch)

/-- While the units work, PS_REQ OP 1 of an awake domain (0 to 135) whose precondition holds on the projected state
queues its sleep and the domain reads requested; one whose precondition fails is ignored. OP 0 of an awake domain
with no sleep queued or running changes nothing; of a sleeping domain it queues the wake behind those of the sleeping
domains that contain it; of one with sleeps that wait for the mutex it withdraws them, which leaves it awake when no
transition of it is due. A request for a domain beyond 135 is ignored. PL_MIN deeper than the step that the ladder
heads for moves it there at once when the mutex is free, and is queued as its next step while a transition holds the
mutex; a changed PL_MIN no deeper takes the mutex for 2 us with the step as it is, or queues that; an equal one no
deeper changes nothing. Derived from spec/15_power_and_heat.md R350, spec/15_power_and_heat.md R352,
spec/15_power_and_heat.md R353, spec/15_power_and_heat.md R360. Where it goes beyond
these rules it is the model's own choice or reading: log entries 2, 8, 15. -/
def Obligations.PowerRequests : Prop :=
  (∀ (s : State) (n : BitVec 9), s.dev.powered = true → 135 < n.toNat →
    Gives (.psReqSleep n) s s.dev ∧ Gives (.psReqWake n) s s.dev) ∧
  ∀ (s : State) (n : BitVec 9) (v : BitVec 3), s.dev.powered = true → n.toNat ≤ 135 →
    let x := s.dev.dom n.toNat
    let p := s.dev.pwr
    (x.st = .awake → s.dev.projectAll.sleepOk n.toNat = true → Gives (.psReqSleep n) s
      (((s.dev.setDom n.toNat { x with held := true, st := .requested }).setPwr
        { (s.dev.setDom n.toNat { x with held := true, st := .requested }).pwr with
          sleeps := p.sleeps ++ [{ d := n.toNat, cmd := none }] }))) ∧
    (s.dev.projectAll.sleepOk n.toNat = false → Gives (.psReqSleep n) s s.dev) ∧
    (x.st = .awake → s.dev.sleepRuns n.toNat = false → s.dev.wakeDue n.toNat = false →
      (∀ r ∈ p.sleeps, r.d ≠ n.toNat) → Gives (.psReqWake n) s s.dev) ∧
    (x.st = .asleep → s.dev.wakeDue n.toNat = false → (∀ r ∈ p.sleeps, r.d ≠ n.toNat) → Reaches (.psReqWake n) s fun d =>
      d.wakeDue n.toNat = true ∧ { d with pwr := p } = s.dev ∧ d.pwr.sleeps = p.sleeps ∧
      (∃ l, d.pwr.wakes = p.wakes ++ l ++ [{ d := n.toNat, cmd := none }]) ∧
      (n.toNat ≠ 135 → s.dev.asleep 135 = true → d.wakeDue 135 = true) ∧
      (∀ q, domQuad n.toNat = some q → s.dev.asleep (128 + q) = true → d.wakeDue (128 + q) = true)) ∧
    ((∃ r ∈ p.sleeps, r.d = n.toNat) → Reaches (.psReqWake n) s fun d =>
      let due := s.dev.wakeDue n.toNat = true ∨ s.dev.sleepRuns n.toNat = true ∨ x.st = .asleep
      d.pwr.sleeps = p.sleeps.filter (fun r => r.d != n.toNat) ∧
      (due → d.wakeDue n.toNat = true ∧ d.dom n.toNat = x) ∧
      (¬ due → d.pwr.wakes = p.wakes ∧ (d.dom n.toNat).st = .awake ∧ (d.dom n.toNat).held = false)) ∧
    (v.toNat ≤ s.dev.ladder → v.toNat = s.dev.f .plMin 2 0 → Reaches (.plMinWrite v) s fun d =>
      d.f .plMin 2 0 = v.toNat ∧ { d with regs := s.dev.regs } = s.dev) ∧
    (v.toNat ≤ s.dev.ladder → v.toNat ≠ s.dev.f .plMin 2 0 → p.cur = none → p.thermal = [] →
      Reaches (.plMinWrite v) s fun d => d.f .plMin 2 0 = v.toNat ∧
        { d with regs := s.dev.regs, pwr := p } = s.dev ∧
        d.pwr = { p with cur := some { kind := .thermal, req := { d := 0 }, ends := s.dev.now + us 2 } }) ∧
    (s.dev.ladder < v.toNat → p.cur = none → p.thermal = [] → Reaches (.plMinWrite v) s fun d =>
      d.f .plMin 2 0 = v.toNat ∧ d.pwr.step = v.toNat ∧ d.pwr.thermal = [] ∧
      d.pwr.cur = some { kind := .thermal, req := { d := 0 }, ends := s.dev.now + us 2 }) ∧
    (s.dev.ladder < v.toNat ∨ v.toNat ≠ s.dev.f .plMin 2 0 → p.cur ≠ none → Reaches (.plMinWrite v) s fun d =>
      d.f .plMin 2 0 = v.toNat ∧ d.pwr = { p with thermal := p.thermal ++ [max v.toNat s.dev.ladder] })

/-- REF_DETECTED in NO_REF sets REF_SEL and moves the timebase to IDLE, and does nothing in another state. ARMING_EDGE
in ARMED reads FRAME_NEXT and fixes tick 0 at 64 ticks on; a second edge does nothing. TIMEBASE_RUN at that tick
enters RUN with the TIMESTAMP at tick 0 of frame FRAME_NEXT, FRAME_OK and SYNC_OUT set, and queues the phase
measurement of each synthesiser in PHASE. In RUN a FRAME edge sets FRAME_OK when it falls at tick 0 of a frame and
clears it otherwise. At a frame start the clock stands at the start, FRAME_OK is 1 exactly when an edge fell there,
SYNC_OUT goes high, and the next frame starts 19,660,800 ticks later; a head also sends one frame marker with its
frame number, and no other chip does. 64 ticks after a frame start SYNC_OUT goes low. Derived from
spec/02_time_and_release.md R43, spec/02_time_and_release.md R44, spec/02_time_and_release.md R66,
spec/04_rf_front.md R105, spec/02_time_and_release.md R45, spec/02_time_and_release.md R65. Where it goes beyond
these rules it is the model's own choice or reading: log entries 2, 8, 36. -/
def Obligations.Timebase : Prop :=
  (∀ (s : State) (sel : RefSel), s.dev.powered = true →
    let tb := s.dev.tb
    (s.dev.boot.phase = .up → tb.st = .noRef → Reaches (.refDetected sel) s fun d =>
      d.tb = { tb with st := .idle, refSel := match sel with | .f122 => 1 | .f245 => 2 | .f491 => 3 } ∧
      d.regs = s.dev.regs ∧ d.mem = s.dev.mem) ∧
    (tb.st ≠ .noRef → Gives (.refDetected sel) s s.dev) ∧
    (tb.st = .armed → tb.tick0At = none → Gives .armingEdge s
      { s.dev with tb := { tb with frame0 := s.dev.f .frameNext 22 0, tick0At := some (s.dev.now + 64) } }) ∧
    (tb.st ≠ .armed ∨ tb.tick0At.isSome = true → Gives .armingEdge s s.dev) ∧
    (∀ t, tb.st = .armed → tb.tick0At = some t → tb.frame0 < 2 ^ 23 → Reaches .timebaseRun s fun d =>
      d.now = max s.dev.now t ∧ d.tb.st = .run ∧ d.ts.toNat = tb.frame0 * 2 ^ 25 ∧ d.tb.frameOk = true ∧
      d.tb.syncOut = true ∧ d.tb.frameAt = d.now + 19660800 ∧ d.regs = s.dev.regs ∧
      ∀ n : Fin 8, (s.dev.syn n).st = .phase → { syn := n, kind := .measure } ∈ (d.res (n / 2)).waiting)) ∧
  (∀ (s : State), s.dev.powered = true →
    let tb := s.dev.tb
    (s.dev.running = true → (s.dev.now - tb.t0) % 19660800 = 0 →
      Gives .frameEdge s { s.dev with tb := { tb with frameOk := true, edgeAt := some s.dev.now } }) ∧
    (s.dev.running = true → (s.dev.now - tb.t0) % 19660800 ≠ 0 →
      Gives .frameEdge s { s.dev with tb := { tb with frameOk := false } }) ∧
    (s.dev.running = true → Reaches .frameStart s fun d =>
      d.now = max s.dev.now tb.frameAt ∧
      d.tb = { tb with frameOk := decide (tb.edgeAt = some tb.frameAt), syncOut := true
                       frameAt := tb.frameAt + 19660800 } ∧ d.regs = s.dev.regs ∧ d.mem = s.dev.mem ∧
      d.queueOf 2 1 = (if s.dev.role = 1 then s.dev.queueOf 2 1 ++ [.lctl 3 (BitVec.ofNat 64 (d.frameNo d.now))]
                       else s.dev.queueOf 2 1)) ∧
    (s.dev.running = false → Gives .frameEdge s s.dev ∧ Gives .frameStart s s.dev) ∧
    (tb.syncOut = true → Gives .syncOutLow s
      { s.dev with now := max s.dev.now (tb.frameAt - 19660800 + 64), tb := { tb with syncOut := false } }) ∧
    (tb.syncOut = false → Gives .syncOutLow s s.dev))

/-- SLACK_MEASUREMENT replaces the slack of its fabric, by 255 when the configuration asks nothing of it (which
configurations those are is the model's reading, log entry 35); below WARN it fires SLACK_LOW of that fabric once,
and again only after the slack has read WARN + 4 or more. FABRIC_VOLTAGE_STEP moves the code of each awake fabric by
at most one (5 mV): down when above the cap of the ladder step, up when the slack is below TARGET and the cap
allows, down when the slack is at TARGET + 8 or more; a sleeping fabric keeps its code. HOUSEKEEPING_CONVERSION in a
round replaces the reading of the next channel, a temperature clipped to 16 bits or a voltage in mV, and the next
conversion follows 200 us later. HK_ROUND after the 40th starts a new round: a sensor that failed in this round is
not valid; the governing temperature is absent exactly when no sensor is valid, and then the ladder heads for step
7; at or above SETPOINT for the second round it heads one step deeper; source 177 fires. Before the 40th it changes
nothing, and a conversion beyond it changes nothing. Derived from spec/02_time_and_release.md R59,
spec/02_time_and_release.md R62, spec/15_power_and_heat.md R354, spec/15_power_and_heat.md R355,
spec/15_power_and_heat.md R356, spec/15_power_and_heat.md R357, spec/15_power_and_heat.md R358,
spec/15_power_and_heat.md R360. Where it goes beyond these rules it is the model's own choice or reading: log
entries 2, 5, 8, 15, 35. -/
def Obligations.Monitors : Prop :=
  (∀ (s : State) (f : Fin 5) (v : Byte), s.dev.powered = true →
    let warn := s.dev.f .slackCfg 7 0
    let source := 88 + f.val
    let x := s.dev.src source
    let now := if s.dev.noDemand f = true then 255 else v.toNat
    Reaches (.slackMeasurement f v) s (fun d => d.slack f = now ∧ d.regs = s.dev.regs ∧
      d.slackLow f = (if now < warn then true else if warn + 4 ≤ now then false else s.dev.slackLow f) ∧
      (d.src source).q = (if now < warn ∧ s.dev.slackLow f = false ∧ x.en = true ∧ x.q.length < 8
        then x.q ++ [{ cause := 0, loc := if f.val < 4 then s.dev.locOf 1 f else s.dev.locOf 0 0
                       detail := BitVec.ofNat 16 now, ts := s.dev.ts }] else x.q)) ∧
    Reaches .fabricVoltageStep s fun d =>
      let cap := s.dev.f (.plStep s.dev.pwr.step) 29 24
      let target := max 64 (s.dev.f .slackCfg 15 8)
      { d with tb := { d.tb with fabV := s.dev.tb.fabV } } = s.dev ∧
      ∀ i : Fin 5, d.fabV i =
        if s.dev.fabAwake i = false then s.dev.fabV i
        else if cap < s.dev.fabV i then s.dev.fabV i - 1
        else if s.dev.slack i < target ∧ s.dev.fabV i < cap then s.dev.fabV i + 1
        else if target + 8 ≤ s.dev.slack i then s.dev.fabV i - 1
        else s.dev.fabV i) ∧
  (∀ (s : State) (v : Int), s.dev.powered = true → -32768 ≤ v → v < 65536 →
    let p := s.dev.pwr
    let ch := p.conv
    (ch < 40 → Reaches (.housekeepingConversion v) s fun d => d.now = max s.dev.now p.convAt ∧ d.pwr.conv = ch + 1 ∧
      d.pwr.convAt = p.convAt + us 200 ∧ d.regs = s.dev.regs ∧ d.mem = s.dev.mem ∧
      (ch < 24 → d.sensor ch = { s.dev.sensor ch with temp := min v 32767 }) ∧
      (24 ≤ ch → ch < 32 → (d.supply (ch - 24)).mv = (v.toNat) % 65536) ∧
      (32 ≤ ch → (d.auxMon (ch - 32)).mv = v.toNat % 65536)) ∧
    (40 ≤ ch → Gives (.housekeepingConversion v) s s.dev) ∧
    (ch = 40 → Reaches .hkRound s fun d => d.now = s.dev.now ∧ d.pwr.conv = 0 ∧ d.regs = s.dev.regs ∧ d.mem = s.dev.mem ∧
      (∀ i, i < 24 → d.sensor i = nextSensor (s.dev.sensor i) (s.dev.sensorBad i) ∧
        (s.dev.sensorBad i = true → (s.dev.sensor i).failed = false → (d.sensor i).valid = false)) ∧
      (d.pwr.nogov = true ↔ ∀ i, i < 24 → (d.sensor i).valid = false) ∧ (d.pwr.nogov = true → d.ladder = 7) ∧
      (d.pwr.nogov = false → 8 * s.dev.f .pmCfg 15 8 ≤ d.pwr.tgov →
        d.pwr.hot = min 15 (p.hot + 1) ∧ (1 ≤ p.hot → d.ladder = min 7 (s.dev.ladder + 1)) ∧
        (p.hot = 0 → d.ladder = s.dev.ladder)) ∧
      ((s.dev.src 177).en = true → (s.dev.src 177).q = [] →
        (d.src 177).q = [{ cause := 0, loc := s.dev.locOf 0 0, detail := 0, ts := s.dev.ts }])) ∧
    (ch ≠ 40 → Gives .hkRound s s.dev))

/-- SYNTH_OP_GRANT with the shared resource of the quadrant free gives it to the first waiting operation, and a relock
enters BANDCAL with the divider of its frequency, the lock detector low (a reading of the model, log entry 12).
BANDCAL_END of a relock that still counts frees the resource at 20 us and enters SETTLE. LOCK in SETTLE enters PHASE
and, in RUN, queues the phase measurement; RELOCK_FAIL in SETTLE at 60 us leaves a failed recovery UNLOCKED. Where a
further commanded relock waits behind the one that locks or the recovery that fails, the synthesiser instead enters
WAIT with that relock queued. RELOCK_FAIL of a relock that is no recovery sends it to WAIT for a recovery. LOCK_LOST
of a synthesiser in PHASE or READY reports LOCK_LOST of its quadrant (the record of Table 1.8 queues at its source
when that is enabled and not full), puts the synthesiser in WAIT with its class-1 recovery relock queued, and leaves
no TX cell that selects it in ON and no FE_PA of such a cell up that was ON; in another state nothing but what its
calibration run holds against it changes. Derived from spec/01_array_hierarchy.md R24, spec/04_rf_front.md R100,
spec/04_rf_front.md R101, spec/04_rf_front.md R102, spec/04_rf_front.md R105, spec/04_rf_front.md R103,
spec/04_rf_front.md R115, spec/01_array_hierarchy.md Table 1.8. Where it goes beyond these rules it is the model's
own choice or reading: log entries 2, 5, 8, 12. -/
def Obligations.Synthesisers : Prop :=
  (∀ (s : State) (q : Fin 4) (n : Fin 8), s.dev.powered = true →
    let x := s.dev.syn n
    let r := s.dev.res (n / 2)
    (∀ o rest, (s.dev.res q).run = none → (s.dev.res q).waiting = o :: rest →
      (o.kind = .measure → Gives (.synthOpGrant q) s
        (s.dev.setRes q { run := some o, since := s.dev.now, waiting := rest })) ∧
      (o.kind ≠ .measure → Gives (.synthOpGrant q) s
        ((s.dev.setRes q { run := some o, since := s.dev.now, waiting := rest }).setSyn o.syn
          { s.dev.syn o.syn with st := .bandcal, lock := false, calAt := s.dev.now
                                 div := dividerCode (s.dev.f (.synFreq o.syn) 23 0) }))) ∧
    ((s.dev.res q).run.isSome = true ∨ (s.dev.res q).waiting = [] → Gives (.synthOpGrant q) s s.dev) ∧
    (∀ o, r.run = some o → o.syn = n.val → o.kind ≠ .measure → x.drop = false → Reaches (.bandcalEnd n) s fun d =>
      d.now = max s.dev.now (r.since + us 20) ∧ d.syn n = { x with st := .settle } ∧
      d.res (n / 2) = { r with run := none } ∧ d.regs = s.dev.regs) ∧
    (x.st = .settle → x.again = false → Reaches (.lock n) s fun d =>
      d.syn n = { x with st := .phase, lock := true, recovery := false } ∧ d.regs = s.dev.regs ∧
      (s.dev.running = true → { syn := n, kind := .measure } ∈ (d.res (n / 2)).waiting)) ∧
    (x.st = .settle → x.again = true →
      let rest (d : Dev) : Prop := (d.syn n).st = .wait ∧ (d.syn n).again = false ∧
        { syn := n, kind := .commanded } ∈ (d.res (n / 2)).waiting
      Reaches (.lock n) s rest ∧ (x.recovery = true → Reaches (.relockFail n) s rest)) ∧
    (x.st ≠ .settle → Gives (.lock n) s s.dev ∧ Gives (.relockFail n) s s.dev) ∧
    (x.st = .settle → x.recovery = true → x.again = false → Gives (.relockFail n) s
      (({ s.dev with now := max s.dev.now (x.calAt + us 60) } : Dev).setSyn n { x with st := .unlocked })) ∧
    (x.st = .settle → x.recovery = false → Reaches (.relockFail n) s fun d =>
      (d.syn n).st = .wait ∧ (d.syn n).recovery = true ∧ { syn := n, kind := .recovery } ∈ (d.res (n / 2)).waiting)) ∧
  (∀ (s : State) (n : Fin 8), s.dev.powered = true →
    let e := s.dev.lockLost n
    let source := 20 + 8 * (n.val / 2)
    let x := s.dev.src source
    Gives (.lockLost n) s (e.calWatch (n.val / 2)) ∧
    ((s.dev.syn n).st = .phase ∨ (s.dev.syn n).st = .ready →
      (e.syn n).st = .wait ∧ (e.syn n).lock = false ∧ { syn := n, kind := .recovery } ∈ (e.res (n / 2)).waiting ∧
      (∀ p ∈ s.dev.txOf n, (e.tx p).seq ≠ .on ∧ ((s.dev.tx p).seq = .on → e.paPin p = false ∧ (e.tx p).seq = .dark)) ∧
      (x.en = true → x.q.length < 8 →
        { cause := 0x0305, loc := s.dev.locOf 1 (n.val / 2), detail := 0, ts := s.dev.ts } ∈ (e.src source).q)) ∧
    ((s.dev.syn n).st ≠ .phase → (s.dev.syn n).st ≠ .ready → e = s.dev))

/-- PHASE_MEASUREMENT_END of a measurement that still counts frees the shared resource at 2 us; in PHASE its correction
is applied at the next path-block boundary, in READY it becomes the target of tracking. LO_READY applies it at that
tick, enters READY and starts the 1 ms tracking period. TRACKING_MEASUREMENT queues a measurement every 1 ms.
TRACKING_STEP moves the correction to its target, or by 91/65,536 turn (0.5 degrees rounded down, the model's
reading, log entry 12) the shorter way round when the target lies further. The measured value is a free value.
Derived from spec/04_rf_front.md R104, spec/04_rf_front.md R105, spec/04_rf_front.md R107. Where it goes beyond
these rules it is the model's own choice or reading: log entries 2, 3, 5, 8, 12. -/
def Obligations.PhaseAndTracking : Prop :=
  ∀ (s : State) (n : Fin 8), s.dev.powered = true →
    let x := s.dev.syn n
    let r := s.dev.res (n / 2)
    (∀ o, r.run = some o → o.syn = n.val → o.kind = .measure → x.drop = false → Reaches (.phaseMeasurementEnd n) s fun d =>
      d.now = max s.dev.now (r.since + us 2) ∧ d.res (n / 2) = { r with run := none } ∧
      (x.st = .phase → d.syn n = { x with target := (Config.loPhase n d.now).toNat, applyAt := some (d.nextPathBlock d.now) }) ∧
      (x.st = .ready → (d.syn n).target = (Config.loPhase n d.now).toNat ∧ (d.syn n).tracking = true)) ∧
    (∀ t, x.st = .phase → x.applyAt = some t → Reaches (.loReady n) s fun d =>
      d.now = max s.dev.now t ∧ (d.syn n).st = .ready ∧ (d.syn n).corr = x.target ∧ (d.syn n).applyAt = none ∧
      (d.syn n).trackDue = some (d.now + ms 1)) ∧
    (x.st ≠ .phase → Gives (.loReady n) s s.dev) ∧
    (∀ t, x.st = .ready → x.trackDue = some t → Reaches (.trackingMeasurement n) s fun d =>
      d.now = max s.dev.now t ∧ d.syn n = { x with trackDue := some (t + ms 1) } ∧
      { syn := n, kind := .measure } ∈ (d.res (n / 2)).waiting) ∧
    (x.st ≠ .ready → Gives (.trackingMeasurement n) s s.dev ∧ Gives (.trackingStep n) s s.dev) ∧
    (x.st = .ready → x.tracking = true → x.corr < 65536 → x.target < 65536 → Reaches (.trackingStep n) s fun d =>
      let ahead := (x.target + 65536 - x.corr) % 65536
      (d.syn n).corr = (if ahead ≤ 91 ∨ 65445 ≤ ahead then x.target
        else if ahead < 32768 then (x.corr + 91) % 65536 else (x.corr + 65445) % 65536) ∧
      { d with now := s.dev.now, rf := s.dev.rf } = s.dev)

/-- PREP of a selected cell in GAP with a next window enters PREP at the start of its active interval. QUEUED enters
QUEUED at START - PA_LEAD and joins the rise queue when the LO is READY and START lies ahead. TAIL of a cell in ON
or DARK takes FE_PA down at the end of the window + PA_LAG. GAP returns it to GAP TR_LAG after that. In every other
state, and without a window, each of them changes nothing. FE_PA_RISE grants the head of the rise queue at the tick
`riseTick`, when that lies before START: FE_PA goes up, the cell enters ON and the rise is counted; when the rises
counted before stand in the order of time, the 1,967 ticks that end with the new rise hold no more rises than the
budget, and every rise of those ticks stays counted. With an empty queue or a budget of 0 no rise happens. DARK of a
cell still QUEUED at START takes it out of the queue and enters DARK; a burst is marked LATE and nothing is
reported; a scheduled window that the loss-of-lock exemption does not cover reports PA_LATE (its record queues at
source 50 + 8q when that is enabled and not full). Derived from spec/04_rf_front.md R111, spec/04_rf_front.md R116,
spec/04_rf_front.md R115. Where it goes beyond these rules it is the model's own choice or reading: log entries 2,
8, 36. -/
def Obligations.Transmit : Prop :=
  (∀ (s : State) (p : Fin 64) (w : Win), s.dev.powered = true →
    let x := s.dev.tx p
    (x.seq = .gap → s.dev.txSelected p = true → s.dev.nextWin p s.dev.now = some w → Reaches (.prep p) s fun d =>
      d.now = max s.dev.now (w.start - (s.dev.paLead + s.dev.trLead)) ∧
      d.tx p = { x with seq := .prep, cur := some w, undr := false } ∧ d.regs = s.dev.regs ∧
      ∀ k, k ≠ p.val → d.tx k = s.dev.tx k) ∧
    (x.seq ≠ .gap ∨ s.dev.txSelected p = false ∨ s.dev.nextWin p s.dev.now = none → Gives (.prep p) s s.dev) ∧
    (x.seq = .prep → x.cur = some w → Reaches (.queued p) s fun d =>
      d.now = max s.dev.now (w.start - s.dev.paLead) ∧ d.tx p = { x with seq := .queued } ∧ d.regs = s.dev.regs ∧
      (s.dev.loReady p = true → d.now < w.start → (d.now, p.val) ∈ d.rf.paQueue) ∧
      (s.dev.loReady p = false ∨ w.start ≤ d.now → d.rf.paQueue = s.dev.rf.paQueue)) ∧
    (x.seq ≠ .prep ∨ x.cur = none → Gives (.queued p) s s.dev) ∧
    (x.seq = .on ∨ x.seq = .dark → x.cur = some w → Reaches (.tail p) s fun d =>
      d.now = max s.dev.now (w.stop + s.dev.paLag) ∧ d.tx p = { x with seq := .tail, paFell := d.now, ons := ({ s.dev with now := d.now } : Dev).onsOf p } ∧
      d.paPin p = false ∧ (∀ k, k ≠ p.val → d.paPin k = s.dev.paPin k) ∧ d.regs = s.dev.regs) ∧
    ((x.seq ≠ .on ∧ x.seq ≠ .dark) ∨ x.cur = none → Gives (.tail p) s s.dev) ∧
    (x.seq = .tail → ∃ ws, Gives (.gap p) s
      (({ s.dev with now := max s.dev.now (x.paFell + s.dev.trLag) } : Dev).setTx p
        { x with seq := .gap, cur := none, wins := ws })) ∧
    (x.seq ≠ .tail → Gives (.gap p) s s.dev)) ∧
  (∀ (s : State) (p : Fin 64) (w : Win), s.dev.powered = true →
    (∀ at_ rest, s.dev.rf.paQueue = (at_, p.val) :: rest → (s.dev.tx p).cur = some w →
      s.dev.riseTick < w.start → s.dev.feStep ≠ 0 → Reaches .fePaRise s fun d =>
        d.now = max s.dev.now s.dev.riseTick ∧ (d.tx p).seq = .on ∧ d.paPin p = true ∧ d.rf.paQueue = rest ∧
        d.now ∈ d.rf.rises ∧ (∀ k, k ≠ p.val → d.paPin k = s.dev.paPin k) ∧ d.regs = s.dev.regs ∧
        (∀ r ∈ s.dev.rf.rises, d.now ≤ r + 1966 → r ∈ d.rf.rises) ∧
        (s.dev.rf.rises.Pairwise (· ≤ ·) →
          (d.rf.rises.filter fun r => decide (d.now ≤ r + 1966)).length ≤ s.dev.feStep)) ∧
    (s.dev.rf.paQueue = [] → Gives .fePaRise s s.dev) ∧
    (∀ at_ rest, s.dev.rf.paQueue = (at_, p.val) :: rest → (s.dev.tx p).cur = some w →
      s.dev.feStep = 0 ∨ w.start ≤ s.dev.riseTick → Gives .fePaRise s s.dev) ∧
    ((s.dev.tx p).seq = .queued → (s.dev.tx p).cur = some w → Reaches (.dark p) s fun d =>
      d.now = max s.dev.now w.start ∧ (d.tx p).seq = .dark ∧ (∀ e ∈ d.rf.paQueue, e.2 ≠ p.val) ∧
      d.regs = s.dev.regs ∧ (w.burst.isSome = true ∨ s.dev.exempt p = true → d.hub = s.dev.hub) ∧
      (∀ tag, w.burst = some tag → d.bursts (s.dev.tableCell p) = (s.dev.bursts (s.dev.tableCell p)).map fun b =>
        if b.tag = tag ∧ b.start = w.start then { b with late := true } else b) ∧
      (let y := s.dev.src (50 + 8 * (p / 16))
       w.burst = none → s.dev.exempt p = false → y.en = true → y.q.length < 8 →
        (d.src (50 + 8 * (p / 16))).q = y.q ++ [{ cause := 0x0104, loc := s.dev.locOf 3 p, detail := 0, ts := d.ts }])) ∧
    ((s.dev.tx p).seq ≠ .queued ∨ (s.dev.tx p).cur = none → Gives (.dark p) s s.dev))

/-- DAC_POWER_UP of a pair that is OFF, of an awake cell with a window in progress or a next one, enters STARTING at the
first of the start of the active interval and START - 1,024. DAC_STARTED ends the start-up 787 ticks after the power-up.
DAC_POWER_DOWN at the end of the active interval takes the pair OFF, or leaves it as it is when the next power-up falls
within 1,966 ticks. Each changes nothing in another state. ADC_OVR of a pair in RUN, and of one in CAL that no step
holds, sets OVR and marks the conversions from its tick to 24 ticks after, and sets NBR of each other pair of its block
that converts; in RUN and in ON the first one of a window reports ADC_OVR (its record queues at source 49 + 8q when that
is enabled and not full) and later ones do not, and in CAL none does; a step that holds the pair gets the over-range; a
pair that does not convert changes nothing. OVR_RECOVERY_END clears OVR 25 ticks after the last over-range
conversion, NBR_RECOVERY_END clears NBR 9 ticks after. Derived from spec/05_converters.md R140,
spec/05_converters.md R134, spec/05_converters.md R135, spec/05_converters.md R137. Where it goes beyond these rules
it is the model's own choice or reading: log entries 2, 8. -/
def Obligations.ConverterRows : Prop :=
  (∀ (s : State) (p : Fin 64) (w : Win), s.dev.powered = true →
    let x := s.dev.tx p
    let at_ (t : Nat) (y : TxCell) : Dev := ({ s.dev with now := max s.dev.now t } : Dev).setTx p y
    (x.dac = .off → s.dev.domDown p = false →
      (x.cur = some w ∨ (x.cur = none ∧ s.dev.txSelected p = true ∧ s.dev.nextWin p s.dev.now = some w)) →
      let t := min (w.start - (s.dev.paLead + s.dev.trLead)) (w.start - 1024)
      Gives (.dacPowerUp p) s (at_ t { x with dac := .starting, dacAt := max s.dev.now t })) ∧
    (x.dac ≠ .off ∨ s.dev.domDown p = true ∨
      (x.cur = none ∧ (s.dev.txSelected p = false ∨ s.dev.nextWin p s.dev.now = none)) → Gives (.dacPowerUp p) s s.dev) ∧
    (x.dac = .starting → Gives (.dacStarted p) s (at_ (x.dacAt + 787) { x with dac := .powered })) ∧
    (x.dac ≠ .starting → Gives (.dacStarted p) s s.dev) ∧
    (x.seq = .tail ∨ x.seq = .gap → x.dac = .powered → s.dev.now ≤ x.paFell + s.dev.trLag →
      s.dev.dacSoon p (x.paFell + s.dev.trLag) = false →
      Gives (.dacPowerDown p) s (at_ (x.paFell + s.dev.trLag) { x with dac := .off })) ∧
    (x.seq = .tail ∨ x.seq = .gap → x.dac = .powered → s.dev.now ≤ x.paFell + s.dev.trLag →
      s.dev.dacSoon p (x.paFell + s.dev.trLag) = true →
      Gives (.dacPowerDown p) s { s.dev with now := x.paFell + s.dev.trLag }) ∧
    ((x.seq ≠ .tail ∧ x.seq ≠ .gap) ∨ x.dac ≠ .powered ∨ x.paFell + s.dev.trLag < s.dev.now →
      Gives (.dacPowerDown p) s s.dev)) ∧
  (∀ (s : State) (p : Fin 64), s.dev.powered = true →
    let x := s.dev.rx p
    let source := 49 + 8 * (p.val / 16)
    let y := s.dev.src source
    let holds (z : CalStep) : Bool := z.running && calIndex z.unit == 64 + p.val && !calOrx z.kind
    let marked (d : Dev) : Prop :=
      (d.rx p).ovr = true ∧ (d.rx p).ovrLast = s.dev.now ∧ (s.dev.now, s.dev.now + 24) ∈ (d.rx p).dirty ∧
      (∀ n ∈ s.dev.neighbours p, (d.rx n).nbr = true ∧ (d.rx n).nbrLast = s.dev.now) ∧ d.regs = s.dev.regs
    (x.adc = .run → Reaches (.adcOvr p) s fun d => marked d ∧
      (x.on = true → (d.rx p).ovrTold = true ∧ (x.ovrTold = true → d.hub = s.dev.hub) ∧
        (x.ovrTold = false → y.en = true → y.q.length < 8 → (d.src source).q =
          y.q ++ [{ cause := 0x0102, loc := s.dev.locOf 3 (64 + p), detail := 0, ts := s.dev.ts }]))) ∧
    (x.adc = .cal → ((s.dev.calq (p / 16)).steps.find? holds) = none → Reaches (.adcOvr p) s fun d =>
      marked d ∧ d.hub = s.dev.hub) ∧
    (∀ z, x.adc = .cal → ((s.dev.calq (p / 16)).steps.find? holds) = some z →
      Gives (.adcOvr p) s ((s.dev.adcOvr p).calOverRange z) ∧ marked (s.dev.adcOvr p)) ∧
    (x.adc = .off ∨ x.adc = .starting → Gives (.adcOvr p) s s.dev) ∧
    (x.ovr = true → Gives (.ovrRecoveryEnd p) s
      (({ s.dev with now := max s.dev.now (x.ovrLast + 25) } : Dev).setRx p { x with ovr := false })) ∧
    (x.nbr = true → Gives (.nbrRecoveryEnd p) s
      (({ s.dev with now := max s.dev.now (x.nbrLast + 9) } : Dev).setRx p { x with nbr := false })) ∧
    (x.ovr = false → Gives (.ovrRecoveryEnd p) s s.dev) ∧ (x.nbr = false → Gives (.nbrRecoveryEnd p) s s.dev))

/-- RX_ACTIVE_START of a path with no window in progress begins its next one at the start of the active interval and
starts an ADC pair that is OFF and whose cell is awake. ADC_RUN enters RUN 3,933 ticks after STARTING, with NBR set
when an over-range of another pair of the block still disturbs it. RX_WINDOW_START enters ON at START, with
over-range reporting armed again. RX_WINDOW_END enters GAP at the end of the window; the pair stays as it is when
KEEP or the next interval holds it and goes OFF otherwise. In another state, or without a window, each of them
changes nothing. BURST_END of a cell with one pending burst that began and is not LATE ends it at the end of its
active interval, with OK for its part of the command, and takes it off the cell; an RX burst marked LATE and a burst
that never began get LATE there; a TX burst marked LATE gets LATE at START and goes at the end of its active
interval with no further reply. With no pending burst nothing changes. DIVERSITY_DECISION while the correlator of a
pair can decide, for the first time in the RX window, keeps the branch unless the other one is stronger by the
margin DET, and changes it then; at another time, and when no peak reaches the threshold, nothing changes. Derived
from spec/04_rf_front.md R112, spec/05_converters.md R129, spec/05_converters.md R130, spec/05_converters.md R131,
spec/04_rf_front.md R114, spec/04_rf_front.md R124. Where it goes beyond these rules it is the model's own choice or
reading: log entries 2, 8, 36. -/
def Obligations.ReceiveWindows : Prop :=
  (∀ (s : State) (p : Fin 64) (w : Win), s.dev.powered = true →
    let x := s.dev.rx p
    let cell := 64 + p.val
    (x.cur = none → s.dev.nextWin cell s.dev.now = some w → Reaches (.rxActiveStart p) s fun d =>
      d.now = max s.dev.now (w.start - s.dev.leadOf cell) ∧ (d.rx p).cur = some w ∧
      (d.rx p).adc = (if x.adc = .off ∧ s.dev.domDown cell = false then .starting else x.adc) ∧
      (x.adc = .off → s.dev.domDown cell = false → (d.rx p).adcAt = d.now) ∧ d.regs = s.dev.regs) ∧
    (x.cur.isSome = true ∨ s.dev.nextWin cell s.dev.now = none → Gives (.rxActiveStart p) s s.dev) ∧
    (x.adc = .starting →
      let t := max s.dev.now (x.adcAt + 3933)
      let still : Prop := ∃ i : Fin 4, 4 * (p.val / 4) + i ≠ p.val ∧ t < (s.dev.rx (4 * (p.val / 4) + i)).tail
      (¬ still → Gives (.adcRun p) s
        (({ s.dev with now := t } : Dev).setRx p { x with adc := .run, runFrom := some t })) ∧
      (still → Reaches (.adcRun p) s fun d =>
        d.now = t ∧ (d.rx p).adc = .run ∧ (d.rx p).runFrom = some t ∧ (d.rx p).nbr = true ∧ d.regs = s.dev.regs)) ∧
    (x.adc ≠ .starting → Gives (.adcRun p) s s.dev) ∧
    (x.on = false → x.cur = some w → Reaches (.rxWindowStart p) s fun d =>
      d.now = max s.dev.now w.start ∧ (d.rx p).on = true ∧ (d.rx p).ovrTold = false ∧ (d.rx p).adc = x.adc ∧
      d.regs = s.dev.regs) ∧
    (x.on = true ∨ x.cur = none → Gives (.rxWindowStart p) s s.dev) ∧
    (x.on = true → x.cur = some w → Reaches (.rxWindowEnd p) s fun d =>
      d.now = max s.dev.now w.stop ∧ (d.rx p).on = false ∧ (d.rx p).cur = none ∧ d.regs = s.dev.regs ∧
      (s.dev.keep (s.dev.tableCell cell) = true ∨ s.dev.rxSoon p d.now = true → (d.rx p).adc = x.adc) ∧
      (s.dev.keep (s.dev.tableCell cell) = false → s.dev.rxSoon p d.now = false → (d.rx p).adc = .off)) ∧
    (x.on = false ∨ x.cur = none → Gives (.rxWindowEnd p) s s.dev)) ∧
  (∀ (s : State) (c : Fin 128) (b : Burst) (k : Fin 32) (m : DivMeas), s.dev.powered = true →
    (s.dev.bursts c = [b] → b.begun = true → b.late = false → b.replied = false → Gives (.burstEnd c) s
      (((({ s.dev with now := max s.dev.now (b.start + b.len + s.dev.lagOf c) } : Dev).setBursts c [])).finishPart b.tag
        (s.dev.locOf 3 c).toNat (plain sOk))) ∧
    (c.val < 64 → s.dev.bursts c = [b] → b.late = true → b.replied = false → Gives (.burstEnd c) s
      ((({ s.dev with now := max s.dev.now b.start } : Dev).setBursts c [{ b with replied := true }]).finishPart b.tag
        (s.dev.locOf 3 c).toNat (plain sLate))) ∧
    (s.dev.bursts c = [b] → b.replied = false → (b.late = true ∧ 64 ≤ c.val) ∨ (b.late = false ∧ b.begun = false) →
      Gives (.burstEnd c) s
        (((({ s.dev with now := max s.dev.now (b.start + b.len + s.dev.lagOf c) } : Dev).setBursts c [])).finishPart b.tag
          (s.dev.locOf 3 c).toNat (plain sLate))) ∧
    (s.dev.bursts c = [b] → b.replied = true → Gives (.burstEnd c) s
      (({ s.dev with now := max s.dev.now (b.start + b.len + s.dev.lagOf c) } : Dev).setBursts c [])) ∧
    (s.dev.bursts c = [] → Gives (.burstEnd c) s s.dev) ∧
    (let x := s.dev.divp k
     let thr := s.dev.f (.divDet k) 15 8
     let det := s.dev.f (.divDet k) 7 0
     let own := if x.sel = 0 then m.pow0 else m.pow1
     let other := if x.sel = 0 then m.pow1 else m.pow0
     let may : Prop := s.dev.paired (2 * k) = true ∧ (s.dev.rx (2 * k)).on = true ∧ x.detected = false ∧
       s.dev.divMay k = true
     (may → thr ≤ m.peak0 ∨ thr ≤ m.peak1 → other < own + det → ∃ l, Gives (.diversityDecision k m) s
        (s.dev.setDivp k { sel := x.sel, detected := true, margin := min 255 (own - other).toNat, sels := l })) ∧
     (may → thr ≤ m.peak0 ∨ thr ≤ m.peak1 → own + det ≤ other → ∃ l, Gives (.diversityDecision k m) s
        (s.dev.setDivp k { sel := 1 - x.sel, detected := true, margin := min 255 (other - own).toNat, sels := l })) ∧
     (¬ may ∨ (m.peak0 < thr ∧ m.peak1 < thr) → Gives (.diversityDecision k m) s s.dev)))

/-- At the first tick at which a waiting request of the block has waited 2 ms for each raise it has had and one more,
every request of class 2 or above for which that holds goes up one class, and no other request changes; a class-1
request never changes. With no request of class 2 or above nothing changes. Formalises R18: "A class 2 or class 3
request that has waited 2 ms is raised one class. It is raised again after each further 2 ms of waiting, but never
above class 1." -/
def Obligations.BlockRequestsRaised : Prop :=
  ∀ (s : State) (b : Fin 16), s.dev.powered = true →
    let x := s.dev.block b
    let due (cls since raised : Nat) (t : Nat) : Prop := 2 ≤ cls ∧ since + 2 * 1966080 * (raised + 1) ≤ t
    ((∃ t, (∃ j ∈ x.orxQ, due j.cls j.since j.raised t) ∨ (∃ j ∈ x.rffeQ, due j.cls j.since j.raised t)) →
      ∃ t, ((∃ j ∈ x.orxQ, due j.cls j.since j.raised t) ∨ (∃ j ∈ x.rffeQ, due j.cls j.since j.raised t)) ∧
        (∀ u, u < t → (∀ j ∈ x.orxQ, ¬ due j.cls j.since j.raised u) ∧ ∀ j ∈ x.rffeQ, ¬ due j.cls j.since j.raised u) ∧
        Reaches (.blockRequestRaised b) s fun d => d.now = max s.dev.now t ∧
          d.block b = { x with orxQ := (d.block b).orxQ, rffeQ := (d.block b).rffeQ } ∧ d.regs = s.dev.regs ∧
          (d.block b).orxQ = x.orxQ.map (fun j => if 2 ≤ j.cls ∧ j.since + 2 * 1966080 * (j.raised + 1) ≤ t
            then { j with cls := j.cls - 1, raised := j.raised + 1 } else j) ∧
          (d.block b).rffeQ = x.rffeQ.map (fun j => if 2 ≤ j.cls ∧ j.since + 2 * 1966080 * (j.raised + 1) ≤ t
            then { j with cls := j.cls - 1, raised := j.raised + 1 } else j)) ∧
    ((∀ j ∈ x.orxQ, j.cls < 2) → (∀ j ∈ x.rffeQ, j.cls < 2) → Gives (.blockRequestRaised b) s s.dev)

/-- ORX_STARTED enters IDLE 19,661 ticks after EN = 1. ORX_JOB_GRANT of an idle ORX with one ready job takes it from the
queue, enters BUSY and moves the rotation pointer past the requester; a busy ORX, and one none of whose jobs may start,
grants nothing. Between two ready jobs of different classes the lower class number wins, between two of one class the
one nearer the pointer in rotation. ORX_JOB_END of a mismatch job frees the ORX at the end of the job, or powers it down
with an empty queue when its EN was cleared, and sends the two words of the measurement; that of a capture ends at T0 + L
with the over-range of its conversions noted; with no job nothing changes. MISMATCH_TIMEOUT of a measurement that
waits in the queue of its block ends it 20 ms after its request with LATE, and takes its job and its measurement off
the block; with no such job it changes nothing. GO of a mailbox that is not busy queues its transaction with RESULT
busy when its class is 2 or 3, its sequence is one of Table 4.10 and VDD_FE is not at 3.3 V, and sets RESULT refused
otherwise; GO of a busy mailbox changes nothing. RFFE_JOB_GRANT of a free bus with one job takes it, unless its quadrant
sleeps. RFFE_JOB_END of a write, or of a read with good parity, of a mailbox other than 0 clears RESULT; a read that
fails parity is retried once, and its second failure sets RESULT failed. An enabled timed entry queues one class-2 job at
its trigger tick, and none at 3.3 V. Derived from spec/01_array_hierarchy.md R16,
spec/01_array_hierarchy.md R17, spec/05_converters.md R144, spec/05_converters.md R145, spec/04_rf_front.md R126,
spec/04_rf_front.md R118, spec/04_rf_front.md R119, spec/04_rf_front.md R120, spec/04_rf_front.md R121,
spec/04_rf_front.md R122. Where it goes beyond these rules it is the model's own choice or reading: log entries 2,
8, 30. -/
def Obligations.ArbitersAndBuses : Prop :=
  (∀ (s : State) (b : Fin 16) (r : OrxResult) (j k : OrxJob), s.dev.powered = true →
    let x := s.dev.block b
    (x.orx = .starting → Gives (.orxStarted b) s
      (({ s.dev with now := max s.dev.now (x.orxAt + 19661) } : Dev).setBlock b { x with orx := .idle })) ∧
    (x.orx ≠ .starting → Gives (.orxStarted b) s s.dev) ∧
    (x.orx = .idle → x.orxQ = [j] → s.dev.jobReady b j = true → Reaches (.orxJobGrant b) s fun d =>
      (d.block b).orx = .busy ∧ (d.block b).orxJob = some j ∧ (d.block b).orxQ = [] ∧
      (d.block b).orxPtr = (j.pos + 1) % 4 ∧ (d.block b).orxAt = s.dev.now ∧ d.regs = s.dev.regs) ∧
    (x.orx = .idle → x.orxQ = [j, k] → s.dev.jobReady b j = true → s.dev.jobReady b k = true →
      k.cls < j.cls ∨ (k.cls = j.cls ∧ (k.pos + 4 - x.orxPtr) % 4 < (j.pos + 4 - x.orxPtr) % 4) →
      Reaches (.orxJobGrant b) s fun d => (d.block b).orxJob = some k) ∧
    (x.orx ≠ .idle ∨ (∀ y ∈ x.orxQ, s.dev.jobReady b y = false) → Gives (.orxJobGrant b) s s.dev) ∧
    (∀ tag m, x.orxJob = some j → j.who = .mismatch tag → (x.mis.find? fun m => m.tag == tag) = some m →
      (x.stop = false → Gives (.orxJobEnd b r) s
        ((({ s.dev with now := max s.dev.now (x.orxAt + m.n + 788) } : Dev).setBlock b
          { x with mis := x.mis.filter (fun m => m.tag != tag), orx := .idle, orxJob := none }).finishPart tag
            (s.dev.locOf 3 m.path).toNat (okWords [r.w0, r.w1]))) ∧
      (x.stop = true → Reaches (.orxJobEnd b r) s fun d => (d.block b).orx = .off ∧ (d.block b).orxJob = none ∧
        (d.block b).orxQ = [] ∧ d.now = max s.dev.now (x.orxAt + m.n + 788))) ∧
    (∀ n c t, x.orxJob = some j → j.who = .capture n → (s.dev.slot b n).cap = some c → c.t0 = some t → x.stop = false →
      Reaches (.orxJobEnd b r) s fun d => d.now = max s.dev.now (t + capL c.w0) ∧ (d.block b).orx = .idle ∧
        (d.block b).orxJob = none ∧ (d.slot b n).cap = some { c with ovr := s.dev.orxOvr b (t + capL c.w0) } ∧
        d.regs = s.dev.regs) ∧
    (x.orxJob = none → Gives (.orxJobEnd b r) s s.dev)) ∧
  (∀ (s : State) (b : Fin 16) (tag : BitVec 8) (m : Mis), s.dev.powered = true →
    let x := s.dev.block b
    ((x.orxQ.any fun j => j.who == .mismatch tag) = true →
      (∀ c : Fin 16, c < b → ((s.dev.block c).orxQ.any fun j => j.who == .mismatch tag) = false) →
      (x.mis.find? fun m => m.tag == tag) = some m → Gives (.mismatchTimeout tag) s
        ((({ s.dev with now := max s.dev.now (m.since + 39321600) } : Dev).setBlock b
          { x with orxQ := x.orxQ.filter (fun j => j.who != .mismatch tag)
                   mis := x.mis.filter fun m => m.tag != tag }).finishPart tag (s.dev.locOf 3 m.path).toNat (plain sLate))) ∧
    ((∀ c : Fin 16, ((s.dev.block c).orxQ.any fun j => j.who == .mismatch tag) = false) →
      Gives (.mismatchTimeout tag) s s.dev)) ∧
  (∀ (s : State) (b : Fin 16) (n : Fin 5) (e : Fin 16) (j : RffeJob) (ok : Bool) (data : List Byte), s.dev.powered = true →
    let x := s.dev.block b
    let w := s.dev.reg (.txn b n)
    (s.dev.rffeRes b n ≠ 1 → 2 ≤ txClass w → txLegal w = true → s.dev.fe33 = false → Reaches (.go b n) s fun d =>
      d.rffeRes b n = 1 ∧ d.regs = s.dev.regs ∧
      (d.block b).rffeQ = x.rffeQ ++ 
        [{ who := .slot n, word := w, cls := txClass w, pos := (n.val + 3) % 4, since := s.dev.now }]) ∧
    (s.dev.rffeRes b n ≠ 1 → txClass w < 2 ∨ txLegal w = false ∨ s.dev.fe33 = true → Reaches (.go b n) s fun d =>
      d.rffeRes b n = 3 ∧ (d.block b).rffeQ = x.rffeQ) ∧
    (s.dev.rffeRes b n = 1 → Gives (.go b n) s s.dev) ∧
    (x.rffeJob = none → x.rffeQ = [j] → s.dev.domDown (128 + b / 4) = false → Gives (.rffeJobGrant b) s
      (({ s.dev with now := max s.dev.now x.rffeAt } : Dev).setBlock b
        { x with rffeJob := some j, rffeAt := max s.dev.now x.rffeAt, rffeQ := [], rffePtr := (j.pos + 1) % 4 })) ∧
    (x.rffeJob.isSome = true ∨ x.rffeQ = [] ∨ s.dev.domDown (128 + b / 4) = true → Gives (.rffeJobGrant b) s s.dev) ∧
    (data.length ≤ 16 → x.rffeJob = some j → j.who = .slot n → n ≠ 0 → txRead j.word = false →
      Reaches (.rffeJobEnd b ok data) s fun d => d.now = max s.dev.now (x.rffeAt + s.dev.txTicks b j.word) ∧
        (d.block b).rffeJob = none ∧ d.rffeRes b n = 0 ∧ d.regs = s.dev.regs) ∧
    (data.length ≤ 16 → x.rffeJob = some j → j.who = .slot n → txRead j.word = true → j.retried = false →
      Reaches (.rffeJobEnd b false data) s fun d => (d.block b).rffeJob = some { j with retried := true } ∧
        d.rffeRes b n = s.dev.rffeRes b n ∧ d.regs = s.dev.regs) ∧
    (data.length ≤ 16 → x.rffeJob = some j → j.who = .slot n → n ≠ 0 → txRead j.word = true →
      (ok = true → Reaches (.rffeJobEnd b ok data) s fun d => (d.block b).rffeJob = none ∧ d.rffeRes b n = 0) ∧
      (ok = false → j.retried = true → Reaches (.rffeJobEnd b ok data) s fun d =>
        (d.block b).rffeJob = none ∧ d.rffeRes b n = 2 ∧ d.regs = s.dev.regs)) ∧
    (data.length ≤ 16 → x.rffeJob = none → Gives (.rffeJobEnd b ok data) s s.dev) ∧
    (∀ t, s.dev.timedAt b e = some t → s.dev.timedFrom b e ≤ t → s.dev.fe33 = false →
      Reaches (.timedEntryTrigger b e) s fun d => d.now = max s.dev.now t ∧ d.timedFrom b e = t + 1 ∧
        (d.block b).rffeQ = x.rffeQ ++ 
          [{ who := .timed e, word := s.dev.reg (.timed b e 0), cls := 2, pos := s.dev.f (.timed b e 2) 26 25, since := d.now }]) ∧
    (∀ t, s.dev.timedAt b e = some t → s.dev.fe33 = true →
      Reaches (.timedEntryTrigger b e) s fun d => (d.block b).rffeQ = x.rffeQ ∧ d.timedFrom b e = t + 1) ∧
    (s.dev.timedAt b e = none → Gives (.timedEntryTrigger b e) s s.dev))

/-- GO of a capture slot that is not in progress, with a request that passes its checks, takes the lowest run of free
regions as FILLING and shows RESULT in progress; a request that fails a check takes no region and shows RESULT
refused with the status of the first failing check; GO of a slot in progress changes nothing. CAP_REL frees exactly
the regions of its mask that are DONE. CAPTURE_START of a triggered capture that needs no ORX, or has it, starts
sampling at its trigger tick; that of an untriggered one starts at the first multiple of 16 that it may take, when its
path is then in ON with L ticks of its window left. CAPTURE_JOB_QUEUED of a triggered ORX capture queues its job 2,048
ticks before the trigger while the ORX is on, and ends it with PRECONDITION and its regions free when the ORX is OFF.
CAPTURE_LATE of a triggered ORX capture without a grant at T - 394, and of an untriggered one that nothing was granted
for 20 ms, frees its regions and shows RESULT failed with LATE. CAPTURE_DONE of a started capture whose job has ended
writes the eight header words of Table 8.3 at the first region, and nothing outside the words of the capture, and shows
the regions DONE and RESULT 0. Each changes nothing for an empty slot, and where its condition does not hold. Derived from
spec/08_predistortion.md R211, spec/08_predistortion.md R214, spec/08_predistortion.md R212,
spec/08_predistortion.md R213. Where it goes beyond these rules it is the model's own choice or reading: log entries
2, 8, 30. -/
def Obligations.Captures : Prop :=
  (∀ (s : State) (b : Fin 16) (n : Fin 5) (mask : Byte), s.dev.powered = true →
    let w := s.dev.reg (.creq b n 0)
    let t : BitVec 48 := BitVec.ofNat 48 ((s.dev.reg (.creq b n 1)).toNat + s.dev.f (.creq b n 2) 15 0 * 2 ^ 32)
    let count := (capWords w + 4095) / 4096
    ((s.dev.slot b n).result ≠ 1 → ∀ r, s.dev.capCheck b w t = .ok r → Reaches (.cctlGo b n) s fun d =>
      (d.slot b n).result = 1 ∧ d.regs = s.dev.regs ∧
      (∀ i, d.region b i = if r ≤ i ∧ i < r + count then 1 else s.dev.region b i) ∧
      (∀ i, r ≤ i → i < r + count → s.dev.region b i = 0)) ∧
    ((s.dev.slot b n).result ≠ 1 → ∀ c, s.dev.capCheck b w t = .error c → Reaches (.cctlGo b n) s fun d =>
      (d.slot b n).result = 3 ∧ (d.slot b n).status = c ∧ d.regs = s.dev.regs ∧ ∀ i, d.region b i = s.dev.region b i) ∧
    ((s.dev.slot b n).result = 1 → Gives (.cctlGo b n) s s.dev) ∧
    Reaches (.capRel b mask) s fun d => d.regs = s.dev.regs ∧
      ∀ i, d.region b i = if i < 8 ∧ mask.getLsbD i = true ∧ s.dev.region b i = 2 then 0 else s.dev.region b i) ∧
  (∀ (s : State) (b : Fin 16) (n : Fin 5) (c : Cap), s.dev.powered = true →
    let x := s.dev.slot b n
    (x.cap = some c → c.t0 = none → capTrig c.w0 = true → capOrx c.w0 = false ∨ c.granted.isSome = true →
      Reaches (.captureStart b n) s fun d => d.now = max s.dev.now c.t ∧ d.regs = s.dev.regs ∧
        d.slot b n = { x with cap := some { c with t0 := some c.t } }) ∧
    (let t := s.dev.capT0 c.w0 c.granted
     x.cap = some c → c.t0 = none → capTrig c.w0 = false → capOrx c.w0 = false ∨ c.granted.isSome = true →
      t ≤ c.goAt + 39321600 →
      (s.dev.onWith (capPath b c.w0) t (capL c.w0) = true → Reaches (.captureStart b n) s fun d =>
        d.now = max s.dev.now t ∧ d.regs = s.dev.regs ∧ d.slot b n = { x with cap := some { c with t0 := some t } }) ∧
      (s.dev.onWith (capPath b c.w0) t (capL c.w0) = false → capOrx c.w0 = false → Gives (.captureStart b n) s s.dev)) ∧
    (x.cap = some c → c.t0.isSome = true ∨ (capOrx c.w0 = true ∧ c.granted = none) →
      Gives (.captureStart b n) s s.dev) ∧
    (x.cap = some c → capTrig c.w0 = true → capOrx c.w0 = true → c.queued = false → (s.dev.block b).orx ≠ .off →
      Reaches (.captureJobQueued b n) s fun d => d.now = max s.dev.now (c.t - 2048) ∧
        (d.block b).orxQ = (s.dev.block b).orxQ ++ [{ who := .capture n, cls := capClass c.w0, pos := capPos c.w0
                                                      src := capSrc c.w0, since := d.now }]) ∧
    (x.cap = some c → capTrig c.w0 = true → capOrx c.w0 = true → c.queued = false → (s.dev.block b).orx = .off →
      Reaches (.captureJobQueued b n) s fun d => d.now = max s.dev.now (c.t - 2048) ∧ (d.slot b n).result = 2 ∧
        (d.slot b n).status = 0x40 ∧ (d.slot b n).cap = none ∧
        ∀ i, c.first ≤ i → i < c.first + c.count → d.region b i = 0) ∧
    (x.cap = some c → capTrig c.w0 = false ∨ capOrx c.w0 = false ∨ c.queued = true →
      Gives (.captureJobQueued b n) s s.dev) ∧
    (x.cap = some c → c.t0 = none → capTrig c.w0 = false → c.granted = none →
      Reaches (.captureLate b n) s fun d => d.now = max s.dev.now (c.goAt + 39321600) ∧
        (d.slot b n).result = 2 ∧ (d.slot b n).status = 0x21 ∧ (d.slot b n).cap = none ∧
        ∀ i, c.first ≤ i → i < c.first + c.count → d.region b i = 0) ∧
    (x.cap = some c → c.t0.isSome = true ∨ (capTrig c.w0 = true ∧ (capOrx c.w0 = false ∨ c.granted.isSome = true)) →
      Gives (.captureLate b n) s s.dev) ∧
    (x.cap = some c → c.t0 = none → capTrig c.w0 = true → capOrx c.w0 = true → c.granted = none →
      Reaches (.captureLate b n) s fun d => d.now = max s.dev.now (c.t - 394) ∧
        (d.slot b n).result = 2 ∧ (d.slot b n).status = 0x21 ∧ (d.slot b n).cap = none ∧
        ∀ i, c.first ≤ i → i < c.first + c.count → d.region b i = 0) ∧
    (∀ t0, x.cap = some c → c.t0 = some t0 → s.dev.capHolds b n = false → Reaches (.captureDone b n) s fun d =>
      d.now = max s.dev.now (t0 + capL c.w0) ∧ (d.slot b n).result = 0 ∧ (d.slot b n).cap = none ∧
      (d.slot b n).region = c.first ∧ (∀ i, c.first ≤ i → i < c.first + c.count → d.region b i = 2) ∧
      (let word (k : Nat) : Word := Memory.readWord d.mem (capBase b + 0x4000 * c.first + 4 * k)
       let bit (v : Bool) : Nat := if v = true then 1 else 0
       let at_ : Dev := { s.dev with now := d.now }
       word 0 = BitVec.ofNat 32 (s.dev.tsAt t0).toNat ∧ word 1 = BitVec.ofNat 32 ((s.dev.tsAt t0).toNat / 2 ^ 32) ∧
       word 2 = BitVec.ofNat 32 (capL c.w0 + 2 ^ 16 * capSrc c.w0 + 2 ^ 19 * bit (capOrx c.w0) + 2 ^ 20 * capRef c.w0 +
        2 ^ 24 * capMask c.w0) ∧
       word 3 = BitVec.ofNat 32 (2 ^ 16 * at_.seqAt (capPath b c.w0) t0 + 2 * bit (at_.capChanged b c t0) + bit c.ovr) ∧
       word 4 = 0 ∧ word 5 = 0 ∧ word 6 = 0 ∧ word 7 = 0) ∧
      (∀ a, a < capBase b + 0x4000 * c.first ∨ capBase b + 0x4000 * c.first + 4 * capWords c.w0 ≤ a →
        Memory.read d.mem a = Memory.read s.dev.mem a)) ∧
    (x.cap = some c → c.t0 = none ∨ s.dev.capHolds b n = true → Gives (.captureDone b n) s s.dev) ∧
    (x.cap = none → Gives (.captureStart b n) s s.dev ∧ Gives (.captureJobQueued b n) s s.dev ∧
      Gives (.captureLate b n) s s.dev ∧ Gives (.captureDone b n) s s.dev))

/-- APPLICATION of an ACCEPTED group moves the clock to its boundary and makes its staged fields live at that tick: the
group is EMPTY, none of its fields stays staged, fields of other groups and memory stay as they were, and every
register other than CHAIN_CFG (whose SYNC bits return to 0) and LG_CFG (which a change of ROLE moves) reads the old
word with exactly the group's fields replaced. A group that is not ACCEPTED applies nothing. Derived from
spec/03_command_plane.md R86, spec/03_command_plane.md R88, spec/02_time_and_release.md R55. Where it goes beyond
these rules it is the model's own choice or reading: log entries 2, 8, 10. -/
def Obligations.CommitApplication : Prop :=
  ∀ (s : State) (g : Fin 272), s.dev.powered = true →
    let x := s.dev.grp g
    (x.st = .accepted → Reaches (.application g) s fun d =>
      d.now = max s.dev.now x.bnd ∧ d.grp g = {} ∧ d.fieldsOf g = [] ∧ d.mem = s.dev.mem ∧
      (∀ k, k ≠ g.val → d.grp k = s.dev.grp k ∧ d.fieldsOf k = s.dev.fieldsOf k) ∧
      ∀ r : Reg, (∀ c, r.addr ≠ (Reg.chainCfg c).addr) → (∀ k, r.addr ≠ (Reg.lgCfg k).addr) →
        d.reg r = (s.dev.overlay (s.dev.fieldsOf g)).reg r) ∧
    (x.st ≠ .accepted → Gives (.application g) s s.dev)

/-- A well-formed SAMPLE packet that group H in RUN delivers to an enabled transmit context of the same COMP, with 1 to
8 blocks, exponents in range, a valid TIMESTAMP on the raster of the stream, arriving no later than T - TX_LEAD and
with its last sample no more than 10,485 ticks beyond TX_LEAD ahead, and not shed, is stored: each sample, mantissa
x 2^e, for its tick, replacing what was stored there, with every other stored sample kept and nothing else changed;
a sample that comes to the head after the CHORD packet of its interval left is marked to go down once more. Any
other packet is discarded with no change. RX_SAMPLE_PACKET_EGRESS of a context that sends no partial sums, once the
whole interval of its oldest waiting block is settled, puts one SAMPLE packet of the interval's blocks, with the
TIMESTAMP of the oldest, in the queue of VC 2 + PRIO of group H while H is in RUN and the block is not shed, and
none outside RUN; the blocks of the interval leave the store either way. With an interval not settled, or nothing
waiting, nothing changes. For a chord context of a member or tail it puts one CHORD packet of partial sums, with a
place for every chord context of the interval, in the queue of VC 6 of group U in RUN, once every such context has
settled the interval; otherwise nothing changes. A CHORD packet that does not arrive on the right group in RUN, or
carries no block, changes nothing; one whose K differs from this chip's own count, or whose TIMESTAMP is not valid,
is discarded: it stores no sample and sends none on; one of transmit samples stores each sample that arrives by
T - TX_LEAD. Derived from spec/02_time_and_release.md R50, spec/02_time_and_release.md R52,
spec/02_time_and_release.md R54, spec/11_fleob_packets.md R284, spec/15_power_and_heat.md R361,
spec/11_fleob_packets.md R282, spec/11_fleob_packets.md R287, spec/11_fleob_packets.md R288,
spec/07_beam_engine.md R186. Where it goes beyond these rules it is the model's own choice or reading: log entries
2, 8, 23, 24, 32, 40. -/
def Obligations.SamplePackets : Prop :=
  (∀ (s : State) (k : SamplePkt), s.dev.powered = true → k.wf = true →
    let x := k.ctx.val
    let p := s.dev.ctxPeriod x
    let fits := s.dev.ctxOn x = true ∧ s.dev.ctxTx x = true ∧ s.dev.ctxComp x = k.comp.val ∧ 1 ≤ k.nblk ∧ k.nblk ≤ 8 ∧
      ∀ e ∈ k.exps, e + mantWidth k.comp ≤ 16
    let inTime := s.dev.running = true ∧ tsValid k.ts = true ∧ k.ts.toNat % 2 ^ 25 % p = 0 ∧
      ∃ a, s.dev.ahead k.ts = some a ∧ s.dev.txLead ≤ a ∧ a + (16 * k.nblk - 1) * p ≤ s.dev.txLead + 10485
    let taken := s.dev.boot.phase = .up ∧ s.dev.hostSide = true ∧ s.dev.groupRun 0 = true ∧ fits ∧ inTime ∧
      x ∉ s.dev.pwr.shed
    let tick (i : Nat) := s.dev.tickOf k.ts + i * p
    (taken → Reaches (.txSamplePacket k) s fun d =>
      { d with beam := { d.beam with ingress := s.dev.beam.ingress } } = s.dev ∧
      (∀ i (h : i < k.mants.length), d.stored x (tick i) =
        some { ctx := x, at_ := tick i, i := k.mants[i].1 * 2 ^ k.exps.getD (i / 16) 0
               q := k.mants[i].2 * 2 ^ k.exps.getD (i / 16) 0, again := s.dev.chordGone x (tick i) }) ∧
      ∀ y t, y ≠ x ∨ (∀ i, i < k.mants.length → t ≠ tick i) → d.stored y t = s.dev.stored y t) ∧
    (¬ taken → Gives (.txSamplePacket k) s s.dev)) ∧
  (∀ (s : State) (x : Fin 128), s.dev.powered = true →
    let c := s.dev.ctx x
    let sums := s.dev.running = true ∧ s.dev.ctxChord x = true ∧ s.dev.ctxTx x = false ∧ s.dev.hostSide = false
    (∀ b rest, ¬ sums → c.out = b :: rest →
      let g := s.dev.cfgAt b.at_
      let r := g.ctxRate x
      let lo := s.dev.intervalOf r b.at_
      let hi := lo + interval (period r)
      let l := c.out.filter fun y => decide (y.at_ < hi) && !s.dev.blockShed x y.at_
      let sends := s.dev.groupRun 0 = true ∧ s.dev.blockShed x b.at_ = false
      (s.dev.intervalDone x r lo = true → Reaches (.rxSamplePacketEgress x) s fun d =>
        (d.ctx x).out = c.out.filter (fun y => decide (hi ≤ y.at_)) ∧ d.now = s.dev.now ∧ d.regs = s.dev.regs ∧
        d.mem = s.dev.mem ∧ (∀ y, y ≠ x.val → d.ctx y = s.dev.ctx y) ∧
        (sends → ∃ pkt : SamplePkt,
          d.queueOf 0 (2 + g.ctxPrio x) = s.dev.queueOf 0 (2 + g.ctxPrio x) ++ [.sample pkt] ∧
          pkt.ctx = x ∧ pkt.ts = s.dev.tsAt b.at_ ∧ pkt.nblk = l.length ∧ pkt.codes = l.map (·.code)) ∧
        (s.dev.groupRun 0 = false → d.link = s.dev.link)) ∧
      (s.dev.intervalDone x r lo = false → Gives (.rxSamplePacketEgress x) s s.dev)) ∧
    (¬ sums → c.out = [] → Gives (.rxSamplePacketEgress x) s s.dev) ∧
    (sums → s.dev.sumsOwed x = none → Gives (.rxSamplePacketEgress x) s s.dev) ∧
    (∀ lo, sums → s.dev.sumsOwed x = some lo →
      let r := s.dev.ctxRate x
      let hi := lo + interval (period r)
      let xs := s.dev.chordSet false r lo
      ((∀ y ∈ xs, s.dev.intervalDone y r lo = true) → Reaches (.rxSamplePacketEgress x) s fun d =>
        d.now = s.dev.now ∧ d.regs = s.dev.regs ∧ d.mem = s.dev.mem ∧ d.chordNext (8 + r) = hi ∧
        (∀ y ∈ xs, (d.ctx y).out = (s.dev.ctx y).out.filter fun z => decide (hi ≤ z.at_)) ∧
        (∀ y, y ∉ xs → d.ctx y = s.dev.ctx y) ∧
        (s.dev.groupRun 1 = true → ∃ k : ChordPkt, d.queueOf 1 6 = s.dev.queueOf 1 6 ++ [.chord k] ∧ k.tx = false ∧
          k.rate.val = r ∧ k.k = xs.length ∧ k.ts = s.dev.tsAt lo ∧ k.nblk = fullBlocks (period r) ∧
          k.desc.length = k.k * k.nblk) ∧
        (s.dev.groupRun 1 = false → d.link = s.dev.link)) ∧
      ((∃ y ∈ xs, s.dev.intervalDone y r lo = false) → Gives (.rxSamplePacketEgress x) s s.dev))) ∧
  (∀ (s : State) (down : Bool) (k : ChordPkt), s.dev.powered = true → k.wf = true →
    let xs := s.dev.chordSet k.tx k.rate (s.dev.intervalOf k.rate (s.dev.tickOf k.ts))
    let arrives := s.dev.boot.phase = .up ∧ s.dev.groupRun (if down then 2 else 1) = true ∧ k.tx = !down ∧ 1 ≤ k.nblk
    let good := k.k = xs.length ∧ s.dev.running = true ∧ tsValid k.ts = true
    (¬ arrives → Gives (.chordPacket down k) s s.dev) ∧
    (arrives → ¬ good → Reaches (.chordPacket down k) s fun d =>
      { d with beam := { d.beam with chordAt := s.dev.beam.chordAt } } = s.dev ∧ (k.tx = false → d = s.dev)) ∧
    (arrives → good → Reaches (.chordPacket down k) s fun d => d.now = s.dev.now ∧ d.regs = s.dev.regs ∧ d.mem = s.dev.mem ∧
      (k.tx = true → ∀ i j n, i < k.k → j < k.nblk → n < 16 →
        let b := i * k.nblk + j
        let y := xs.getD i 0
        let t := s.dev.tickOf k.ts + (16 * j + n) * period k.rate
        let v := k.mants.getD (16 * b + n) (0, 0)
        let e : Int := 2 ^ (k.desc.getD b (0, 0)).2
        s.dev.now + s.dev.txLead ≤ t → y ∉ s.dev.pwr.shed → d.stored y t =
          some { ctx := y, at_ := t, i := v.1 * e, q := v.2 * e, code := (k.desc.getD b (0, 0)).1 }) ∧
      (k.tx = false → d.beam.ingress = s.dev.beam.ingress ∧ d.beam.fed = s.dev.beam.fed)))

/-- INGRESS_RELEASE of a context takes what is next of it: its oldest stored sample, or, at the head, the CHORD packet
of the next interval of its rate code. Of a sample the clock moves to T - TX_LEAD, the sample leaves the store and
enters the beam engine with its value and code, and every sample of another context or tick stays in the store; a
chip that is not the head, and a sample not marked to go down once more, send no packet with it; a marked one sends
one of the block that holds it. Of a CHORD packet the clock moves to TX_LEAD before the interval's first sample, and
the packet is queued for group D in RUN, whatever is stored. With neither, nothing changes. RELEASE_GATE of a cell
inside a window passes the next tick t of the window 48 ticks before it: when a context that feeds the path at t has
a sample there, or none feeds it, the gate holds the path sample; when every such context misses its sample it
holds 0 + j0; the first tick of a window at which one is missing marks the window and raises RELEASE_UNDERRUN with
that tick, unless another report covers it; in DARK nothing is released. The next tick follows. With no tick left in
a window, or outside one, nothing changes. Derived from spec/02_time_and_release.md R51, spec/07_beam_engine.md
R186, spec/02_time_and_release.md R49, spec/02_time_and_release.md R53, spec/04_rf_front.md R111,
spec/07_beam_engine.md R172. Where it goes beyond these rules it is the model's own choice or reading: log entries 2,
8, 23, 36, 40. -/
def Obligations.IngressStore : Prop :=
  (∀ (s : State) (x : Fin 128), s.dev.powered = true →
    let r := s.dev.ctxRate x
    (∀ y, s.dev.firstStored x = some y → (∀ lo, s.dev.chordDepart x = some lo → y.at_ < lo) →
      y.ctx = x.val ∧ (∀ z ∈ s.dev.beam.ingress, z.ctx = x.val → y.at_ ≤ z.at_) ∧
      Reaches (.ingressRelease x) s fun d => d.now = max s.dev.now (y.at_ - s.dev.txLead) ∧
        { y with again := false } ∈ d.beam.fed ∧
        d.stored x y.at_ = none ∧ d.regs = s.dev.regs ∧ d.mem = s.dev.mem ∧
        (∀ z t, z ≠ x.val ∨ t ≠ y.at_ → (d.stored z t).map (fun w => { w with again := false }) =
          (s.dev.stored z t).map fun w => { w with again := false }) ∧
        (y.again = false ∨ s.dev.role ≠ 1 → d.link = s.dev.link) ∧
        (y.again = true → s.dev.role = 1 → s.dev.groupRun 2 = true → ∃ k : ChordPkt,
          d.queueOf 2 6 = s.dev.queueOf 2 6 ++ [.chord k] ∧ k.tx = true ∧ k.rate.val = r ∧ k.nblk = 1)) ∧
    (∀ lo, s.dev.chordDepart x = some lo → (∀ y, s.dev.firstStored x = some y → lo ≤ y.at_) →
      Reaches (.ingressRelease x) s fun d => d.now = max s.dev.now (lo - s.dev.txLead) ∧ d.regs = s.dev.regs ∧
        d.mem = s.dev.mem ∧ d.beam.ingress = s.dev.beam.ingress ∧ d.chordNext r = lo + interval (period r) ∧
        (s.dev.groupRun 2 = true → ∃ k : ChordPkt, d.queueOf 2 6 = s.dev.queueOf 2 6 ++ [.chord k] ∧ k.tx = true ∧
          k.rate.val = r ∧ k.ts = s.dev.tsAt lo ∧ k.nblk = fullBlocks (period r)) ∧
        (s.dev.groupRun 2 = false → d.link = s.dev.link)) ∧
    (s.dev.firstStored x = none → s.dev.chordDepart x = none → Gives (.ingressRelease x) s s.dev)) ∧
  (∀ (s : State) (p : Fin 64), s.dev.powered = true →
    let x := s.dev.tx p
    let source := 48 + 8 * (p.val / 16)
    (∀ t, s.dev.gateTick p = some t →
      let u := s.dev.goTo (t - 48)
      let first := x.seq ≠ .dark ∧ u.missingAt p t ≠ [] ∧ x.undr = false ∧ u.silent t (u.missingAt p t) = false
      Reaches (.releaseGate p) s fun d => d.now = max s.dev.now (t - 48) ∧
        d.tx p = { x with gateAt := t + 1, undr := x.undr || (x.seq != .dark && !(u.missingAt p t).isEmpty) } ∧
        (∀ k, k ≠ p.val → d.tx k = s.dev.tx k) ∧ d.regs = s.dev.regs ∧ d.mem = s.dev.mem ∧
        (x.seq = .dark → d.gateSample p t = none) ∧
        (x.seq ≠ .dark → d.gateSample p t = some (if d.holdsNone p t then (0, 0) else d.pathZ p t)) ∧
        (¬ first → d.hub = s.dev.hub) ∧
        (first → (s.dev.src source).en = true → (s.dev.src source).q.length < 8 →
          (d.src source).q = (s.dev.src source).q ++
            [{ cause := 0x0101, loc := s.dev.locOf 3 p, detail := 0, ts := s.dev.tsAt t }])) ∧
    (s.dev.gateTick p = none → Gives (.releaseGate p) s s.dev) ∧
    (x.cur = none → Gives (.releaseGate p) s s.dev))

/-- SWAP_BIND moves the swap of the SLOT to BOUND 2,048 ticks before its start and issues the fetch of its first entry;
it does nothing with no swap there or one already bound. SWAP_START at the start tick makes the schedule of the
bound swap LIVE, starts the fade at the first stamp, and on a disabled context ends the swap at once. FADE_END of a
started swap empties BOUND at s0 + FADE_LEN x P and leaves schedule and entry as they are. WEIGHT_FETCH_ISSUE of a
running enabled context issues the fetch of the next point for which none was issued, 2,048 ticks before its change
tick, the first stamp at or after its boundary. WEIGHT_FETCH_DONE of the oldest fetch makes its 64 words ready when
it comes by its change tick, with the quadrants whose line holds an uncorrectable error, each of which reports
MEM_UNCORRECTABLE, and drops it otherwise. SCHEDULE_POINT_CHANGE puts the ready entry in force from its stamp, a
slice with an error keeping the weights that it had; when its fetch has not completed the entry before stays in
force and every quadrant that serves the context reports WEIGHT_LATE. Each changes nothing where there is no such
point or fetch. Derived from spec/07_beam_engine.md R177, spec/07_beam_engine.md R178, spec/07_beam_engine.md
R181, spec/07_beam_engine.md R174, spec/07_beam_engine.md R175, spec/07_beam_engine.md R176. Where it goes beyond
these rules it is the model's own choice or reading: log entries 2, 8, 11, 32. -/
def Obligations.Beams : Prop :=
  (∀ (s : State) (x : Fin 128) (w : Swap), s.dev.powered = true →
    let c := s.dev.ctx x
    let first := s.dev.entryAt (s.dev.ctxTable x w.btable) w.points w.start
    let s0 := s.dev.stampAt x w.start
    (c.slot = some w → c.bound = none → Reaches (.swapBind x) s fun d =>
      d.now = max s.dev.now (w.start - 2048) ∧ (d.ctx x).slot = none ∧ (d.ctx x).bound = some w ∧
      (d.ctx x).live = c.live ∧ (∀ y, y ≠ x.val → d.ctx y = s.dev.ctx y) ∧ d.regs = s.dev.regs ∧
      (∀ e, first = some e → (d.ctx x).fetch = c.fetch ++ [{ change := s0, entry := e }]) ∧
      (first = none → (d.ctx x).fetch = c.fetch)) ∧
    (c.slot = none ∨ c.bound.isSome = true → Gives (.swapBind x) s s.dev) ∧
    (c.bound = some w → w.started = false → Reaches (.swapStart x) s fun d =>
      d.now = max s.dev.now w.start ∧ (d.ctx x).live = w.points ∧ (d.ctx x).s0 = s0 ∧ d.regs = s.dev.regs ∧
      (s.dev.ctxOn x = true → (d.ctx x).bound = some { w with started := true } ∧ (d.ctx x).fadeN = w.fade ∧
        (d.ctx x).fading = decide (w.fade ≠ 0) ∧ (s.dev.running = false → (d.ctx x).from_ = c.entry)) ∧
      (s.dev.ctxOn x = false → (d.ctx x).bound = none ∧ (d.ctx x).fading = false) ∧
      (s.dev.ctxOn x = false → ∀ e r, first = some e → (c.ready.find? fun r => r.change == s0 && r.entry == e) = some r →
        r.bad = [] → (d.ctx x).entry = e ∧ (d.ctx x).hist.head? = some (s0, r.words))) ∧
    (c.bound = some w → w.started = true → Reaches (.fadeEnd x) s fun d =>
      d.now = max s.dev.now (c.s0 + c.fadeN * s.dev.ctxPeriod x) ∧ (d.ctx x).bound = none ∧ (d.ctx x).fading = false ∧
      (d.ctx x).live = c.live ∧ (d.ctx x).entry = c.entry ∧ (d.ctx x).from_ = c.entry ∧ d.regs = s.dev.regs) ∧
    (c.bound = some w → w.started = true → Gives (.swapStart x) s s.dev) ∧
    (c.bound = some w → w.started = false → Gives (.fadeEnd x) s s.dev) ∧
    (c.bound = none → Gives (.swapStart x) s s.dev ∧ Gives (.fadeEnd x) s s.dev)) ∧
  (∀ (s : State) (x : Fin 128) (b e : Nat), s.dev.powered = true →
    let c := s.dev.ctx x
    let active := s.dev.running = true ∧ s.dev.ctxOn x = true
    let stamp := s.dev.stampAt x b
    let unissued := s.dev.pointAhead x (max c.issued (max c.changed (s.dev.now + 1 - s.dev.ctxPeriod x)))
    let due := s.dev.nextPoint (s.dev.ctxTable x 0) c.live (max (s.dev.now + 1 - s.dev.ctxPeriod x) c.changed)
    (active → unissued = some (b, e) → Reaches (.weightFetchIssue x) s fun d =>
      d.now = max s.dev.now (stamp - 2048) ∧ d.regs = s.dev.regs ∧ d.mem = s.dev.mem ∧
      d.ctx x = { c with issued := b + 1, fetch := c.fetch ++ [{ change := stamp, entry := e }] } ∧
      ∀ y, y ≠ x.val → d.ctx y = s.dev.ctx y) ∧
    (active → unissued = none → Gives (.weightFetchIssue x) s s.dev) ∧
    (∀ f rest, c.fetch = f :: rest →
      let bad := s.dev.entryBad x f.entry
      let r : Ready := { change := f.change, entry := f.entry, words := s.dev.entryWords (s.dev.ctxTx x) f.entry, bad := bad }
      let after := { c with fetch := rest, ready := if s.dev.now ≤ f.change then c.ready ++ [r] else c.ready }
      (bad = [] → Gives (.weightFetchDone x) s (s.dev.setCtx x after)) ∧
      Reaches (.weightFetchDone x) s fun d => d.now = s.dev.now ∧ d.ctx x = after ∧ d.regs = s.dev.regs ∧ d.mem = s.dev.mem ∧
        ∀ q ∈ bad, (s.dev.src (17 + 8 * q)).en = true → (s.dev.src (17 + 8 * q)).q.length < 8 →
          (d.src (17 + 8 * q)).q = (s.dev.src (17 + 8 * q)).q ++
            [{ cause := 0x0302, loc := s.dev.locOf 1 q, detail := 0, ts := s.dev.ts }]) ∧
    (c.fetch = [] → Gives (.weightFetchDone x) s s.dev) ∧
    (active → due = some (b, e) → Reaches (.schedulePointChange x) s fun d =>
      d.now = max s.dev.now stamp ∧ (d.ctx x).changed = b + 1 ∧ d.regs = s.dev.regs ∧ d.mem = s.dev.mem ∧
      (∀ y, y ≠ x.val → d.ctx y = s.dev.ctx y) ∧
      (∀ r, (c.ready.find? fun r => r.change == stamp && r.entry == e) = some r →
        s.dev.ctxQuads x = [] ∨ (∃ q ∈ s.dev.ctxQuads x, q ∉ r.bad) →
          (d.ctx x).entry = e ∧ (d.ctx x).hist.head? = some (stamp, r.over (s.dev.heldWeights x stamp)) ∧ d.hub = s.dev.hub) ∧
      ((∀ r ∈ c.ready, r.change ≠ stamp ∨ r.entry ≠ e) → (d.ctx x).entry = c.entry ∧ (d.ctx x).hist = c.hist ∧
        ∀ q ∈ s.dev.ctxQuads x, (s.dev.src (18 + 8 * q)).en = true → (s.dev.src (18 + 8 * q)).q.length < 8 →
          (d.src (18 + 8 * q)).q = (s.dev.src (18 + 8 * q)).q ++
            [{ cause := 0x0303, loc := s.dev.locOf 4 x, detail := 0, ts := d.ts }])) ∧
    (active → due = none → Gives (.schedulePointChange x) s s.dev) ∧
    (¬ active → Gives (.weightFetchIssue x) s s.dev ∧ Gives (.schedulePointChange x) s s.dev))

/-- CARRIER_BLOCK_COMPLETE of an RX cell moves the clock to the tick at which the next block of the carrier is complete
and gives CARR_STAT its start and code; a context that does not use the block keeps its state. Where one context
uses it and every path of that context has delivered, its stream block has the worst code of its paths: off the
chord it is ready for its packet, and on the chord it waits for the partial sum from below, or, at the tail, leaves
at once. TX cells and cells without a next block change nothing. PARTIAL_SUM_MISSING sends the oldest waiting block
of a context on at its deadline marked 0b11; the blocks behind it follow only where a sum waits for them. With none
waiting nothing changes. Derived from spec/06_sample_chains.md R162, spec/07_beam_engine.md R171,
spec/07_beam_engine.md R184, spec/07_beam_engine.md R185. Where it goes beyond these rules it is the model's own
choice or reading: log entries 2, 3, 8, 32. -/
def Obligations.ReceiveBlocks : Prop :=
  ∀ (s : State) (cell : Fin 128) (k : Fin 8) (x : Fin 128), s.dev.powered = true →
    let p := cell.val - 64
    let c := s.dev.ctx x
    (cell.val < 64 ∨ s.dev.nextBlock p k = none → Gives (.carrierBlockComplete cell k) s s.dev) ∧
    (∀ b, 64 ≤ cell.val → s.dev.nextBlock p k = some b →
      let m := s.dev.carrierBlock p k
      let users := (s.dev.cfgAt b).rxUsers ((s.dev.cfgAt b).tableCell p) k
      let takes := users = [x.val] ∧ m.streamReady x b = true ∧ c.doneTo ≤ b
      let g := m.cfgAt b
      Reaches (.carrierBlockComplete cell k) s fun d => d.now = max s.dev.now (s.dev.blockReadyAt p k b) ∧
        (d.carrOf cell k).last = some (b, (s.dev.goTo (s.dev.blockReadyAt p k b)).blockCode p k b) ∧
        d.regs = s.dev.regs ∧ d.mem = s.dev.mem ∧ (x.val ∉ users → d.ctx x = c) ∧
        (takes → g.ctxChord x = false →
          (d.ctx x).kind = m.streamCode x b ∧ (d.ctx x).doneTo = b + 1 ∧
          ∃ y, (d.ctx x).out = c.out ++ [y] ∧ y.at_ = b ∧ y.code = m.streamCode x b) ∧
        (takes → g.ctxChord x = true → c.own = [] → s.dev.role = 3 →
          (d.ctx x).kind = m.streamCode x b ∧ (d.ctx x).doneTo = b + 1 ∧ (d.ctx x).own = [] ∧
          ∃ y, (d.ctx x).out = c.out ++ [y] ∧ y.at_ = b ∧ y.code = m.streamCode x b) ∧
        (takes → g.ctxChord x = true → c.own = [] → s.dev.role ≠ 3 → (∀ y ∈ s.dev.beam.psum, y.ctx ≠ x.val ∨ y.at_ ≠ b) →
          (d.ctx x).out = c.out ∧ (d.ctx x).doneTo = b + 1 ∧
          ∃ y, (d.ctx x).own = [y] ∧ y.at_ = b ∧ y.code = m.streamCode x b ∧ y.vals = m.streamSums x b)) ∧
    (∀ b rest, c.own = b :: rest → Reaches (.partialSumMissing x) s fun d =>
      d.now = max s.dev.now (b.at_ + s.dev.partialLead) ∧
      (∃ y l, (d.ctx x).out = c.out ++ [y] ++ l ∧ y.at_ = b.at_ ∧ y.code = 3) ∧
      (s.dev.role ≠ 3 → (∀ y ∈ s.dev.beam.psum, y.ctx ≠ x.val) →
        (d.ctx x).own = rest ∧ (d.ctx x).kind = 3 ∧ ∃ y, (d.ctx x).out = c.out ++ [y]) ∧
      (∀ y, y ≠ x.val → d.ctx y = s.dev.ctx y) ∧ d.regs = s.dev.regs) ∧
    (c.own = [] → Gives (.partialSumMissing x) s s.dev)

/-- DPD_SWAP_REQUEST under the guard lock or beside a bound swap changes nothing; otherwise it places, or takes the
place of, the pending swap, aimed at the next usable slot boundary in RUN and bound at once outside RUN.
DPD_SWAP_CANCEL drops a pending swap. DPD_BIND binds it 2,048 ticks before its boundary. BANK_FETCH_DONE of a bank
that passes Table 8.2 holds it for the boundary, or makes it LIVE outside RUN; a bank that fails leaves LIVE and
locks the path with the check number; one that reads with an uncorrectable error ends the swap. DPD_BANK_SWAP at the
boundary of a bound swap makes the fetched bank LIVE and the bank before it PREV, or drops a swap whose bank has not
come and, when no command asked for it, reports DPD_LATE; a swap whose boundary a trip reaches first waits for the
trip. GUARD_JUDGEMENT at the end of the next 4,096-tick interval of a path with its guards on and an effective mode
other than OFF, when the whole interval lies in ON in one mode with nothing of the path changed, measured from the
path's u and z, notes a trip of kind EXPAND (2), or CLIP (3) when only that applies, for 256 ticks later, and only
that the interval was judged when neither applies or it is not eligible. GUARD_FALLBACK at that tick takes LIVE from
PREV (STORE FALLBACK), then from the identity bank (STORE IDENTITY), and leaves the stores after that; the path is
locked with the kind, a pending swap and a bound one whose boundary lies at or after that tick are dropped, and
DPD_GUARD is reported once. Where there is no such swap or trip the path stays as it was. Derived from
spec/08_predistortion.md R204, spec/08_predistortion.md R205, spec/08_predistortion.md R206,
spec/08_predistortion.md R209, spec/08_predistortion.md R207, spec/08_predistortion.md R208. Where it goes beyond
these rules it is the model's own choice or reading: log entries 2, 8, 11, 33. -/
def Obligations.Predistortion : Prop :=
  (∀ (s : State) (p : Fin 64) (bank : Fin 2) (w : DSwap), s.dev.powered = true →
    let x := s.dev.path p
    let image := Memory.readWords s.dev.mem (bankAddr p w.bank) 128
    let err := bankCheck (s.dev.f (.dpdGrd p) 19 16) p image
    let bad := s.dev.badAt (bankAddr p w.bank) 128 = true
    let becomes (i : Instr) (f : Dev → PathProc) : Prop := Reaches i s fun d => d.path p = f d ∧
      (∀ k, k ≠ p.val → d.path k = s.dev.path k) ∧ d.mem = s.dev.mem ∧
      ∀ r : Reg, r.addr ≠ (Reg.dpdSwap p).addr → d.reg r = s.dev.reg r
    let swapped (now : Nat) (l : List Word) : PathProc :=
      { x with prev := x.live, live := some l, store := 0, swap := none
               lives := (now, x.live) :: x.lives.filter fun e => decide (now ≤ e.1 + 131072)
               chgs := now :: x.chgs.filter fun e => decide (now ≤ e + 131072) }
    (x.lock = true → Gives (.dpdSwapRequest p bank) s s.dev) ∧
    (x.lock = false → x.swap = none ∨ (x.swap = some w ∧ w.bound = false) → becomes (.dpdSwapRequest p bank) fun d =>
      { x with swap := some { bank := bank, tag := none, bound := x.swap.isNone && !s.dev.running
                              target := if x.swap.isSome ∨ s.dev.running = true then d.swapTarget p else s.dev.now } }) ∧
    (x.swap = some w → w.bound = true →
      Gives (.dpdSwapRequest p bank) s s.dev ∧ Gives (.dpdSwapCancel p) s s.dev ∧ Gives (.dpdBind p) s s.dev) ∧
    (x.swap = none → becomes (.dpdSwapCancel p) fun _ => x) ∧
    (x.swap = some w → w.bound = false → becomes (.dpdSwapCancel p) (fun _ => { x with swap := none }) ∧
      Gives (.dpdBind p) s (({ s.dev with now := max s.dev.now (w.target - 2048) } : Dev).setPath p
        { x with swap := some { w with bound := true } })) ∧
    (x.swap = some w → w.bound = true → w.got = none →
      (¬ bad → err = 0 → s.dev.running = true → Gives (.bankFetchDone p) s
        (s.dev.setPath p { x with swap := some { w with got := some image } })) ∧
      (¬ bad → err = 0 → s.dev.running = false → becomes (.bankFetchDone p) fun d => swapped d.now image) ∧
      (¬ bad → err ≠ 0 → becomes (.bankFetchDone p) fun _ =>
        { x with swap := none, lock := true, gkind := 1, bankErr := err }) ∧
      (bad → becomes (.bankFetchDone p) fun _ => { x with swap := none })) ∧
    (x.swap = some w → w.bound = false ∨ w.got.isSome = true → Gives (.bankFetchDone p) s s.dev) ∧
    (x.swap = some w → w.bound = true → s.dev.tripsBy p w.target = false → Reaches (.dpdBankSwap p) s fun d =>
      d.now = max s.dev.now w.target ∧ d.mem = s.dev.mem ∧
      d.path p = (match w.got with
        | some l => swapped d.now l
        | none => { x with swap := none }) ∧
      (w.got = none → w.tag = none →
        (s.dev.src (19 + 8 * (p.val / 16))).en = true → (s.dev.src (19 + 8 * (p.val / 16))).q.length < 8 →
        (d.src (19 + 8 * (p.val / 16))).q = (s.dev.src (19 + 8 * (p.val / 16))).q ++
          [{ cause := 0x0304, loc := s.dev.locOf 3 p, detail := 0, ts := d.ts }])) ∧
    (x.swap = some w → w.bound = false ∨ s.dev.tripsBy p w.target = true → Gives (.dpdBankSwap p) s s.dev) ∧
    (x.swap = none → Gives (.dpdBind p) s s.dev ∧ Gives (.bankFetchDone p) s s.dev ∧ Gives (.dpdBankSwap p) s s.dev)) ∧
  (∀ (s : State) (p : Fin 64) (t kind : Nat), s.dev.powered = true →
    let x := s.dev.path p
    let guards := s.dev.running = true ∧ s.dev.fb (.dpdGrd p) 31 = true ∧ x.eff ≠ 0
    let e := s.dev.guardEnd p
    let y := { x with judgedTo := e }
    let u := (s.dev.goTo e).setPath p y
    let m := u.guardMeas p e
    let inside (k : Nat) := e ≤ k + 4096 ∧ k < e
    let eligible := u.effMode p (e - 1) ≠ 0 ∧ (∀ k, k < 4096 → u.onAt p (e - 4096 + k) = true) ∧
      (∀ k ∈ x.chgs, ¬ inside k) ∧ (∀ k ∈ x.grds, ¬ inside k) ∧ s.dev.tb.t0 + 4096 ≤ e ∧
      m.coded = true ∧ 4096 * 2 ^ 30 ≤ m.pu * 10000
    let expand := m.pu ^ 40 * 10 ^ s.dev.f (.dpdGrd p) 5 0 < m.pz ^ 40
    let clip := s.dev.f (.dpdGrd p) 15 8 < m.clip
    let source := 22 + 8 * (p.val / 16)
    (guards → eligible → expand → Gives (.guardJudgement p ()) s (u.setPath p { y with trip := some (e + 256, 2) })) ∧
    (guards → eligible → ¬ expand → clip → Gives (.guardJudgement p ()) s (u.setPath p { y with trip := some (e + 256, 3) })) ∧
    (guards → ¬ eligible ∨ (¬ expand ∧ ¬ clip) → Gives (.guardJudgement p ()) s u) ∧
    (¬ guards → Gives (.guardJudgement p ()) s s.dev) ∧
    (x.trip = some (t, kind) → Reaches (.guardFallback p) s fun d => d.now = max s.dev.now t ∧
      d.path p = { x with trip := none, lock := true, gkind := kind, bankErr := 0
                          swap := x.swap.filter fun w => w.bound && decide (w.target < t)
                          lives := if x.store < 2 then (d.now, x.live) :: x.lives.filter (fun e => decide (d.now ≤ e.1 + 131072))
                                   else x.lives
                          chgs := if x.store < 2 then d.now :: x.chgs.filter (fun e => decide (d.now ≤ e + 131072)) else x.chgs
                          live := if x.store = 0 then x.prev else if x.store = 1 then none else x.live
                          store := if x.store = 0 then 1 else if x.store = 1 then 2 else x.store } ∧
      (∀ k, k ≠ p.val → d.path k = s.dev.path k) ∧ d.regs = s.dev.regs ∧ d.mem = s.dev.mem ∧
      ((s.dev.src source).en = true → (s.dev.src source).q.length < 8 → (d.src source).q = (s.dev.src source).q ++
        [{ cause := 0x0307, loc := s.dev.locOf 3 p, detail := 0, ts := d.ts }])) ∧
    (x.trip = none → Gives (.guardFallback p) s s.dev))

/-- STEP_PLACEMENT places the engine's next step at least 2,048 ticks ahead on a path-block boundary, where its gap is
free and no step of the block overlaps. CAL_ORX_REQUEST asks for the class-1 job of a step 2,048 ticks before it
while the ORX is on. STEP_START, while no other step of the unit runs, takes the cell when the temperature is in the
window, the gap stands, the LO is READY and the ORX job was granted; it withdraws the step when only the gap, the LO
or the grant is missing, and ends the run, or the background update, outside the temperature window. STEP_END
returns the cell, and the step leaves the engine: of a step that passed, the run goes on and takes the value of the
last step of its kind; of one that failed, the run ends, or the background update ends and CAL_BG reports it. No
step stores anything. Each changes nothing where there is no such step. Derived from spec/09_calibration.md R221,
spec/09_calibration.md R223, spec/09_calibration.md R224, spec/09_calibration.md R226, spec/09_calibration.md R231,
spec/09_calibration.md R233, spec/01_array_hierarchy.md R13. Where it goes beyond these rules it is the model's own
choice or reading: log entries 2, 8, 13. -/
def Obligations.CalibrationSteps : Prop :=
  ∀ (s : State) (q : Fin 4) (v : CalUnit) (y : CalStep) (r : StepResult), s.dev.powered = true →
    let x := s.dev.calq (calQuad v)
    let u := s.dev.goTo y.start
    let waiting := x.firstStep v fun z => calOrx z.kind && !z.asked && !z.running
    let next := x.firstStep v fun z => !z.running
    let current := x.firstStep v fun z => z.running
    let alone := ∀ z ∈ x.steps, z.unit ≠ v ∨ z.running = false
    let granted := calOrx y.kind = true → u.calGranted v y.start = true
    let failed := r = .overRange ∨ r = .outOfRange
    let source := 96 + calQuad v
    let gone (d : Dev) (now : Nat) := d.now = max s.dev.now now ∧ y ∉ (d.calq (calQuad v)).steps ∧
      (d.calq (calQuad v)).store = x.store ∧ d.regs = s.dev.regs ∧ d.mem = s.dev.mem
    (∀ z, s.dev.calChoice q = some z → s.dev.now + 2048 ≤ z.start ∧ (z.start - s.dev.tb.t0) % 16 = 0 ∧
      s.dev.calGap z.unit z.kind z.start = true ∧ (s.dev.calq q).overlaps (calBlock z.unit) z.start z.kind = false ∧
      Gives (.stepPlacement q) s (s.dev.setCalq q { s.dev.calq q with steps := (s.dev.calq q).steps ++ [z] })) ∧
    (s.dev.calChoice q = none → Gives (.stepPlacement q) s s.dev) ∧
    (waiting = some y → Reaches (.calOrxRequest v) s fun d =>
      d.now = max s.dev.now (y.start - 2048) ∧ d.regs = s.dev.regs ∧ d.mem = s.dev.mem ∧
      (d.calq (calQuad v)).steps = x.steps.map (fun z => if z = y then { z with asked := true } else z) ∧
      ((s.dev.block (calBlock v)).orx ≠ .off → ∃ j : OrxJob, j.who = .cal v y.start ∧ j.cls = 1 ∧ j.since = d.now ∧
        (d.block (calBlock v)).orxQ = (s.dev.block (calBlock v)).orxQ ++ [j]) ∧
      ((s.dev.block (calBlock v)).orx = .off → ∀ b, d.block b = s.dev.block b)) ∧
    (waiting = none → Gives (.calOrxRequest v) s s.dev) ∧
    (¬ alone ∨ next = none → Gives (.stepStart v) s s.dev) ∧
    (alone → next = some y → x.inWindow = true →
      (u.calGap v y.kind u.now = true → granted → u.calReady v = true → Reaches (.stepStart v) s fun d =>
        d.now = max s.dev.now y.start ∧ d.regs = s.dev.regs ∧ d.mem = s.dev.mem ∧
        (d.calq (calQuad v)).steps = x.steps.map (fun z => if z = y then { z with running := true } else z) ∧
        (∀ i, v = .cell i → i.val < 64 → (d.tx i).held = true) ∧
        (∀ i, v = .cell i → 64 ≤ i.val → (d.rx (i - 64)).held = true)) ∧
      (u.calGap v y.kind u.now = false ∨ ¬ granted ∨ u.calReady v = false → Reaches (.stepStart v) s fun d =>
        gone d y.start ∧ (d.calq (calQuad v)).run = x.run)) ∧
    (alone → next = some y → x.inWindow = false → y.bg = true ∨ x.run.isSome = true → Reaches (.stepStart v) s fun d =>
      gone d y.start ∧ (y.bg = false → (d.calq (calQuad v)).run = none)) ∧
    (current = none → Gives (.stepEnd v r) s s.dev) ∧
    (current = some y → Reaches (.stepEnd v r) s fun d => gone d (y.start + calTicks y.kind) ∧
      (∀ i, v = .cell i → i.val < 64 → (d.tx i).held = false) ∧
      (∀ i, v = .cell i → 64 ≤ i.val → (d.rx (i - 64)).held = false) ∧
      (failed → y.bg = false → (d.calq (calQuad v)).run = none) ∧
      (failed → y.bg = true → (d.calq (calQuad v)).run = x.run ∧
        ((s.dev.src source).en = true → (s.dev.src source).q.length < 8 → (d.src source).q = (s.dev.src source).q ++
          [{ cause := 0, loc := s.dev.calLoc v, ts := d.ts
             detail := BitVec.ofNat 16 (256 * y.kind + if r = .overRange then 0x14 else 0x15) }])) ∧
      (∀ vals t, r = .passed vals → y.bg = false → x.run = some t → ∃ t', (d.calq (calQuad v)).run = some t' ∧
        t'.vals = if y.idx + 1 = calSteps y.kind then t.vals ++ [{ unit := v, kind := y.kind, freq := s.dev.calFreq v
                                                                   temp := x.temp, vals := takeWords (calWords y.kind) vals }]
                  else t.vals))

/-- CAL_STORE at the next storing tick of a quadrant stores by R234, in order, the values of the background updates
whose tick it is and then those of a finished run, when the temperature is in the window, and none otherwise; the
updates and the run end, and a lone update that is stored reports CAL_BG. CAL_TIMEOUT ends a run at its deadline
with nothing stored. BACKGROUND_UPDATE_DUE starts the update that falls due. CAL_EXPORT_DONE writes the image of the
store, and nothing else, when it fits. CAL_IMPORT_APPLY replaces the store by the image's records, CAL_CLEAR_APPLY
drops the named points. Each changes nothing where there is nothing to do. A value at another frequency replaces
every point. Derived from spec/09_calibration.md R227, spec/09_calibration.md R228, spec/09_calibration.md R229,
spec/09_calibration.md R234, spec/09_calibration.md R236, spec/09_calibration.md R238, spec/09_calibration.md R241.
Where it goes beyond these rules it is the model's own choice or reading: log entries 2, 8, 13. -/
def Obligations.CalibrationStore : Prop :=
  ∀ (s : State) (q : Fin 4) (v : CalUnit) (k : Fin 7), s.dev.powered = true →
    let x := s.dev.calq q
    (∀ t, s.dev.calStoreAt q = some t →
      let now := max s.dev.now t
      let due := x.bg.filter fun b => b.got.any fun g => decide (s.dev.storeTick g.2 ≤ now)
      let run := x.run.filter fun r => r.lastEnd.any fun e => decide (s.dev.storeTick e ≤ now)
      let vals := due.filterMap (fun b => b.got.map (·.1)) ++ (run.map (·.vals)).getD []
      Reaches (.calStore q) s fun d => d.now = now ∧ d.regs = s.dev.regs ∧ d.mem = s.dev.mem ∧
        (d.calq q).store = (if x.inWindow = true then vals.foldl storeVal x.store else x.store) ∧
        (d.calq q).run = (if run.isSome then none else x.run) ∧
        (d.calq q).bg = x.bg.filter (fun b => !due.any fun c => c.task.unit == b.task.unit && c.task.kind == b.task.kind) ∧
        (∀ b, due = [b] → x.inWindow = true → (s.dev.src (96 + q)).en = true → (s.dev.src (96 + q)).q.length < 8 →
          (d.src (96 + q)).q = (s.dev.src (96 + q)).q ++
            [{ cause := 0, loc := s.dev.calLoc b.task.unit, detail := BitVec.ofNat 16 (256 * b.task.kind), ts := d.ts }])) ∧
    (s.dev.calStoreAt q = none → Gives (.calStore q) s s.dev) ∧
    (x.bg = [] → x.run = none → s.dev.calStoreAt q = none) ∧
    (∀ r, x.run = some r → Reaches (.calTimeout q) s fun d => d.now = max s.dev.now r.deadline ∧ (d.calq q).run = none ∧
      (d.calq q).store = x.store ∧ d.regs = s.dev.regs ∧ d.mem = s.dev.mem) ∧
    (x.run = none → Gives (.calTimeout q) s s.dev) ∧
    (∀ t, s.dev.bgDueAt v k = some t → Reaches (.backgroundUpdateDue v k) s fun d => d.now = max s.dev.now t ∧
      { task := { unit := v, kind := k.val } } ∈ (d.calq (calQuad v)).bg ∧ d.regs = s.dev.regs) ∧
    (s.dev.bgDueAt v k = none → Gives (.backgroundUpdateDue v k) s s.dev) ∧
    (∀ e rest, x.exp = e :: rest →
      let u := s.dev.goTo e.at_
      let img := calImage q x.store u.ts
      Reaches (.calExportDone q) s fun d => d.now = u.now ∧ (d.calq q).exp = rest ∧ (d.calq q).store = x.store ∧
        d.regs = s.dev.regs ∧
        (4 * img.length ≤ e.maxLen → (∀ i (h : i < img.length), Memory.readWord d.mem (e.addr + 4 * i) = img[i]) ∧
          ∀ a, a < e.addr ∨ e.addr + 4 * img.length ≤ a → Memory.read d.mem a = Memory.read s.dev.mem a) ∧
        (e.maxLen < 4 * img.length → d.mem = s.dev.mem)) ∧
    (x.exp = [] → Gives (.calExportDone q) s s.dev) ∧
    (∀ i, x.imp = some i → Reaches (.calImportApply q) s fun d => d.now = max s.dev.now i.at_ ∧
      (d.calq q).store = i.recs ∧ (d.calq q).imp = none ∧ (d.calq q).temp = x.temp ∧ d.regs = s.dev.regs) ∧
    (x.imp = none → Gives (.calImportApply q) s s.dev) ∧
    (∀ c rest, x.clr = c :: rest → Reaches (.calClearApply q) s fun d => d.now = max s.dev.now c.at_ ∧
      (d.calq q).clr = rest ∧ d.regs = s.dev.regs ∧
      ∀ r, r ∈ (d.calq q).store ↔ r ∈ x.store ∧ ¬ (r.unit ∈ c.units ∧ c.kinds.testBit r.kind = true)) ∧
    (x.clr = [] → Gives (.calClearApply q) s s.dev) ∧
    (∀ (l : List CalRec) (z : CalVal) (r : CalRec), (l.find? fun r => r.isOf z.unit z.kind) = some r → r.freq ≠ z.freq →
      ((storeVal l z).find? fun r => r.isOf z.unit z.kind) = some { r with freq := z.freq, pts := [(z.temp, z.vals)] })

/-- LOS, BLOCK_LOCK and COMMA_LOCK set their detector; the lane is ready exactly when it then sees a signal with both
locks, an enabled group holds it, and its commas are in step with those of the group's other ready lanes; a lane of
group U that trains so leaves HOP_LAT at 1,573 ticks at most. RXOK_ADD gives a lane that has been ready in RUN its
RXOK bit 1 ms after it became ready. LANE_LOST reports a loss noted, 1 us later, with its time. LANE_ADD_TRAINING
starts an added lane; REMOVED_LANE takes a removed lane out of TXMASK at a superblock boundary and powers it down,
and a group whose TXMASK would be empty enters TRAIN. PARTNER_SLEEP powers a receiver down, and the head reports
CHORD_HOP_FAIL when its hop loses its last lane by it. PARTNER_RELOCK_TIMEOUT ends the sleep 100 us after LOS
cleared; 2 ms after LOS cleared it sends a group in RUN with no ready lane to LISTEN, and reports the lane
otherwise. EQUALISER_ADAPT moves CTLE and each DFE tap by at most one code, 10 us after the last time. A good comma
on a lane of a group gives the partner's RXOK, TXMASK, CTRL and chip number and the lane's SEQ; CTRL SLEEP puts the
lane's receiver to sleep, a RATE announcement takes a group in RUN to RATE, and in RUN otherwise one that leaves
some lane queues the change that it asks for, present lanes still in RXOK and newly returned ones, for the second
superblock boundary, and one that leaves none notes that boundary. A comma that fails its CRC, or on a lane of no
group, changes nothing. TXMASK_CHANGE applies the first queued change to the TXMASK in force at its boundary, unless
it would leave none. EMPTY_RXOK sends the group back to TRAIN at its boundary, and group H reports it once. Each
changes nothing with none queued. Derived from spec/10_fleob_lanes.md R250, spec/10_fleob_lanes.md R251,
spec/10_fleob_lanes.md R252, spec/10_fleob_lanes.md R256, spec/10_fleob_lanes.md R258, spec/10_fleob_lanes.md R265,
spec/02_time_and_release.md R64, spec/10_fleob_lanes.md R248, spec/10_fleob_lanes.md R259, spec/10_fleob_lanes.md
R260, spec/07_beam_engine.md R188. Where it goes beyond these rules it is the model's own choice or reading: log
entries 2, 3, 5, 8, 14, 38. -/
def Obligations.Lanes : Prop :=
  (∀ (s : State) (n : Fin 16) (on : Bool), s.dev.powered = true →
    let x := s.dev.lane n
    let detects (i : Instr) (los blk comma : Bool) : Prop := Reaches i s fun d => (d.lane n).los = los ∧
      (d.lane n).blk = blk ∧ (d.lane n).comma = comma ∧
      (d.lane n).ready = (!los && blk && comma && (s.dev.groupOf n).any fun g => d.inStep g n) ∧
      (∀ k, k ≠ n.val → d.lane k = s.dev.lane k) ∧ d.regs = s.dev.regs ∧ d.mem = s.dev.mem ∧
      (s.dev.groupOf n = some 1 → x.ready = false → x.wokeAt = none → x.psleep = false → (d.lane n).ready = true →
        d.tb.hopLat ≤ 1573)
    let run := ∃ g, s.dev.groupOf n = some g ∧ s.dev.groupRun g = true
    let reports (d : Dev) (ts : BitVec 48) : Prop := (s.dev.src 2).en = true → (s.dev.src 2).q.length < 8 →
      (d.src 2).q = (s.dev.src 2).q ++ [{ cause := 0x0401, loc := s.dev.locOf 5 (16 + n), detail := 0, ts := ts }]
    let asleep := { x with psleep := true, ready := false, rxok := false, blk := false, comma := false, wokeAt := none
                           lateAt := none, lostAt := none, com := none }
    detects (.los n on) on x.blk x.comma ∧ detects (.blockLock n on) x.los on x.comma ∧
    detects (.commaLock n on) x.los x.blk on ∧
    (run → x.ready = true → x.rxok = false → Gives (.rxokAdd n) s
      (({ s.dev with now := max s.dev.now (x.readyAt + ms 1) } : Dev).setLane n { x with rxok := true })) ∧
    (¬ run ∨ x.ready = false ∨ x.rxok = true → Gives (.rxokAdd n) s s.dev) ∧
    (∀ t, x.lostAt = some t → Reaches (.laneLost n) s fun d => d.now = max s.dev.now (t + us 1) ∧
      d.lane n = { x with lostAt := none } ∧ d.regs = s.dev.regs ∧ reports d (s.dev.tsAt t)) ∧
    (x.lostAt = none → Gives (.laneLost n) s s.dev) ∧
    (x.adding = true → Gives (.laneAddTraining n) s (s.dev.setLane n { x with adding := false })) ∧
    (x.adding = false → Gives (.laneAddTraining n) s s.dev) ∧
    (x.removing = true → Reaches (.removedLane n) s fun d => d.lane n = {} ∧ d.regs = s.dev.regs ∧
      ∀ g, ([0, 1, 2].find? fun g => (s.dev.lg g).txmask.testBit n) = some g →
        let m := (s.dev.lg g).txmask &&& (0xFFFF ^^^ 2 ^ n.val)
        d.now = max s.dev.now (s.dev.boundaryFrom g) ∧ (d.lg g).txmask = m ∧
        (d.lg g).st = if m = 0 then .train else (s.dev.lg g).st) ∧
    (x.removing = false → Gives (.removedLane n) s s.dev) ∧
    (s.dev.role ≠ 1 → Gives (.partnerSleep n) s (s.dev.setLane n asleep)) ∧
    (s.dev.role = 1 → Reaches (.partnerSleep n) s fun d => d.lane n = asleep ∧ d.now = s.dev.now ∧ d.regs = s.dev.regs ∧
      (∀ k, k ≠ n.val → d.lane k = s.dev.lane k) ∧ d.lat.hop0Up = d.downOk ∧
      (s.dev.lat.hop0Up = true → d.downOk = false → d.lat.hop0Fail = true ∧
        ((s.dev.src 11).en = true → (s.dev.src 11).q.length < 8 → (d.src 11).q = (s.dev.src 11).q ++
          [{ cause := 0x0503, loc := s.dev.locOf 0 0, detail := 0, ts := s.dev.ts }]))) ∧
    (∀ t, x.wokeAt = some t → Gives (.partnerRelockTimeout n) s
      (({ s.dev with now := max s.dev.now (t + us 100) } : Dev).setLane n { x with wokeAt := none, lateAt := some t })) ∧
    (∀ t, x.wokeAt = none → x.lateAt = some t → Reaches (.partnerRelockTimeout n) s fun d =>
      d.now = max s.dev.now (t + ms 2) ∧ d.lane n = { x with lateAt := none } ∧ d.regs = s.dev.regs ∧
      ∀ g, s.dev.groupOf n = some g →
        (s.dev.groupRun g = true → s.dev.readyMask g = 0 → (d.lg g).st = .listen) ∧
        (s.dev.groupRun g = false ∨ s.dev.readyMask g ≠ 0 → d.lg g = s.dev.lg g ∧ reports d d.ts)) ∧
    (x.wokeAt = none → x.lateAt = none → Gives (.partnerRelockTimeout n) s s.dev) ∧
    (run → x.ready = true → x.ctle ≤ 24 → Reaches (.equaliserAdapt n) s fun d =>
      d.now = max s.dev.now (x.adaptAt + us 10) ∧ (d.lane n).adaptAt = d.now ∧
      (d.lane n).ctle ≤ 24 ∧ (d.lane n).ctle ≤ x.ctle + 1 ∧ x.ctle ≤ (d.lane n).ctle + 1 ∧ d.regs = s.dev.regs ∧
      ∀ i, i < 12 → let tap (y : Lane) : Int := Tbl.get (fun _ => 0) y.dfe i;
        -128 ≤ tap x → tap x ≤ 127 → -128 ≤ tap (d.lane n) ∧ tap (d.lane n) ≤ 127 ∧
          tap (d.lane n) ≤ tap x + 1 ∧ tap x ≤ tap (d.lane n) + 1) ∧
    (¬ run ∨ x.ready = false → Gives (.equaliserAdapt n) s s.dev)) ∧
  (∀ (s : State) (n : Fin 16) (g : Fin 3) (w : BitVec 64), s.dev.powered = true →
    let x := s.dev.lg g
    let rxok := w.toNat / 2 ^ 32 % 65536
    let ctrl := w.toNat / 2 ^ 12 % 16
    let good := w.toNat / 2 ^ 48 = crcOf 3 (natBytes 6 (w.toNat % 2 ^ 48)) ∧ ctrl ≤ 6
    let added := rxok &&& (0xFFFF ^^^ x.peerRxok)
    let ahead := s.dev.maskAhead g
    let want := (ahead &&& rxok) ||| (s.dev.lanes g &&& added &&& rxok)
    let follows := ctrl ≤ 2 ∧ x.st = .run ∧ x.txsleep = false ∧ x.waking = false
    (good → s.dev.groupOf n = some g.val → Reaches (.comma n w) s fun d =>
      (d.lg g).peerRxok = rxok ∧ (d.lg g).peerTx = w.toNat / 2 ^ 16 % 65536 ∧ (d.lg g).peerCtrl = ctrl ∧
      (d.lg g).peerChip = w.toNat / 16 % 8 ∧ d.regs = s.dev.regs ∧ d.mem = s.dev.mem ∧
      (ctrl = 3 → (d.lane n).psleep = true ∧ (d.lane n).ready = false) ∧
      (ctrl ≠ 3 → (d.lane n).com = some (s.dev.now, w.toNat / 256 % 16)) ∧
      (4 ≤ ctrl → x.st = .run → (d.lg g).st = .rate ∧ (d.lg g).newRate = some (ctrl - 4) ∧ (d.lg g).txmask = 0) ∧
      (follows → rxok &&& s.dev.lanes g ≠ 0 → (d.lg g).txmask = x.txmask ∧
        (d.lg g).masks = x.masks ++
          if want ≠ ahead ∧ want ≠ 0 then [(s.dev.boundaryAfter g 2, rxok, added)] else []) ∧
      (follows → rxok &&& s.dev.lanes g = 0 → (d.lg g).masks = x.masks ∧
        (d.lg g).emptied = if x.emptied.isSome then x.emptied else some (s.dev.boundaryAfter g 2))) ∧
    (¬ good ∨ s.dev.groupOf n = none → Gives (.comma n w) s s.dev) ∧
    (∀ t r a rest, x.masks = (t, r, a) :: rest →
      let m := (x.txmask &&& r) ||| (s.dev.lanes g &&& a &&& r)
      Reaches (.txmaskChange g) s fun d => d.now = max s.dev.now t ∧
        (d.lg g).txmask = (if m = 0 then x.txmask else m) ∧ (d.lg g).masks = rest ∧ (d.lg g).st = x.st ∧
        d.regs = s.dev.regs) ∧
    (x.masks = [] → Gives (.txmaskChange g) s s.dev) ∧
    (∀ t, x.emptied = some t → Reaches (.emptyRxok g) s fun d => d.now = max s.dev.now t ∧ (d.lg g).st = .train ∧
      (d.lg g).rate = x.rate ∧ (d.lg g).txmask = 0 ∧ (d.lg g).told = true ∧ d.regs = s.dev.regs ∧
      (g = 0 → x.told = false → (s.dev.src 2).en = true → (s.dev.src 2).q.length < 8 → (d.src 2).q = (s.dev.src 2).q ++
        [{ cause := 0x0401, loc := s.dev.lowTx 0, detail := 1, ts := d.ts }])) ∧
    (x.emptied = none → Gives (.emptyRxok g) s s.dev))

/-- TRAINING_ATTEMPT of a group in LISTEN enters TRAIN at its time, at every second attempt at 10.3125 Gb/s, outside
NO_REF. LINK_UP with both ends ready enters RUN at the SEQ 0 boundary with TXMASK = LANES and SEQ 0; a direction
that wakes does so after 2 us at the earliest. TRAINING_TIMEOUT 2 ms after TRAIN was entered, or the wake of the
direction began, enters RUN on the lanes ready at both ends, or LISTEN with none. GROUP_LOST of a group in RUN with
no ready lane, none relocking and the partner not asleep enters LISTEN, and a packet cut off in transmission on VC0,
VC1 or VC7 waits for the next RUN at the head of its queue. RATE_ANNOUNCEMENT enters RATE at a boundary once the
final reply of the commit has left, and RATE_IDLE_END trains at the new rate after 16 superblocks and 2 us. In other
states each changes nothing. Derived from spec/10_fleob_lanes.md R254,
spec/10_fleob_lanes.md R255, spec/10_fleob_lanes.md R256, spec/10_fleob_lanes.md R266. Where it goes beyond these
rules it is the model's own choice or reading: log entries 2, 5, 8, 14. -/
def Obligations.GroupStates : Prop :=
  ∀ (s : State) (g : Fin 3), s.dev.powered = true →
    let x := s.dev.lg g
    let both := s.dev.lanes g &&& s.dev.readyMask g &&& x.peerRxok
    let up := if x.waking then { s.dev with now := max s.dev.now (x.trainAt + 1966) } else s.dev
    let training := x.st = .train ∨ x.waking = true
    let changing := x.st = .run ∧ x.newRate.isSome = true ∧ s.dev.finalWaits x.rateTag = false
    let lost := s.dev.groupRun g = true ∧ s.dev.readyMask g = 0 ∧ s.dev.peerAsleep g = false ∧ s.dev.relocks g = false
    let limit := (if x.waking then x.wakeAt else x.trainAt) + ms 2
    (∀ t, x.attemptAt = some t → x.st = .listen → s.dev.tb.st ≠ .noRef → Reaches (.trainingAttempt g) s fun d =>
      d.now = max s.dev.now t ∧ (d.lg g).st = .train ∧ (d.lg g).trainAt = d.now ∧ (d.lg g).txmask = 0 ∧
      (d.lg g).rate = (if x.attempts % 2 = 0 then s.dev.lgRate g else 0) ∧ (d.lg g).attempts = x.attempts + 1 ∧
      (d.lg g).lastTry = some d.now ∧ d.regs = s.dev.regs) ∧
    (x.attemptAt = none ∨ x.st ≠ .listen ∨ s.dev.tb.st = .noRef → Gives (.trainingAttempt g) s s.dev) ∧
    (s.dev.bothReady g = true → Reaches (.linkUp g) s fun d => d.now = max up.now (up.seqZero g) ∧
      (d.lg g).st = .run ∧ (d.lg g).txmask = s.dev.lanes g ∧ (d.lg g).seq = 0 ∧ (d.lg g).seqAt = d.now ∧
      (d.lg g).told = false ∧ (d.lg g).retrain = [] ∧ d.regs = s.dev.regs ∧
      ∀ n ∈ s.dev.laneList g, (s.dev.lane n).ready = true → (d.lane n).rxok = true) ∧
    (s.dev.bothReady g = false → Gives (.linkUp g) s s.dev) ∧
    (training → both ≠ 0 → Reaches (.trainingTimeout g) s fun d => s.dev.now ≤ d.now ∧ limit ≤ d.now ∧
      (d.lg g).st = .run ∧ (d.lg g).txmask = both ∧ d.regs = s.dev.regs) ∧
    (training → both = 0 → Reaches (.trainingTimeout g) s fun d => d.now = max s.dev.now limit ∧
      (d.lg g).st = .listen ∧ (d.lg g).txmask = 0 ∧ (d.lg g).told = true ∧ d.regs = s.dev.regs) ∧
    (¬ training → Gives (.trainingTimeout g) s s.dev) ∧
    (lost → Reaches (.groupLost g) s fun d => d.now = s.dev.now ∧ (d.lg g).st = .listen ∧ (d.lg g).txmask = 0 ∧
      (d.lg g).retrain = [] ∧ d.framed g = false ∧ d.wire g = none ∧ d.regs = s.dev.regs ∧
      ∀ p, s.dev.wire g = some p → p.vc = 0 ∨ p.vc = 1 ∨ p.vc = 7 → ∃ l,
        d.queueOf g p.vc = p.pkt :: s.dev.queueOf g p.vc ++ l) ∧
    (¬ lost → Gives (.groupLost g) s s.dev) ∧
    (changing → Reaches (.rateAnnouncement g) s fun d => d.now = max s.dev.now (s.dev.boundaryFrom g) ∧
      (d.lg g).st = .rate ∧ (d.lg g).rateAt = d.now ∧ (d.lg g).txmask = 0 ∧ d.regs = s.dev.regs) ∧
    (¬ changing → Gives (.rateAnnouncement g) s s.dev) ∧
    (∀ r, x.st = .rate → x.newRate = some r → Reaches (.rateIdleEnd g) s fun d =>
      d.now = max s.dev.now (x.rateAt + sbTicks x.rate 16 + us 2) ∧ (d.lg g).st = .train ∧ (d.lg g).rate = r ∧
      (d.lg g).newRate = none ∧ (d.lg g).attempts = 1 ∧ d.regs = s.dev.regs) ∧
    (x.st ≠ .rate ∨ x.newRate = none → Gives (.rateIdleEnd g) s s.dev)

/-- On a group in RUN that is not hunting for a pointer word, words whose header word fails its HCRC, TYPE or PLEN, or
that are not as many as PLEN says, lose framing and report 0x0407 with detail 0xFF; a packet whose check word fails
is discarded, reported with its VC on VC0, VC1 and VC7 only; a COMMAND packet that the host sends on VC0 of group H
of a single chip or head, as long as its LEN says, does what its command packet does. A group that hunts stays as it
is while the pointer word fails its CRC or names no header, and otherwise takes the packet that it names.
FRAMING_LOSS of a framed group loses framing and reports it. On a group not in RUN nothing changes. A command packet
takes its place in the arrival order, after what waits before it: in the boot sequence it changes nothing more. One
whose length or CRC fails is discarded and reported (0x0407, detail 0) with no other effect but on the hub. An
intact one whose tag is in flight gets one final BUSY with DUP; one with an opcode that the part does not have gets
BAD_OPCODE; one with LEN above 1,024 or no multiple of 4 gets BAD_PARAM with DETAIL 0xFFFF, before anything else
happens. NOP, REG.READ and COMMIT packets that pass do what those commands do. Derived from
spec/11_fleob_packets.md R269, spec/11_fleob_packets.md R271, spec/11_fleob_packets.md R274,
spec/11_fleob_packets.md R275, spec/11_fleob_packets.md R277, spec/03_command_plane.md R68, spec/03_command_plane.md
R70, spec/03_command_plane.md R76. Where it goes beyond these rules it is the model's own choice or reading: log
entries 2, 8, 24. -/
def Obligations.Packets : Prop :=
  (∀ (s : State) (g : Fin 3) (w c : BitVec 64) (pl : List (BitVec 64)), s.dev.powered = true → pl.length ≤ 4093 →
    let ws := w :: pl ++ [c]
    let runs := s.dev.boot.phase = .up ∧ s.dev.groupRun g = true
    let y := s.dev.lg g
    let hunts := y.lost = true
    let header := w.toNat / 2 ^ 48 = crcOf 3 (natBytes 6 (w.toNat % 2 ^ 48)) ∧ 1 ≤ w.toNat % 16 ∧ w.toNat % 16 ≤ 11 ∧
      w.toNat / 256 % 4096 = pl.length + 2
    let vc := w.toNat / 16 % 8
    let ready := (s.dev.setFramed g true).polySettle
    let checks := c.toNat % 2 ^ 32 = crcOf (ready.inPoly vc) (bytes64 (w :: pl))
    let x := s.dev.src 8
    let told (d : Dev) (detail : BitVec 16) : Prop := d.regs = s.dev.regs ∧ d.mem = s.dev.mem ∧
      (x.en = true → x.q.length < 8 → ∃ r : Rec, r.cause = 0x0407 ∧ r.detail = detail ∧ (d.src 8).q = x.q ++ [r])
    let loses (i : Instr) : Prop := Reaches i s fun d => d.framed g = false ∧ (d.lg g).lost = true ∧ told d 0xFF
    let len := bytesNat (((bytes64 pl).drop 8).take 2) % 2048
    (¬ runs → Gives (.packetReceived g ws) s s.dev ∧ Gives (.packetReceived g [w]) s s.dev ∧ Gives (.framingLoss g) s s.dev) ∧
    (runs → ¬ hunts → loses (.packetReceived g [w])) ∧
    (runs → ¬ hunts → ¬ header → loses (.packetReceived g ws)) ∧
    (runs → s.dev.framed g = true → loses (.framingLoss g)) ∧
    (s.dev.framed g = false → Gives (.framingLoss g) s s.dev) ∧
    (runs → ¬ hunts → header → ¬ checks → vc = 0 ∨ vc = 1 ∨ vc = 7 → Reaches (.packetReceived g ws) s fun d =>
      d.framed g = true ∧ told d (BitVec.ofNat 16 vc)) ∧
    (runs → ¬ hunts → header → ¬ checks → vc ≠ 0 → vc ≠ 1 → vc ≠ 7 → Gives (.packetReceived g ws) s ready) ∧
    (runs → ¬ hunts → header → checks → w.toNat % 16 = 1 → vc = 0 → g = 0 → s.dev.hostSide = true →
      w.toNat / 2 ^ 20 % 8 = 0 → pl.length = (27 + len) / 8 →
      exec (.packetReceived g ws) s =
        exec (.commandPacket .vc0 ((bytes64 pl).take (20 + len))) { s with dev := ready }) ∧
    (runs → hunts → pointerFirst w = none ∨ w.toNat % 1024 = 0 ∨ ws.length ≤ w.toNat % 1024 ∨
        63 * popcount 16 y.peerTx ≤ w.toNat % 1024 → Gives (.packetReceived g ws) s s.dev) ∧
    (∀ p, runs → hunts → resumeAt (popcount 16 y.peerTx) ws = some p → p ≠ [] → exec (.packetReceived g ws) s =
      exec (.packetReceived g p) { s with dev := s.dev.setLg g { y with lost := false } })) ∧
  (∀ (s : State) (path : Path) (bs : List Byte), s.dev.powered = true →
    let u := s.dev.inTurn path
    let len := bytesNat ((bs.drop 8).take 2) % 2048
    let opc := bytesNat (bs.take 2)
    let h := parseHdr path bs
    let ps := bytesWords ((bs.drop 16).take len)
    let intact := bs.length = 20 + len ∧ bytesNat ((bs.drop (16 + len)).take 4) = crcOf 0 (bs.take (16 + len))
    let fresh := u.boot.phase = .up ∧ intact ∧ u.inFlight h.tag = false
    let known := ∃ e ∈ handlers, e.1 = opc
    let refused (status : Nat) (dup : Bool) (word : Word) : Prop := Gives (.commandPacket path bs) s
      (u.route path { opc := opc, tag := h.tag, status := status, target := h.target, final := true, dup := dup
                      ts := u.ts, result := [word] })
    let as (i : Instr) : Prop := exec (.commandPacket path bs) s = exec i s
    (s.dev.jtag.done = none → path ≠ .vc0 ∨ s.dev.link.bulk = [] → u = s.dev) ∧
    (u.boot.phase ≠ .up → Gives (.commandPacket path bs) s u) ∧
    (u.boot.phase = .up → ¬ intact → Reaches (.commandPacket path bs) s fun d => OnlyHub u d ∧
      (let x := u.src 8
       x.en = true → x.q.length < 8 → (d.src 8).q = x.q ++
         [{ cause := 0x0407, loc := u.locOf 0 0, detail := 0, ts := u.ts }])) ∧
    (u.boot.phase = .up → intact → u.inFlight h.tag = true → refused 0x20 true 0) ∧
    (fresh → ¬ known → refused 0x10 false 0) ∧
    (fresh → known → 1024 < len ∨ len % 4 ≠ 0 → refused 0x11 false 0xFFFF) ∧
    (fresh → len ≤ 1024 → len % 4 = 0 →
      (opc = 0x0000 → as (.nop h ps)) ∧ (opc = 0x0100 → as (.regRead h ps)) ∧ (opc = 0x0201 → as (.commit h ps))))

/-- PACKET_TRANSMITTED of a group ends the packet in transmission, if there is one, with what its leaving does, and
takes, on a group that sends, the oldest packet of the highest channel that has one: VC1 first, on group H then VC0;
VC7 goes first after 256 packets of other channels. The count of those goes up by one, or back to 0 with VC7, and no
other queue changes. With every queue empty, or while the group does not send, no packet begins and the queues stay.
A bulk request waits in the store for those before it; at a full store it is answered RESOURCE. A bulk write that a
single chip, head or member takes and that passes its checks writes its words from its address, little-endian, and
no other byte, and answers BULK_ACK OK when it asks for one; a bulk read of memory without an error answers BULK_DATA
packets of up to 512 words with the words of memory, and one that meets an error INTERNAL. A refused request writes
and reads nothing and answers with its status. A group that takes no bulk requests discards one. Derived from
spec/01_array_hierarchy.md R26, spec/01_array_hierarchy.md R27, spec/11_fleob_packets.md R290,
spec/11_fleob_packets.md R291, spec/11_fleob_packets.md R292. Where it goes beyond these rules it is the model's own
choice or reading: log entries 2, 8, 17, 24. -/
def Obligations.EgressAndBulk : Prop :=
  (∀ (s : State) (g : Fin 3), s.dev.powered = true →
    let u := match s.dev.wire g with
      | some x => (((s.dev.setWire g none).polyReply x.pkt).polySettle).sleepSuperblock g
      | none => s.dev.polySettle
    (s.dev.hiCount g < 256 → s.dev.queueOf g 1 ≠ [] → s.dev.nextVc g = some 1) ∧
    (s.dev.hiCount g < 256 → g = 0 → s.dev.queueOf g 1 = [] → s.dev.queueOf g 0 ≠ [] → s.dev.nextVc g = some 0) ∧
    (256 ≤ s.dev.hiCount g → s.dev.queueOf g 7 ≠ [] → s.dev.nextVc g = some 7) ∧
    (s.dev.sends g = true → ∀ vc p rest, s.dev.nextVc g = some vc → s.dev.queueOf g vc = p :: rest →
      Reaches (.packetTransmitted g) s fun d => d.queueOf g vc = rest ∧
        d.wire g = some { pkt := p, words := u.sentWords vc p } ∧
        d.hiCount g = (if vc = 7 then 0 else s.dev.hiCount g + 1) ∧ d.regs = s.dev.regs ∧ d.now = s.dev.now ∧
        (∀ k, k ≠ 8 * g.val + vc → d.egress k = s.dev.egress k)) ∧
    ((∀ vc, s.dev.queueOf g vc = []) ∨ s.dev.sends g = false → Gives (.packetTransmitted g) s u) ∧
    u.wire g = none ∧ (∀ k, u.egress k = s.dev.egress k) ∧ u.regs = s.dev.regs ∧
    (s.dev.wire g = none → s.dev.link.polyLater = [] → u = s.dev)) ∧
  (∀ (s : State) (r : BulkReq) (data : List Word) (n : BitVec 13), s.dev.powered = true →
    1 ≤ data.length → data.length ≤ 8184 → 1 ≤ n.toNat → n.toNat ≤ 8184 →
    let a := r.addr.toNat
    let wr := s.dev.bulkRefusal true a data.length
    let rd := s.dev.bulkRefusal false a n.toNat
    let here := s.dev.bulkHere r.grp = true
    let room (words : Nat) := s.dev.bulkHeld + 8 * (3 + (words + 1) / 2) ≤ 65536
    let empty := s.dev.link.bulk = []
    let q (d : Dev) := d.queueOf r.grp 7
    let readable := ∀ i, i < n.toNat → isMemory (a + 4 * i) = true ∧
      ∀ b, placeAt (a + 4 * i) = .capture b → s.dev.region b ((a + 4 * i - capBase b) / 0x4000) ≠ 1
    let settled := { s with dev := s.dev.bulkDrain }
    (empty → s.dev.bulkDrain = s.dev) ∧
    (¬ here → Gives (.bulkWr r data) s s.dev.bulkDrain ∧ Gives (.bulkRd r n) s s.dev.bulkDrain) ∧
    (here → ¬ room data.length →
      Gives (.bulkWr r data) s (s.dev.push r.grp 7 (.bulkAck r.addr r.xid sResource)).bulkDrain) ∧
    (here → ¬ room 0 → Gives (.bulkRd r n) s (s.dev.push r.grp 7 (.bulkData r.addr r.xid sResource [])).bulkDrain) ∧
    (here → room data.length → exec (.bulkWr r data) s = exec (.bulkWr r data) settled) ∧
    (here → room 0 → exec (.bulkRd r n) s = exec (.bulkRd r n) settled) ∧
    (here → empty → wr = none → Reaches (.bulkWr r data) s fun d =>
      (∀ i (h : i < data.length), Memory.readWord d.mem (a + 4 * i) = data[i]) ∧
      (∀ b, b < a ∨ a + 4 * data.length ≤ b → Memory.read d.mem b = Memory.read s.dev.mem b) ∧ d.regs = s.dev.regs ∧
      q d = q s.dev ++ (if r.ack = true then [.bulkAck r.addr r.xid 0] else [])) ∧
    (∀ st, here → empty → wr = some st → Gives (.bulkWr r data) s (s.dev.push r.grp 7 (.bulkAck r.addr r.xid st))) ∧
    (here → empty → rd = none → readable → s.dev.rangeError a n.toNat = none →
      Reaches (.bulkRd r n) s fun d => d.mem = s.dev.mem ∧ d.regs = s.dev.regs ∧
        ∃ l : List Pkt, q d = q s.dev ++ l ∧ l.length = (n.toNat + 511) / 512 ∧
          ∀ i, i < l.length → l[i]? = some (.bulkData (mkw (a + 2048 * i)) r.xid 0
            (((Memory.readWords s.dev.mem a n.toNat).drop (512 * i)).take 512))) ∧
    (here → empty → rd = none → (s.dev.rangeError a n.toNat).isSome = true →
      Gives (.bulkRd r n) s (s.dev.push r.grp 7 (.bulkData r.addr r.xid sInternal []))) ∧
    (∀ st, here → empty → rd = some st → Gives (.bulkRd r n) s (s.dev.push r.grp 7 (.bulkData r.addr r.xid st []))))

/-- EXTEST, IDCODE, HIGHZ and CLAMP load their codes in every chip state; EXTEST_PULSE, EXTEST_TRAIN and SVC do too, but
act as BYPASS in SHUTDOWN; BYPASS and any code that Table 17.9 does not list select BYPASS, and a listed code is not
its row; TRSTn selects IDCODE, whose data register holds 0x16464FFF. SAMPLE/PRELOAD loads its code and takes the
levels of FE_PA, FE_TR, FE_AUX, SYNC_OUT and EVENTn. Nothing but the JTAG port changes. With SVC selected and the
chip not in SHUTDOWN, each scan captures the head word of the outbound queue and IN_READY. PUT takes a word into the
packet in assembly, a first one only while IN_READY is 1; the word that completes the packet hands it over, and a
header with a bad LEN discards it with BAD_PARAM. GET removes the head word, lets the replies that wait enter as
room appears, and ends a packet with its last word. FLUSH discards the packet in assembly. Otherwise they change
nothing. SVC_PACKET_TAKEN runs the packet handed over as a command packet on the JTAG path. Derived from
spec/17_electrical_and_package.md R383, spec/15_power_and_heat.md R364, spec/17_electrical_and_package.md Table
17.9, spec/03_command_plane.md R97, spec/03_command_plane.md R98, spec/03_command_plane.md R99. Where it goes beyond
these rules it is the model's own choice or reading: log entries 2, 8, 25. -/
def Obligations.JtagPath : Prop :=
  (∀ (s : State) (code : Byte),
    let loads (i : Instr) (n : Nat) : Prop := Gives i s { s.dev with jtag := { s.dev.jtag with ir := n } }
    let down := s.dev.boot.phase = .shutdown
    loads .extest 0x00 ∧ loads .idcode 0x02 ∧ loads .highz 0x03 ∧ loads .clamp 0x04 ∧ loads .trstn 0x02 ∧
    (¬ down → loads .extestPulse 0x05 ∧ loads .extestTrain 0x06 ∧ loads .svc 0x21) ∧
    (down → loads .extestPulse 0xFF ∧ loads .extestTrain 0xFF ∧ loads .svc 0xFF) ∧
    (code ∉ [0x00, 0x01, 0x02, 0x03, 0x04, 0x05, 0x06, 0x21] → loads (.bypass code) 0xFF) ∧
    (code ∈ [0x00, 0x01, 0x02, 0x03, 0x04, 0x05, 0x06, 0x21] → Gives (.bypass code) s s.dev) ∧
    (∀ d : Dev, d.jtag.ir = 2 → d.dataReg = (32, 0x16464FFF)) ∧
    Reaches .samplePreload s fun d => d.jtag.ir = 1 ∧ { d with jtag := s.dev.jtag, fresh := s.dev.fresh } = s.dev ∧
      { d.jtag with ir := s.dev.jtag.ir, boundary := s.dev.jtag.boundary } = s.dev.jtag ∧
      (∀ p, p < 64 → d.bcell p = s.dev.fePa p) ∧ (∀ p, p < 64 → d.bcell (64 + p) = s.dev.feTr p) ∧
      (∀ b, b < 16 → d.bcell (128 + b) = s.dev.feAuxPin b) ∧ d.bcell 209 = s.dev.tb.syncOut ∧
      d.bcell 210 = !s.dev.eventnLow) ∧
  (∀ (s : State) (w : Word),
    let j := s.dev.jtag
    let on := j.ir = 0x21 ∧ s.dev.boot.phase ≠ .shutdown
    let cap : Jtag := { j with capValid := j.headWord.isSome, capReady := s.dev.inReady, capWord := j.headWord.getD 0 }
    let with_ (k : Jtag) : Dev := { s.dev with jtag := k }
    let ws := j.inb ++ [w]
    let size := 20 + bytesNat (((wordsBytes ws).drop 8).take 2) % 2048
    (¬ on → Gives .svcNone s s.dev ∧ Gives (.put w) s s.dev ∧ Gives .svcGet s s.dev ∧ Gives .flush s s.dev) ∧
    (on → Gives .svcNone s (with_ cap) ∧ Gives .flush s (with_ { cap with inb := [], discard := false })) ∧
    (on → j.inb = [] → s.dev.inReady = false → Gives (.put w) s (with_ cap)) ∧
    (on → ws.length = 4 → size ≤ 1044 → size % 4 = 0 → Gives (.put w) s (with_ { cap with inb := ws })) ∧
    (on → ws.length = 4 → 1044 < size ∨ size % 4 ≠ 0 →
      let h := parseHdr .jtag (wordsBytes ws)
      Gives (.put w) s ((with_ { cap with inb := [], discard := true }).route .jtag
        { opc := bytesNat ((wordsBytes ws).take 2), tag := h.tag, status := 0x11, target := h.target, final := true
          dup := false, ts := s.dev.ts, result := [0xFFFF] })) ∧
    (on → s.dev.inReady = true ∨ j.inb ≠ [] → ws.length < 4 ∨ (4 < ws.length ∧ 4 * ws.length < size) →
      Gives (.put w) s (with_ { cap with inb := ws })) ∧
    (on → 4 < ws.length → size ≤ 4 * ws.length → Gives (.put w) s (with_ { cap with inb := [], done := some ws })) ∧
    (∀ k v r fin rest, on → j.out = { kind := k, words := v :: r, fin := fin } :: rest →
      let e := with_ { cap with out := if r = [] then rest else { kind := k, words := r, fin := fin } :: rest }
      let f := e.jtagRefill j.wait.length
      Gives .svcGet s (if r = [] then f.finalLeft fin else f) ∧ (j.wait = [] → f = e) ∧
      (s.dev.link.polyWait = [] → f.finalLeft fin = f)) ∧
    (on → j.out = [] → Gives .svcGet s (with_ cap)) ∧
    (∀ l, j.done = some l → Gives .svcPacketTaken s
      ((with_ { j with done := none }).commandPacket .jtag (wordsBytes l))) ∧
    (j.done = none → Gives .svcPacketTaken s s.dev))

/-- ENG_LOAD_DONE of an engine whose load is in progress ends it: with an image that reads without error every legal
segment is written to the engine's memories and PC takes ENTRY, one segment stands there word by word and no other
byte changes; an image that meets an uncorrectable error leaves PC, and no byte outside the engine's memories
changes. MEM_FILL_DONE of a fill in progress puts its value in every word of its range and changes no other byte.
With none in progress nothing changes. DMA_BURST of a channel in RUN between bursts opens a burst of the lesser of
BURST and COUNT/4 beats; a link channel without room stalls, and DMA_STALL_RESUME ends the stall when room appears.
A beat of an unpaced channel between words of chip memory stores the source word, or the word already read for it,
at the destination and no other byte, advances SRC and DST as their increment bits say and takes 4 from COUNT; the
channel takes a beat from the burst, ends the burst in RUN, is IDLE with COUNT 0, and IDLE after an abort. A read
that fails at its address halts the channel with ERR 1, and one that meets an error of the memory with ERR 2, when
no retry of a streaming channel is left; a write that fails at its address halts it with ERR 1 and its address; an
abort that waits leads to IDLE instead. A streaming channel retries a memory failure while retries are left. With no
beat in progress beats change nothing. Derived from spec/12_vertex_engines.md R315, spec/12_vertex_engines.md
R317, spec/13_dma.md R320, spec/13_dma.md R322, spec/13_dma.md R323, spec/13_dma.md R326, spec/13_dma.md R328. Where
it goes beyond these rules it is the model's own choice or reading: log entries 2, 8, 26. -/
def Obligations.TransfersEnd : Prop :=
  (∀ (s : State) (e : Fin 16) (tag : BitVec 8), s.dev.powered = true →
    let x := s.dev.eng e
    (∀ t part addr, x.load = some (t, part, addr) →
      let n := min (Memory.readWord s.dev.mem (addr + 4)).toNat 262144
      let ws := Memory.readWords s.dev.mem addr n
      let segs := (imageSegs (fld (wordAt ws 2) 15 0) ((ws.take (n - 1)).drop 4)).getD []
      let loaded := segs.foldl (fun (d : Dev) g => if segOk g then d.storeWords (engBase e + (g.1 - 0xF0000000)) g.2 else d) s.dev
      let good := ∀ k, k < n - 1 → s.dev.badAt (addr + 4 * k) 1 = false
      Reaches (.engLoadDone e) s fun d => (d.eng e).load = none ∧ (d.eng e).st = x.st ∧ d.regs = s.dev.regs ∧
        d.now = s.dev.now ∧
        (good → segs ≠ [] → d.mem = loaded.mem ∧ (d.eng e).pc = (wordAt ws 3).toNat / 4 * 4 % 0x10000) ∧
        (good → segs = [] → d.mem = s.dev.mem ∧ (d.eng e).pc = x.pc) ∧
        (∀ a l, good → segs = [(a, l)] → segOk (a, l) = true →
          let base := engBase e + (a - 0xF0000000)
          (∀ i (h : i < l.length), Memory.readWord d.mem (base + 4 * i) = l[i]) ∧
          ∀ b, b < base ∨ base + 4 * l.length ≤ b → Memory.read d.mem b = Memory.read s.dev.mem b) ∧
        (¬ good → (d.eng e).pc = x.pc) ∧
        ∀ b, b < engBase e ∨ engBase e + 0x40000 ≤ b → Memory.read d.mem b = Memory.read s.dev.mem b) ∧
    (x.load = none → Gives (.engLoadDone e) s s.dev) ∧
    (∀ a n v, (s.dev.fills.find? fun f => f.1 == tag) = some (tag, a, n, v) → Reaches (.memFillDone tag) s fun d =>
      d.fills = s.dev.fills.filter (fun f => f.1 != tag) ∧ d.regs = s.dev.regs ∧
      (∀ i, i < n / 4 → Memory.readWord d.mem (a + 4 * i) = v) ∧
      ∀ b, b < a ∨ a + 4 * (n / 4) ≤ b → Memory.read d.mem b = Memory.read s.dev.mem b) ∧
    ((∀ f ∈ s.dev.fills, f.1 ≠ tag) → Gives (.memFillDone tag) s s.dev)) ∧
  (∀ (s : State) (ch : Fin 48) (write : Bool) (err : BeatErr), s.dev.powered = true →
    let x := s.dev.chan ch
    let between := x.st = .run ∧ x.left = 0
    let beats := x.st = .run ∧ 0 < x.left
    let src := s.dev.dmaSrc ch
    let dst := s.dev.dmaDst ch
    let inChip (a : Nat) : Prop := a % 4 = 0 ∧ 0x800000 ≤ a ∧ a + 4 ≤ 0x1000000
    let unread := x.word = none
    let halts (d : Dev) (err addr dir : Nat) : Prop := (d.chan ch).st = .halted ∧ (d.chan ch).err = err ∧
      (d.chan ch).failAddr = addr ∧ (d.chan ch).failDir = dir ∧ d.regs = s.dev.regs ∧ d.mem = s.dev.mem
    let retries := s.dev.dmaStream ch = true ∧ x.retry < s.dev.dmaRetries ch
    (between → s.dev.dmaLink ch = false ∨ s.dev.vc7Room = true → Gives (.dmaBurst ch) s
      (s.dev.setChan ch { x with left := min (s.dev.dmaBurst ch) (s.dev.dmaCount ch / 4), stalled := false })) ∧
    (between → s.dev.dmaLink ch = true → s.dev.vc7Room = false → Gives (.dmaBurst ch) s
      (s.dev.setChan ch { x with stalled := true })) ∧
    (¬ between → Gives (.dmaBurst ch) s s.dev) ∧
    (x.stalled = true → s.dev.vc7Room = true → Gives (.dmaStallResume ch) s
      (s.dev.setChan ch { x with stalled := false })) ∧
    (x.stalled = false ∨ s.dev.vc7Room = false → Gives (.dmaStallResume ch) s s.dev) ∧
    (∀ v, beats → s.dev.dmaLink ch = false → s.dev.dmaQid ch = 0 → inChip dst →
      x.word = some v ∨ (unread ∧ inChip src ∧ s.dev.badAt src 1 = false ∧ v = Memory.readWord s.dev.mem src) →
      Reaches (.dmaBeatComplete ch) s fun d => Memory.readWord d.mem dst = v ∧
        (∀ b, b < dst ∨ dst + 4 ≤ b → Memory.read d.mem b = Memory.read s.dev.mem b) ∧
        d.dmaSrc ch = (if (s.dev.reg (.dmaR ch 3)).getLsbD 8 then (src + 4) % 2 ^ 32 else src) ∧
        d.dmaDst ch = (if (s.dev.reg (.dmaR ch 3)).getLsbD 9 then dst + 4 else dst) ∧
        d.dmaCount ch = s.dev.dmaCount ch - 4 ∧ (∀ c, c ≠ ch.val → d.chan c = s.dev.chan c) ∧
        (4 < s.dev.dmaCount ch → x.abort = false → 1 < x.left →
          d.chan ch = { x with left := x.left - 1, retry := 0, word := none }) ∧
        (4 < s.dev.dmaCount ch → x.abort = false → x.left = 1 → (d.chan ch).st = .run ∧ (d.chan ch).left = 0) ∧
        (s.dev.dmaCount ch ≤ 4 ∨ x.abort = true → (d.chan ch).st = .idle)) ∧
    (¬ beats → Gives (.dmaBeatComplete ch) s s.dev ∧ Gives (.dmaBeatFail ch write err) s s.dev) ∧
    (¬ unread → Gives (.dmaBeatFail ch false err) s s.dev) ∧
    (beats → unread → x.abort = false → s.dev.dmaReadOk src = false →
      Reaches (.dmaBeatFail ch false .address) s fun d => halts d 1 src 0) ∧
    (beats → unread → x.abort = true → s.dev.dmaReadOk src = false →
      Reaches (.dmaBeatFail ch false .address) s fun d => (d.chan ch).st = .idle ∧ d.regs = s.dev.regs ∧ d.mem = s.dev.mem) ∧
    (beats → unread → retries → inChip src →
      Gives (.dmaBeatFail ch false .memory) s (s.dev.setChan ch { x with retry := x.retry + 1 })) ∧
    (beats → unread → ¬ retries → x.abort = false → inChip src →
      Reaches (.dmaBeatFail ch false .memory) s fun d => halts d 2 src 0) ∧
    (beats → x.abort = false → s.dev.dmaLink ch = false → s.dev.dmaWriteOk dst = false →
      ¬ unread ∨ (inChip src ∧ s.dev.badAt src 1 = false) →
      Reaches (.dmaBeatFail ch true .address) s fun d => halts d 1 dst 1))

/-- With the mutex free and no ladder step waiting, POWER_TRANSITION_GRANT starts, outside the wake gap, the first
waiting wake, a quadrant or chip that sleeps around its domain first; with no wake waiting or in the gap it starts
the first waiting sleep of a domain that is not asleep, each with its transition time; a request that finds its
domain in that state already is answered. With the mutex taken it changes nothing but that group H asleep with
replies waiting asks for its wake. POWER_TRANSITION_END at that time frees the mutex and leaves the domain asleep, or
awake (its next sleep requested, when one waits behind the wake) with the next wake held for WAKE_GAP. WAKE_GAP_END ends the gap. THROTTLE gives the mutex to the next ladder
step for 2 us and puts the step in force. A PORn pulse of 1 us or more, while PORn is high outside SHUTDOWN, leads to
the boot state: every register, memory, queue and unit at its reset value, the clock going on. A pulse below 0.8 us,
and any pulse in SHUTDOWN or while PORn is low already, changes nothing. PORn release starts the boot, or SHUTDOWN
while a comparator is hot; 1 ms later the fabrics are up; then boot completes and RESTART fires with its reason. A
trip, in boot or after it, and then 200 ns and 1 us later, lead to SHUTDOWN, where memory and units are gone;
THERMAL_RESTART leads from SHUTDOWN to the boot with reason 3. Out of their state each changes nothing. Derived from
spec/01_array_hierarchy.md R29, spec/01_array_hierarchy.md R30, spec/15_power_and_heat.md R350,
spec/15_power_and_heat.md R351, spec/15_power_and_heat.md R352, spec/15_power_and_heat.md R361, spec/00_scope.md R6,
spec/15_power_and_heat.md R346, spec/15_power_and_heat.md R347, spec/15_power_and_heat.md R363,
spec/15_power_and_heat.md R364. Where it goes beyond these rules it is the model's own choice or reading: log
entries 2, 5, 6, 8, 15. -/
def Obligations.PowerAndBoot : Prop :=
  (∀ (s : State) (r : PReq), s.dev.powered = true →
    let u := s.dev.lgWake
    let p := u.pwr
    let free := p.cur = none ∧ p.thermal = []
    let lanes := 132 ≤ r.d ∧ r.d < 135
    let runs (k : TransKind) (n len : Nat) (c : Option (BitVec 8 × Nat)) : Option Trans :=
      some { kind := k, req := { d := n, cmd := c }, ends := s.dev.now + us len }
    ((s.dev.lg 0).txsleep = false → u = s.dev) ∧
    (∀ rest, free → p.gap = false → p.wakes = r :: rest → u.shutIn r.d = none → u.asleep r.d = true →
      Reaches .powerTransitionGrant s fun d => (d.dom r.d).st = .waking ∧ d.pwr.wakes = rest ∧ d.pwr.sleeps = p.sleeps ∧
        d.pwr.cur = runs .wake r.d (wakeUs r.d) r.cmd ∧ (¬ lanes → { d with pwr := p } = u) ∧
        (lanes → (d.lg (r.d - 132)).wakeAt = s.dev.now ∧ { d with pwr := p, link := u.link } = u)) ∧
    (∀ rest m, free → p.gap = false → p.wakes = r :: rest → u.shutIn r.d = some m →
      Reaches .powerTransitionGrant s fun d => (d.dom m).st = .waking ∧ d.pwr.wakes = p.wakes ∧ d.pwr.sleeps = p.sleeps ∧
        d.pwr.cur = runs .wake m (wakeUs m) none ∧ { d with pwr := p } = u) ∧
    (∀ rest, free → p.gap = false → p.wakes = r :: rest → u.shutIn r.d = none → u.asleep r.d = false →
      Gives .powerTransitionGrant s ((u.setPwr { p with wakes := rest }).pReply r.cmd (plain sOk))) ∧
    (∀ rest, free → p.wakes = [] ∨ p.gap = true → p.sleeps = r :: rest → u.asleep r.d = false →
      Reaches .powerTransitionGrant s fun d => (d.dom r.d).st = .requested ∧ d.pwr.sleeps = rest ∧
        d.pwr.cur = runs .sleep r.d (sleepUs r.d) r.cmd ∧ (lanes → (d.lg (r.d - 132)).quiet = true) ∧
        (136 ≤ r.d → (d.eng (r.d - 136)).st = .sleeping ∧ (d.eng (r.d - 136)).cache = []) ∧ d.regs = s.dev.regs) ∧
    (∀ rest, free → p.wakes = [] ∨ p.gap = true → p.sleeps = r :: rest → u.asleep r.d = true →
      Gives .powerTransitionGrant s ((u.setPwr { p with sleeps := rest }).pReply r.cmd (plain sOk))) ∧
    (¬ free ∨ ((p.wakes = [] ∨ p.gap = true) ∧ p.sleeps = []) → Gives .powerTransitionGrant s u)) ∧
  (∀ (s : State) (t : Trans), s.dev.powered = true →
    let p := s.dev.pwr
    let lanes := 132 ≤ t.req.d ∧ t.req.d < 135
    (p.cur = some t → Reaches .powerTransitionEnd s fun d => d.now = max s.dev.now t.ends ∧ d.pwr.cur = none ∧
      d.regs = s.dev.regs ∧ d.mem = s.dev.mem ∧
      (t.kind = .sleep → (d.dom t.req.d).st = .asleep ∧ (lanes → (d.lg (t.req.d - 132)).txsleep = true)) ∧
      (t.kind = .wake → (d.dom t.req.d).st = (if ∃ r ∈ p.sleeps, r.d = t.req.d then .requested else .awake) ∧
        (d.dom t.req.d).held = false ∧ d.pwr.gap = true ∧
        d.pwr.gapUntil = d.now + us (s.dev.f .pmCfg 7 0) ∧ (lanes → (d.lg (t.req.d - 132)).txsleep = false))) ∧
    (p.cur = none → Gives .powerTransitionEnd s s.dev) ∧
    (p.gap = true → Gives .wakeGapEnd s
      { s.dev with now := max s.dev.now p.gapUntil, pwr := { p with gap := false } }) ∧
    (p.gap = false → Gives .wakeGapEnd s s.dev) ∧
    (∀ k rest, p.cur = none → p.thermal = k :: rest → Reaches .throttle s fun d => d.pwr.step = k ∧ d.pwr.thermal = rest ∧
      d.pwr.cur = some { kind := .thermal, req := { d := 0 }, ends := s.dev.now + us 2 } ∧ d.regs = s.dev.regs ∧
      d.mem = s.dev.mem) ∧
    (p.cur.isSome = true ∨ p.thermal = [] → Gives .throttle s s.dev)) ∧
  (∀ (s : State) (hot : Bool) (pulse : PornPulse),
    let d := s.dev
    let ph := d.boot.phase
    let at_ (p : Phase) (now : Nat) : Dev := { d with now := now, boot := { d.boot with phase := p } }
    let cleared (e : Dev) (p : Phase) (reason : Nat) : Prop := e.now = d.now ∧ e.boot.phase = p ∧ e.boot.reason = reason ∧
      (∀ r : Reg, e.reg r = regReset r.addr) ∧ (∀ a, Memory.read e.mem a = 0) ∧ e.cmd = {} ∧ e.tb = {} ∧ e.rf = {} ∧
      e.blk = [] ∧ e.carr = [] ∧ e.beam = {} ∧ e.pp = [] ∧ e.cal = [] ∧ e.link = {} ∧ e.ve = [] ∧ e.dma = [] ∧
      e.hub = {} ∧ e.pwr = {} ∧ e.lat = {} ∧ e.jtag.out = [] ∧ e.jtag.inb = []
    (ph ≠ .shutdown → ph ≠ .held → Reaches (.pornAssert .full) s fun e => cleared e .held 2) ∧
    Gives (.pornAssert .short) s d ∧ (ph = .shutdown ∨ ph = .held → Gives (.pornAssert pulse) s d) ∧
    (ph = .held → Gives (.pornRelease hot) s
      { d with boot := { d.boot with phase := if hot then .shutdown else .start, riseAt := d.now } }) ∧
    (ph ≠ .held → Gives (.pornRelease hot) s d) ∧
    (ph = .start → Gives .fabricsUp s (at_ .fabrics (max d.now (d.boot.riseAt + ms 1)))) ∧
    (ph ≠ .start → Gives .fabricsUp s d) ∧
    (ph = .fabrics → Reaches .restart s fun e => e.boot = { d.boot with phase := .up } ∧ e.now = d.now ∧
      e.regs = d.regs ∧ ((d.src 1).en = true → (d.src 1).q.length < 8 → (e.src 1).q = (d.src 1).q ++
        [{ cause := 0x0408, loc := d.locOf 0 0, detail := BitVec.ofNat 16 d.boot.reason, ts := d.ts }])) ∧
    (ph ≠ .fabrics → Gives .restart s d) ∧
    (ph = .up ∨ ph = .start ∨ ph = .fabrics → Gives .thermalTrip s { d with boot := { d.boot with phase := .tripped, riseAt := d.now } }) ∧
    (ph ≠ .up → ph ≠ .start → ph ≠ .fabrics → Gives .thermalTrip s d) ∧
    (ph = .tripped → Gives .shutdownTr s (at_ .trDone (max d.now (d.boot.riseAt + ns 200)))) ∧
    (ph ≠ .tripped → Gives .shutdownTr s d) ∧
    (ph = .trDone → Reaches .shutdownDown s fun e => e.boot.phase = .shutdown ∧
      e.now = max d.now (d.boot.riseAt + us 1) ∧ (∀ a, Memory.read e.mem a = 0) ∧ e.ve = [] ∧ e.hub = {} ∧ e.link = {}) ∧
    (ph ≠ .trDone → Gives .shutdownDown s d) ∧
    (ph = .shutdown → Reaches .thermalRestart s fun e => cleared e .start 3) ∧
    (ph ≠ .shutdown → Gives .thermalRestart s d))

/-- POLL of a head with members polls the next one after its share of 50 us, sending one LCTL poll that names it on VC1
of D, and goes on to the next in turn; a member that has not answered counts one more poll missed, and is reported
(0x0502) at the third while no hop before it has failed. MEMBER_STATUS of a member keeps its word, ends its misses,
reports MEMBER_MISALIGNED once while the word shows it so, and CHORD_HOP_FAIL when the word shows the hop beyond it
newly down. FRAME_MARK at a member in RUN sets TB_OFFSET to the signed distance of its frame from the marker plus
the latency, and a member that is not the tail passes the marker on with its own hop added. Other chips change
nothing. Derived from spec/01_array_hierarchy.md R33, spec/02_time_and_release.md R65, spec/07_beam_engine.md R188,
spec/16_mode_combinations.md R372. Where it goes beyond these rules it is the model's own choice or reading: log
entries 2, 5, 8, 14, 24, 40. -/
def Obligations.LatticeHead : Prop :=
  ∀ (s : State) (k : Fin 8) (w : BitVec 64) (frame : BitVec 23) (lat : BitVec 16), s.dev.powered = true →
    let n := s.dev.lat.next
    let m := s.dev.member n
    let missed := if m.polled = true ∧ m.answered = false then m.missed + 1 else m.missed
    let heads := s.dev.role = 1 ∧ 1 ≤ s.dev.last
    let member := s.dev.role = 1 ∧ 1 ≤ k.val ∧ k.val ≤ s.dev.last
    let off := signedTick ((s.dev.inFrame s.dev.now : Int) - (lat.toNat + s.dev.tb.hopLat))
    let share := 98304 * n / s.dev.last - 98304 * (n - 1) / s.dev.last
    let x := s.dev.member k
    let reports (d : Dev) (source : Nat) (cause loc : BitVec 16) : Prop :=
      (s.dev.src source).en = true → (s.dev.src source).q.length < 8 → (d.src source).q = (s.dev.src source).q ++
        [{ cause := cause, loc := loc, detail := 0, ts := d.ts }]
    let passed (d : Dev) := d.push 2 1 (.lctl 3 (BitVec.ofNat 64
      (frame.toNat + (lat.toNat + s.dev.tb.hopLat) % 65536 * 2 ^ 32)))
    (heads → Reaches .poll s fun d => d.now = max s.dev.now (s.dev.lat.polledAt + share) ∧
      d.lat.polledAt = d.now ∧ d.lat.next = (if n < s.dev.last then n + 1 else 1) ∧ d.regs = s.dev.regs ∧
      d.queueOf 2 1 = s.dev.queueOf 2 1 ++ [.lctl 1 (BitVec.ofNat 64 n)] ∧ (d.member n).missed = missed ∧
      (d.member n).polled = true ∧ (d.member n).answered = false ∧
      (3 ≤ missed → m.silentTold = false → s.dev.lat.hop0Fail = false → (∀ i, i < n → (s.dev.member i).hopFail = false) →
        reports d 10 0x0502 (tgtWord n 0 0))) ∧
    (¬ heads → Gives .poll s s.dev) ∧
    (member → Reaches (.memberStatus k w) s fun d => (d.member k).word = w ∧ (d.member k).polled = true ∧
      (d.member k).answered = true ∧ (d.member k).missed = 0 ∧ (d.member k).silentTold = false ∧ d.regs = s.dev.regs ∧
      (∀ i, i ≠ k.val → d.member i = s.dev.member i) ∧
      (d.member k).misTold = (s.dev.running && s.dev.misaligned k w) ∧
      (s.dev.running = true → s.dev.misaligned k w = true → x.misTold = false → reports d 9 0x0501 (tgtWord k 0 0)) ∧
      (k.val < s.dev.last → x.hopUp = true → w.getLsbD 43 = false → (d.member k).hopFail = true ∧
        reports d 11 0x0503 (tgtWord k 0 0))) ∧
    (¬ member → Gives (.memberStatus k w) s s.dev) ∧
    (2 ≤ s.dev.role → s.dev.running = true → Reaches (.frameMark frame lat) s fun d => d.tb.offset = off ∧
      -9830400 ≤ off ∧ off ≤ 9830400 ∧ d.tb.err = max (-127) (min 127 off) ∧ d.regs = s.dev.regs ∧
      d.tb.markFrame = s.dev.frameNo s.dev.now ∧ (s.dev.role = 2 → d.link = (passed s.dev).link) ∧
      (s.dev.role = 3 → d.link = s.dev.link)) ∧
    (s.dev.role = 2 → s.dev.running = false → Gives (.frameMark frame lat) s (passed s.dev)) ∧
    (s.dev.role = 3 → s.dev.running = false → Gives (.frameMark frame lat) s s.dev) ∧
    (s.dev.role ≤ 1 → Gives (.frameMark frame lat) s s.dev)

/-- CAP.WALK of a working chip from offset 0 replies with 0, since no entry remains, and then with the 44 words of the
chain of Table 3.13: every entry at its offset with VERSION 1, its NEXT and its body. From the offset of an entry it
replies with the chain from there, and any other offset is refused with BAD_PARAM. Formalises R96: "the chain holds
exactly the entries of Table 3.13, at the offsets shown, each at VERSION 1" -/
def Obligations.CapabilityList : Prop :=
  ∀ (s : State) (h : Hdr), Addressed h s.dev 0 0 →
    let chain : List Word := [0x03010001, 0x0114, 410000, 7125000, 0x00400040, 0x02010002, 0x0124, 7125000, 15350000,
      0x01010003, 0x0130, 0x0000040F, 0x01010004, 0x013C, 0x00080F08, 0x02010005, 0x014C, 0x10400809, 4,
      0x01010006, 0x0158, 0x0000100F, 0x01010007, 0x0164, 0x00001007, 0x01010008, 0x0170, 0x04004020,
      0x01010009, 0x017C, 0x011A2110, 0x0201000A, 0x018C, 0x00001001, 0x00C00040, 0x0201000B, 0x019C, 0x40201000, 1024,
      0x0301000C, 0, 8, 15360, 983040]
    let offsets : List Nat := [0x0100, 0x0114, 0x0124, 0x0130, 0x013C, 0x014C, 0x0158, 0x0164, 0x0170, 0x017C, 0x018C, 0x019C]
    Replies (.capWalk h [0]) s 0x0002 h (okWords (0 :: chain)) ∧
    (∀ o ∈ offsets, Replies (.capWalk h [mkw o]) s 0x0002 h (okWords (0 :: chain.drop ((o - 0x100) / 4)))) ∧
    ∀ w : Word, w ≠ 0 → w.toNat ∉ offsets → Replies (.capWalk h [w]) s 0x0002 h (refusal sBadParam 0)

/-- For every host command with a list of parameters that a header can announce, in its turn after what came before it
and after the write of a REG.MODIFY that waits: outside the working state of the chip it has no effect and no reply;
with a tag that is in flight it ends with BUSY and DUP and the command in flight is not affected; with more than 256
parameter words it is refused with BAD_PARAM for a header field. None of these changes anything but the reply. A
working chip that is not a single chip answers BAD_TARGET or LINK, or passes the command on, where CHIP is not its
own: it never acts for another chip. Derived from spec/03_command_plane.md R70, spec/03_command_plane.md R75,
spec/00_scope.md R5. Where it goes beyond these rules it is the model's own choice or reading: log entries 8, 9. -/
def Obligations.CommandRefusals : Prop :=
  ∀ (i : Instr) (s : State) (opc : Nat) (h : Hdr) (ps : List Word),
    hostRow i = some (opc, h, ps) → 4 * ps.length < 2048 →
    let d := (s.dev.inTurn h.path).modifyEnd
    let replies (r : Res) : Prop := Gives i s (d.final opc h r)
    (d.boot.phase ≠ .up → Gives i s d) ∧
    (d.boot.phase = .up → d.inFlight h.tag = true →
      Gives i s (d.route h.path (mkReply opc h (refusal sBusy 0) true true d.ts))) ∧
    (d.boot.phase = .up → d.inFlight h.tag = false → 256 < ps.length → replies (refusal sBadParam 0xFFFF)) ∧
    (d.boot.phase = .up → d.inFlight h.tag = false → Hdr.level h ≠ 7 → Hdr.chip h ≠ d.chipNo → d.role ≠ 0 →
      replies badHeader ∨ replies (plain sBadTarget) ∨ replies (plain sLink) ∨
      (d.downOk = true ∧ d.below (Hdr.chip h) = true ∧
        Gives i s ((d.launch opc h ps [h.target.toNat]).sendDown opc h h.target.toNat ps)))

/-- Each GET command that is addressed to one unit of a working chip replies OK with the words that its table lists,
read at this moment as a command reads registers, and changes nothing: ID.GET the four identity words, SYN.GET,
CONV.GET, ORX.GET, CHAIN.GET, CTX.GET, PP.GET, CAL.GET, LINK.GET, LANE.GET, ENG.GET, DMA.GET, EVT.GET, HK.GET and
LAT.GET their registers, and PWR.GET the chip state with the power state of its domain, of the eight cells of a
block two bits each. Derived from spec/03_command_plane.md R85, spec/04_rf_front.md R127, spec/06_sample_chains.md
R168, spec/07_beam_engine.md R190, spec/08_predistortion.md Table 8.9, spec/09_calibration.md Table 9.8,
spec/10_fleob_lanes.md R268, spec/12_vertex_engines.md R317, spec/13_dma.md R330, spec/14_event_hub.md R345,
spec/15_power_and_heat.md Table 15.8, spec/16_mode_combinations.md R372. Where it goes beyond these rules it is the
model's own choice or reading: log entry 9. -/
def Obligations.ReadingCommands : Prop :=
  ∀ (s : State) (h : Hdr) (u k : Nat),
    let d := s.dev
    let sh (r : Reg) : Word := d.regWord (.cmd .vc0) r
    let at_ (lv i : Nat) : Prop := Addressed h d lv i;
    (at_ 0 0 → Replies (.idGet h []) s 0x0001 h
      (okWords [0x00000E5A, 0x00006464, 0x00000011, 0x00000100])) ∧
    (u < 8 → at_ 6 (64 + u) → Replies (.synGet h []) s 0x0301 h
      (okWords [sh (.synStat u), sh (.synPhase u)])) ∧
    (u < 128 → at_ 3 u → Replies (.convGet h []) s 0x0402 h
      (okWords [sh (.convStat u), sh (.convCfg u)])) ∧
    (u < 16 → at_ 2 u → Replies (.orxGet h []) s 0x0411 h
      (okWords [sh (.orxStat u), sh (.orxCtrl u), sh (.orxAtt u)])) ∧
    (u < 128 → k < 8 → at_ 3 u → Replies (.chainGet h [mkw k]) s 0x0504 h
      (okWords [sh (.chainCfg u), sh (.carrCfg u k),
      sh (.carrBridge u k), sh (.carrNco u k), sh (.carrPhase u k), sh (.carrGain u k), sh (.carrStat u k)])) ∧
    (u < 128 → at_ 4 u → Replies (.ctxGet h []) s 0x0601 h
      (okWords [sh (.ctxCfg u), sh (.ctxLo u), sh (.ctxHi u),
      sh (.ctxStat u), sh (.ctxEntry u), sh (.ctxScnt u)])) ∧
    (u < 64 → at_ 3 u → Replies (.ppGet h []) s 0x0712 h
      (okWords [sh (.pathCfg u), sh (.cfrCfg u), sh (.dpdCfg u),
      sh (.dpdGrd u), sh (.dpdSwap u), sh (.dpdStat u), sh (.ppStat u)])) ∧
    (u < 4 → at_ 1 u → Replies (.calGet h []) s 0x0805 h
      (okWords ([sh (.calStat u), sh (.calBgnow u), sh (.calMatch u)] ++
      ((List.range 16).map fun j => sh (.calPts (16 * u + j))) ++ (List.range 4).map fun b => sh (.calPtsOrx (4 * u + b))))) ∧
    (k < 3 → at_ 0 0 → Replies (.linkGet h [mkw k]) s 0x0901 h
      (okWords [sh (.lgCfg k), sh (.lgStat k), sh (.lgMask k),
      sh (.lgPeer k), sh (.lgPeerId k), sh (.lgShed k)])) ∧
    (u < 16 → at_ 5 (16 + u) → Replies (.laneGet h []) s 0x0911 h
      (okWords ([sh (.laneCtrl u), sh (.laneStat u)] ++
      (List.range 12).map fun t => sh (.laneDfe u t)))) ∧
    (u < 16 → at_ 6 u → Replies (.engGet h []) s 0x0A04 h
      (okWords [d.engCtrl u 0, d.engCtrl u 4, d.engCtrl u 8, d.engCtrl u 12])) ∧
    (u < 48 → at_ 6 (16 + u) → Replies (.dmaGet h []) s 0x0B04 h
      (okWords ((List.range 8).map fun k => sh (.dmaR u k)))) ∧
    (1 ≤ k → k < 512 → at_ 0 0 → Replies (.evtGet h [mkw k]) s 0x0C04 h
      (okWords [sh (.srcCfg k), mkw
      ((if (d.src k).en then 4 else 0) + (if (d.src k).q = [] then 0 else 2) +
        (if (d.src k).act then 1 else 0)), sh (.srcQ k)])) ∧
    (at_ 0 0 → Replies (.pwrGet h []) s 0x0D06 h
      (okWords [sh .pwrStat, mkw (d.psCode 135)])) ∧
    (u < 4 → at_ 1 u → Replies (.pwrGet h []) s 0x0D06 h
      (okWords [sh .pwrStat, mkw (d.psCode (128 + u))])) ∧
    (u < 16 → at_ 2 u → Replies (.pwrGet h []) s 0x0D06 h
      (okWords [sh .pwrStat, mkw
      (((List.range 4).map fun j => d.psCode (4 * u + j) * 4 ^ j + d.psCode (64 + 4 * u + j) * 4 ^ (4 + j)).sum)])) ∧
    (u < 128 → at_ 3 u → Replies (.pwrGet h []) s 0x0D06 h
      (okWords [sh .pwrStat, mkw (d.psCode u)])) ∧
    (u < 16 → at_ 5 u → Replies (.pwrGet h []) s 0x0D06 h
      (okWords [sh .pwrStat, mkw (((d.groupOf u).map fun g => d.psCode (132 + g)).getD 0)])) ∧
    (u < 16 → at_ 6 u → Replies (.pwrGet h []) s 0x0D06 h
      (okWords [sh .pwrStat, mkw (d.psCode (136 + u))])) ∧
    (at_ 0 0 → Replies (.hkGet h []) s 0x0D07 h
      (okWords (((List.range 24).map fun j => sh (.hkTemp j)) ++
      ((List.range 8).map fun r => sh (.hkSup r)) ++ ((List.range 8).map fun a => sh (.hkAux a)) ++
      [sh .hkGov, sh .fabV0, sh .fabV1]))) ∧
    (at_ 0 0 → Replies (.latGet h []) s 0x0E01 h
      (okWords [sh .latCfg, sh .chordStat, sh .tbAlign]))

/-- SYN.SET, CELL.LO, WIN.SET, RFFE.TIMED, DIV.SET, DIV.SEQ, ADC.SET, DAC.SET, ORX.SET, CHAIN.SET, CARR.SET, CARR.GAIN
and CHAIN.SYNC, addressed to one unit of a working chip with parameters in range, stage exactly the register fields
that their tables name. With CG_VALID 1 the fields join the group of the header and the reply is OK, or BUSY when
the group or a field of it is frozen. With CG_VALID 0 they form a private group that is refused as steps 1 and 2 of
a commit refuse it, changing nothing, or accepted. CHAIN.SET refuses a TX cell that is given DELAY, ATT or SYNC.
CTX.SET, PP.SET, CFR.PULSE, CAL.CFG, CAL.CLASS, LINK.CFG, LANE.CFG, EVT.SRC, EVT.THRESH, PM.CFG, PL.SET, AUX.LIM and
LAT.SET, addressed to one unit of a working chip with parameters in range, stage exactly the register fields that
their tables name: CAL.CLASS the half of its cell, LANE.CFG the fields of its TX or RX lane. With CG_VALID 1 the
fields join the group of the header and the reply is OK, or BUSY when the group or a field of it is frozen. With
CG_VALID 0 they form a private group that is refused as steps 1 and 2 of a commit refuse it, changing nothing, or
accepted. Derived from spec/03_command_plane.md R86, spec/03_command_plane.md R92, spec/04_rf_front.md R127,
spec/05_converters.md Table 5.10, spec/06_sample_chains.md R168, spec/07_beam_engine.md R190,
spec/08_predistortion.md Table 8.9, spec/09_calibration.md Table 9.8, spec/10_fleob_lanes.md R268,
spec/14_event_hub.md R345, spec/15_power_and_heat.md Table 15.8, spec/16_mode_combinations.md R372. Where it goes
beyond these rules it is the model's own choice or reading: log entries 9, 10. -/
def Obligations.StagingCommands : Prop :=
  (∀ (s : State) (h : Hdr) (u : Nat) (a b c x y z : Word) (ps : List Word),
    let w (k : Nat) : Word := arg ps k
    let at_ (lv : Nat) : Prop := Addressed h s.dev lv u;
    (64 ≤ u → u < 72 → at_ 6 →
      StagesAs (.synSet h [a, b]) s 0x0300 h [a, b] 6 u
      [whole (.synFreq (u - 64)) a, whole (.synCtrl (u - 64)) b]) ∧
    (u < 128 → at_ 3 →
      StagesAs (.cellLo h [a]) s 0x0302 h [a] 3 u
      [whole (.cellLo u) a]) ∧
    (u < 128 → fld (w 0) 5 0 ≤ 32 → ps.length = 1 + 2 * fld (w 0) 5 0 → at_ 3 →
      StagesAs (.winSet h ps) s 0x0303 h ps 3 u
      (whole (.winCtrl u) (w 0) :: (List.range (fld (w 0) 5 0)).flatMap fun k =>
        [whole (.winStart u k) (w (1 + 2 * k)), whole (.winLen u k) (w (2 + 2 * k))])) ∧
    (u < 16 → (w 0).toNat + (w 1).toNat ≤ 16 → ps.length = 2 + 3 * (w 1).toNat → at_ 2 →
      StagesAs (.rffeTimed h ps) s 0x0311 h ps 2 u
      ((List.range (w 1).toNat).flatMap fun k => [0, 1, 2].map fun j =>
        whole (.timed u ((w 0).toNat + k) j) (w (2 + 3 * k + j)))) ∧
    (u < 16 → at_ 2 →
      StagesAs (.divSet h [a, b, c]) s 0x0320 h [a, b, c] 2 u
      [whole (.divCtrl (2 * u + fld a 0 0)) b,
        whole (.divDet (2 * u + fld a 0 0)) c]) ∧
    (u < 16 → 2 ≤ ps.length → ps.length ≤ 256 → fld (w 0) 25 16 % 4 = 0 →
      fld (w 0) 25 16 + 4 * (ps.length - 1) ≤ 1024 → at_ 2 →
      StagesAs (.divSeq h ps) s 0x0321 h ps 2 u
      ((List.range (ps.length - 1)).map fun k =>
        whole (.divSeq (2 * u + fld (w 0) 0 0) (fld (w 0) 25 16 / 4 + k)) (w (1 + k)))) ∧
    (64 ≤ u → u < 128 → at_ 3 →
      StagesAs (.adcSet h [a]) s 0x0400 h [a] 3 u
      [whole (.convCfg u) a]) ∧
    (u < 64 → at_ 3 →
      StagesAs (.dacSet h [a]) s 0x0401 h [a] 3 u
      [whole (.convCfg u) a]) ∧
    (u < 16 → at_ 2 →
      StagesAs (.orxSet h [a, b]) s 0x0410 h [a, b] 2 u
      [whole (.orxCtrl u) a, whole (.orxAtt u) b]) ∧
    (u < 128 → (64 ≤ u ∨ a &&& 0x0FFFFF1F = 0) → at_ 3 →
      StagesAs (.chainSet h [a]) s 0x0500 h [a] 3 u
      [whole (.chainCfg u) a]) ∧
    (u < 128 → a.toNat < 8 → at_ 3 →
      StagesAs (.carrSet h [a, b, c, x, y, z]) s 0x0501 h [a, b, c, x, y, z] 3 u
      [whole (.carrCfg u a.toNat) b, whole (.carrBridge u a.toNat) c, whole (.carrNco u a.toNat) x,
        whole (.carrPhase u a.toNat) y, whole (.carrGain u a.toNat) z]) ∧
    (u < 128 → at_ 3 →
      StagesAs (.carrGain h [a, b]) s 0x0502 h [a, b] 3 u
      ((bitList 8 (fld a 7 0)).map fun k => whole (.carrGain u k) b)) ∧
    (u < 128 → at_ 3 →
      StagesAs (.chainSync h [a]) s 0x0503 h [a] 3 u
      [{ reg := .chainCfg u, mask := 0xFF00, val := mkw (fld a 7 0 * 256) }]) ∧
    (u < 64 → a &&& 0x0FFFFF1F ≠ 0 → at_ 3 → Replies (.chainSet h [a]) s 0x0500 h (refusal sBadParam 0))) ∧
  (∀ (s : State) (h : Hdr) (u : Nat) (a b c x : Word) (ps : List Word),
    let w (k : Nat) : Word := arg ps k
    let at_ (lv : Nat) : Prop := Addressed h s.dev lv u;
    (u < 128 → at_ 4 →
      StagesAs (.ctxSet h [a, b, c]) s 0x0600 h [a, b, c] 4 u
      [whole (.ctxCfg u) a, whole (.ctxLo u) b, whole (.ctxHi u) c]) ∧
    (u < 64 → at_ 3 →
      StagesAs (.ppSet h [a, b, c, x]) s 0x0700 h [a, b, c, x] 3 u
      [whole (.pathCfg u) a, whole (.cfrCfg u) b, whole (.dpdCfg u) c, whole (.dpdGrd u) x]) ∧
    (u < 4 → 1 ≤ (w 1).toNat → (w 1).toNat ≤ 128 → ps.length = 2 + (w 1).toNat → at_ 1 →
      StagesAs (.cfrPulse h ps) s 0x0701 h ps 1 u
      (whole (.pulseLen u (fld (w 0) 1 0)) (w 1) :: (List.range (w 1).toNat).map fun k =>
        whole (.pulseTap u (fld (w 0) 1 0) k) (w (2 + k)))) ∧
    (u < 4 → at_ 1 →
      StagesAs (.calCfg h [a, b]) s 0x0800 h [a, b] 1 u
      [whole (.calCtrl u) a, whole (.calBgper u) b]) ∧
    (u < 64 → at_ 3 →
      StagesAs (.calClass h [a]) s 0x0801 h [a] 3 u
      [{ reg := .calClass u, mask := 0xFF, val := mkw (fld a 7 0) }]) ∧
    (64 ≤ u → u < 128 → at_ 3 →
      StagesAs (.calClass h [a]) s 0x0801 h [a] 3 u
      [{ reg := .calClass (u - 64), mask := 0xFF00, val := mkw (256 * fld a 7 0) }]) ∧
    (u = 0 → fld a 1 0 < 3 → at_ 0 →
      StagesAs (.linkCfg h [a, b]) s 0x0900 h [a, b] 0 u
      [whole (.lgCfg (fld a 1 0)) b]) ∧
    (u < 16 → at_ 5 →
      StagesAs (.laneCfg h [a]) s 0x0910 h [a] 5 u
      [{ reg := .laneCtrl u, mask := 0x1F7, val := a }]) ∧
    (16 ≤ u → u < 32 → at_ 5 →
      StagesAs (.laneCfg h [a]) s 0x0910 h [a] 5 u
      [{ reg := .laneCtrl (u - 16), mask := 0x200, val := a }]) ∧
    (u = 0 → fld a 8 0 ≠ 0 → at_ 0 →
      StagesAs (.evtSrc h [a, b]) s 0x0C00 h [a, b] 0 u
      [whole (.srcCfg (fld a 8 0)) b]) ∧
    (u = 0 → fld a 4 0 ≤ 19 → at_ 0 →
      StagesAs (.evtThresh h [a, b]) s 0x0C01 h [a, b] 0 u
      [whole (.tgt (fld a 4 0) 0) b]) ∧
    (u = 0 → at_ 0 →
      StagesAs (.pmCfg h [a]) s 0x0D02 h [a] 0 u
      [whole .pmCfg a]) ∧
    (u = 0 → at_ 0 →
      StagesAs (.plSet h [a, b]) s 0x0D03 h [a, b] 0 u
      [whole (.plStep (fld a 2 0)) b]) ∧
    (u = 0 → at_ 0 →
      StagesAs (.auxLim h [a, b]) s 0x0D05 h [a, b] 0 u
      [whole (.auxLim (fld a 2 0)) b]) ∧
    (u = 0 → at_ 0 →
      StagesAs (.latSet h [a]) s 0x0E00 h [a] 0 u
      [whole .latCfg a]))

/-- REG.READ and STAGE.READ over a mapped range reply with its words, live or as staged, after the side effects of the
read; closed instruction memory and an uncorrectable error end them. REG.WRITE refuses the whole of a range as its
staged part, closed instruction memory or an ARM at the wrong time demands, and otherwise acts in address order;
REG.MODIFY reads its word and stays in flight; its later write, before the next command, is that of (old AND NOT
mask) OR (value AND mask) with the word it read, with the same refusals, and the reply holds the old word. In chip
memory a read returns the stored words and a write stores them. A range that is empty, unmapped or unaligned, or a
header with a bad BOUNDARY that the write uses, is refused with BAD_PARAM. NOP replies OK and changes nothing.
DISCARD of a group that is not ACCEPTED drops its staged copies and leaves it EMPTY, and of an ACCEPTED one replies
BUSY. COMMIT needs CG_VALID and a valid BOUNDARY; of an ACCEPTED group it replies BUSY, of an EMPTY one OK with the
boundary that step 1 fixes as TS, and otherwise the refusal of step 1 or 2 with nothing changed, or in RUN the group
is ACCEPTED at its boundary with its staged copies kept and the live registers as they were. TAG.ABORT of a tag that
is not in flight changes nothing and replies PRECONDITION, of one whose parts it ends OK. Derived from
spec/03_command_plane.md R82, spec/03_command_plane.md R83, spec/03_command_plane.md R84, spec/00_scope.md R3,
spec/03_command_plane.md R81, spec/03_command_plane.md R87, spec/03_command_plane.md R88. Where it goes beyond these
rules it is the model's own choice or reading: log entries 9, 10, 20. -/
def Obligations.PlaneCommands : Prop :=
  (∀ (s : State) (h : Hdr) (a n m v : Word) (ws : List Word), Addressed h s.dev 0 0 → 1 ≤ ws.length → ws.length ≤ 255 →
    let d := s.dev
    let A := a.toNat
    let rd := taken d 0x0100 h [a, n] 0 0
    let sr := taken d 0x0200 h [a, n] 0 0
    let wr := taken d 0x0101 h (a :: ws) 0 0
    let md := taken d 0x0102 h [a, m, v] 0 0
    let header (ws : List Word) : Prop := h.cg = true ∨ badBoundary h = false ∨ rangeStages A ws = false
    (1 ≤ n.toNat → n.toNat ≤ 255 → rangeMapped A n.toNat = true →
      (∀ r, rd.readRefusal A n.toNat = some r → Replies (.regRead h [a, n]) s 0x0100 h r) ∧
      (∀ r, sr.readRefusal A n.toNat = some r → Replies (.stageRead h [a, n]) s 0x0200 h r) ∧
      (rd.readRefusal A n.toNat = none → Gives (.regRead h [a, n]) s
        ((rd.readRange (.cmd h.path) A n.toNat).1.done h 0 0 (okWords (rd.readRange (.cmd h.path) A n.toNat).2))) ∧
      (sr.readRefusal A n.toNat = none → Gives (.stageRead h [a, n]) s
        ((sr.stagedRange h.path A n.toNat).1.done h 0 0 (okWords (sr.stagedRange h.path A n.toNat).2)))) ∧
    (1 ≤ n.toNat → n.toNat ≤ 255 → A % 4 = 0 → 0x800000 ≤ A → A + 4 * n.toNat ≤ 0x1000000 →
      (∀ k, k < n.toNat → d.badAt (A + 4 * k) 1 = false) →
      Replies (.regRead h [a, n]) s 0x0100 h (okWords ((List.range n.toNat).map fun k => Memory.readWord d.mem (A + 4 * k)))) ∧
    (rangeMapped A ws.length = true → header ws →
      RangeWritten (Replies (.regWrite h (a :: ws)) s 0x0101 h) (Gives (.regWrite h (a :: ws)) s) h wr A ws []) ∧
    (rangeMapped A 1 = true → header [0] → md.readRefusal A 1 = none → Gives (.regModify h [a, m, v]) s
      ((md.readAct (.cmd h.path) A).setModify (some (h.tag, (md.readWord (.cmd h.path) A).2)))) ∧
    (rangeMapped A 1 = true → header [0] → ∀ r, md.readRefusal A 1 = some r → Replies (.regModify h [a, m, v]) s 0x0102 h r) ∧
    (A % 4 = 0 → 0x800000 ≤ A → A < 0x1000000 → d.badAt A 1 = false →
      Gives (.regModify h [a, m, v]) s (md.setModify (some (h.tag, Memory.readWord d.mem A)))) ∧
    (rangeMapped A ws.length = true → ¬ header ws → Replies (.regWrite h (a :: ws)) s 0x0101 h badHeader) ∧
    (rangeMapped A 1 = true → ¬ header [0] → Replies (.regModify h [a, m, v]) s 0x0102 h badHeader) ∧
    (placeAt A ≠ .unmapped → n.toNat = 0 ∨ 255 < n.toNat → Replies (.regRead h [a, n]) s 0x0100 h (badWord 1) ∧
      Replies (.stageRead h [a, n]) s 0x0200 h (badWord 1)) ∧
    (1 ≤ n.toNat → n.toNat ≤ 255 → rangeMapped A n.toNat = false →
      Replies (.regRead h [a, n]) s 0x0100 h (refusal sBadParam 0) ∧
      Replies (.stageRead h [a, n]) s 0x0200 h (refusal sBadParam 0)) ∧
    (rangeMapped A ws.length = false → Replies (.regWrite h (a :: ws)) s 0x0101 h (refusal sBadParam 0)) ∧
    (A % 4 = 0 → 0x800000 ≤ A → A < 0x1000000 →
      Gives (.regWrite h [a, v]) s ((d.storeWords A [v]).final 0x0101 h (plain sOk))) ∧
    (placeAt A = .unmapped → Replies (.regRead h [a, n]) s 0x0100 h (refusal sBadParam 0) ∧
      Replies (.regWrite h (a :: ws)) s 0x0101 h (refusal sBadParam 0) ∧
      Replies (.regModify h [a, m, v]) s 0x0102 h (refusal sBadParam 0) ∧
      Replies (.stageRead h [a, n]) s 0x0200 h (refusal sBadParam 0))) ∧
  (∀ (d : Dev) (tag : BitVec 8) (old : Word) (f : Flight), d.cmd.modify = some (tag, old) → d.flightOf tag = some f →
    let e := d.setModify none
    let A := (arg f.params 0).toNat
    let new := (old &&& ~~~ (arg f.params 1)) ||| (arg f.params 2 &&& arg f.params 1)
    RangeWritten (fun r => d.modifyEnd = (e.land tag).final f.opc f.hdr r) (fun x => d.modifyEnd = x) f.hdr e A [new] [old] ∧
    (A % 4 = 0 → 0x800000 ≤ A → A < 0x1000000 → d.modifyEnd = (e.storeWords A [new]).finishAll tag (okWords [old]))) ∧
  (∀ (s : State) (h : Hdr) (w : Word), Addressed h s.dev 0 0 →
    let d := s.dev
    let g := h.group.toNat
    let frozen := (d.grp g).st = .accepted
    let t : BitVec 8 := BitVec.ofNat 8 w.toNat
    let e := taken d 0x0201 h [] 0 0
    let ab := taken d 0x0003 h [w] 0 0
    let ends := t ≠ h.tag ∧ (ab.abortTag t).openParts t < ab.openParts t
    Replies (.nop h []) s 0x0000 h (plain sOk) ∧
    (¬ frozen → Gives (.discard h []) s ((d.dropGroup g).final 0x0202 h (plain sOk))) ∧
    (frozen → Replies (.discard h []) s 0x0202 h (plain sBusy)) ∧
    (h.cg = false ∨ badBoundary h = true → Replies (.commit h []) s 0x0201 h (refusal sBadParam 0xFFFF)) ∧
    (h.cg = true → badBoundary h = false → frozen → Replies (.commit h []) s 0x0201 h (plain sBusy)) ∧
    (h.cg = true → badBoundary h = false → ¬ frozen → d.fieldsIn g = 0 →
      (∀ r, e.fixBoundary h = .error r → Replies (.commit h []) s 0x0201 h r) ∧
      (∀ b, e.fixBoundary h = .ok (some b) → Gives (.commit h []) s (d.finalAt 0x0201 h (plain sOk) (d.tsAt b))) ∧
      (e.fixBoundary h = .ok none → Gives (.commit h []) s (d.finalAt 0x0201 h (plain sOk) 0))) ∧
    (h.cg = true → badBoundary h = false → ¬ frozen → d.fieldsIn g ≠ 0 →
      (∀ r, e.commitCheck (d.fieldsOf g) h = .error r → Replies (.commit h []) s 0x0201 h r) ∧
      (∀ b, e.commitCheck (d.fieldsOf g) h = .ok (some b) → Reaches (.commit h []) s fun f =>
        (f.grp g).st = .accepted ∧ (f.grp g).bnd = b ∧ (f.grp g).tag = some h.tag ∧ f.cmd.staged = d.cmd.staged ∧
        f.regs = d.regs ∧ f.mem = d.mem ∧ f.inFlight h.tag = true ∧ ∀ k, k ≠ g → f.grp k = d.grp k) ∧
      (e.commitCheck (d.fieldsOf g) h = .ok none → Gives (.commit h []) s (e.commitAccept g none h))) ∧
    (ends → Gives (.tagAbort h [w]) s ((ab.abortTag t).done h 0 0 (plain sOk))) ∧
    (¬ ends → Replies (.tagAbort h [w]) s 0x0003 h (plain sPrecondition)) ∧
    (d.inFlight t = false → Replies (.tagAbort h [w]) s 0x0003 h (plain sPrecondition)))

/-- WIN.BURST of a cell replies with the first check that fails and changes nothing, or adds its burst to the pending
ones of the cell; parameters outside R114 are refused. RFFE.XFER of a block replies PRECONDITION without its supply
and BUSY while slot 0 is; a KIND or class out of range is refused; otherwise slot 0 takes the command word and data
and is queued. MISMATCH.MEAS needs a PA range in MODE 0b01 and a powered observation receiver, or replies
PRECONDITION; it queues one class 2 job. CAP.RELEASE frees the addressed READY regions. The command stays in flight
where its result comes later. BEAM.SWAP is refused for its parameters, its boundary or CG_VALID 1, and otherwise
fills the SLOT of its context from its start tick, or starts at once outside RUN. WT.WRITE stores whole entries of
64 bytes in the weight table of its quadrant, and WT.READ returns them, or INTERNAL for an uncorrectable error.
DPD.SWAP replies PRECONDITION (0x0307) under the guard lock and BUSY while a swap is bound, and otherwise requests
the bank; DPD.CLEAR ends the lock and clears the guard. ORX.CAPTURE replies BUSY while slot 0 is, and otherwise
starts slot 0 on its words. MEM.FILL takes its range. Derived from spec/04_rf_front.md R114, spec/04_rf_front.md
R119, spec/04_rf_front.md R121, spec/04_rf_front.md R126, spec/08_predistortion.md R211, spec/07_beam_engine.md
R173, spec/07_beam_engine.md R177, spec/07_beam_engine.md R190, spec/08_predistortion.md R205,
spec/08_predistortion.md R209, spec/08_predistortion.md R218, spec/12_vertex_engines.md R315. Where it goes beyond
these rules it is the model's own choice or reading: log entries 9, 30, 32. -/
def Obligations.PathCommands : Prop :=
  (∀ (s : State) (h : Hdr) (u : Nat) (a b c x y : Word),
    let d := s.dev
    let at_ (lv : Nat) : Prop := Addressed h d lv u
    let wb := taken d 0x0304 h [a, b, c] 3 u
    let xf := taken d 0x0310 h [a, b, c, x, y] 2 u
    let mm := taken d 0x0330 h [a] 3 u
    let legal := txLegal a = true ∧ 2 ≤ txClass a
    let n := fld a 15 0
    let ready := d.f (.feAux (u / 4)) 1 0 = 1 ∧ (d.block (u / 4)).orx ≠ .off
    (u < 128 → at_ 3 →
      (∀ r, d.burstRefusal [a, b, c] u = some r → Replies (.winBurst h [a, b, c]) s 0x0304 h r) ∧
      (d.burstRefusal [a, b, c] u = none →
        (∀ r, wb.burstCheck [a, b, c] h.tag u = .error r → Replies (.winBurst h [a, b, c]) s 0x0304 h r) ∧
        ∀ t, wb.burstCheck [a, b, c] h.tag u = .ok t →
          let e := (wb.setBursts u (d.bursts u ++ [{ start := t, len := c.toNat, tag := h.tag }])).note h.tag sAccepted
          Gives (.winBurst h [a, b, c]) s ((if e.loReady u then e else e.note h.tag sHeld).calRecheck (u % 64 / 16)))) ∧
    (u < 16 → at_ 2 →
      (¬ legal → Replies (.rffeXfer h [a, b, c, x, y]) s 0x0310 h (refusal sBadParam 0)) ∧
      (legal → d.fe33 = true → Replies (.rffeXfer h [a, b, c, x, y]) s 0x0310 h (plain sPrecondition)) ∧
      (legal → d.fe33 = false → d.rffeRes u 0 = 1 → Replies (.rffeXfer h [a, b, c, x, y]) s 0x0310 h (plain sBusy)) ∧
      (legal → d.fe33 = false → d.rffeRes u 0 ≠ 1 →
        let e := ((xf.setReg (.txn u 0) (a &&& 0xFFFFFFFC)).setReg (.txData u 0 0) b).setReg (.txData u 0 1) c
        let e := ((e.setReg (.txData u 0 2) x).setReg (.txData u 0 3) y).note h.tag sAccepted
        Gives (.rffeXfer h [a, b, c, x, y]) s ((e.setBlock u { e.block u with rffeTag := some h.tag }).rffeGo u 0))) ∧
    (u < 64 → at_ 3 →
      (n < 256 ∨ 16384 < n → Replies (.mismatchMeas h [a]) s 0x0330 h (refusal sBadParam 0)) ∧
      (256 ≤ n → n ≤ 16384 → ¬ ready → Replies (.mismatchMeas h [a]) s 0x0330 h (plain sPrecondition)) ∧
      (256 ≤ n → n ≤ 16384 → ready →
        let e := mm.note h.tag sAccepted
        let q := u / 4
        let e := e.setBlock q { e.block q with mis := (e.block q).mis ++ [{ tag := h.tag, path := u, n := n, since := e.now }] }
        Gives (.mismatchMeas h [a]) s (e.orxEnqueue q
          { who := .mismatch h.tag, cls := 2, pos := u % 4, src := u % 4, since := e.now }))) ∧
    (u < 16 → at_ 2 → Reaches (.capRelease h [a]) s fun e => e.regs = d.regs ∧ e.mem = d.mem ∧
      (∀ k, k < 8 → e.region u k = if a.toNat / 2 ^ k % 2 = 1 ∧ d.region u k = 2 then 0 else d.region u k) ∧
      (∀ q k, q < 16 → q ≠ u → k < 8 → e.region q k = d.region q k) ∧ e.inFlight h.tag = false)) ∧
  (∀ (s : State) (h : Hdr) (u : Nat) (a b c : Word) (ps ws : List Word),
    let d := s.dev
    let at_ (lv : Nat) : Prop := Addressed h d lv u
    let bs := taken d 0x0602 h ps 4 u
    let ds := taken d 0x0710 h [a] 3 u
    let oc := taken d 0x0720 h [a, b, c] 3 u
    let mf (lv : Nat) : Dev := taken d 0x0A10 h [a, b, c] lv u
    let at1 := quadMem u + (if bitOf a 31 then 0x40000 else 0) + 64 * fld a 11 0
    let count := 1 ≤ b.toNat ∧ b.toNat ≤ 15 ∧ fld a 11 0 + b.toNat ≤ 4096
    let filling (lv : Nat) : Prop := Gives (.memFill h [a, b, c]) s { (mf lv).note h.tag sAccepted with
      fills := d.fills ++ [(h.tag, a.toNat, b.toNat, c)] }
    (u < 128 → ps.length = 1 + fld (arg ps 0) 29 24 → at_ 4 →
      (∀ r, swapRefusal h ps = some r → Replies (.beamSwap h ps) s 0x0602 h r) ∧
      (swapRefusal h ps = none →
        (∀ r, bs.fixBoundary h = .error r → Replies (.beamSwap h ps) s 0x0602 h r) ∧
        (∀ t, bs.fixBoundary h = .ok (some t) → Gives (.beamSwap h ps) s (bs.swapEnter u (swapOf h ps t))) ∧
        (bs.fixBoundary h = .ok none →
          Gives (.beamSwap h ps) s ((bs.note h.tag sAccepted).swapAtOnce u (swapOf h ps d.now))))) ∧
    (u < 4 → count → ws.length = 16 * b.toNat → at_ 1 →
      Gives (.wtWrite h (a :: b :: ws)) s ((d.storeWords at1 ws).final 0x0610 h (plain sOk))) ∧
    (u < 4 → count → at_ 1 →
      (d.badAt at1 (16 * b.toNat) = false → Replies (.wtRead h [a, b]) s 0x0611 h
        (okWords (Memory.readWords d.mem at1 (16 * b.toNat)))) ∧
      (d.badAt at1 (16 * b.toNat) = true → Replies (.wtRead h [a, b]) s 0x0611 h (d.memInternal at1))) ∧
    (u < 4 → ¬ count → at_ 1 → Replies (.wtRead h [a, b]) s 0x0611 h (refusal sBadParam 4)) ∧
    (u < 64 → at_ 3 →
      ((d.path u).lock = true → Replies (.dpdSwap h [a]) s 0x0710 h (refusal sPrecondition 0x0307)) ∧
      ((d.path u).lock = false → d.swapBound u = true → Replies (.dpdSwap h [a]) s 0x0710 h (plain sBusy)) ∧
      ((d.path u).lock = false → d.swapBound u = false → Gives (.dpdSwap h [a]) s
        (((ds.note h.tag sAccepted).setBits (.dpdSwap u) 1 (fld a 0 0)).swapRequest u (fld a 0 0) (some h.tag))) ∧
      Gives (.dpdClear h []) s ((d.setPath u { d.path u with lock := false, gkind := 0, bankErr := 0 }).final 0x0711 h
        (plain sOk)) ∧
      ((d.slot (u / 4) 0).result = 1 → Replies (.orxCapture h [a, b, c]) s 0x0720 h (plain sBusy)) ∧
      ((d.slot (u / 4) 0).result ≠ 1 →
        let e := (oc.setReg (.creq (u / 4) 0 0) a).setReg (.creq (u / 4) 0 1) b
        let e := (e.setReg (.creq (u / 4) 0 2) (mkw (fld c 15 0))).capGo (u / 4) 0
        Gives (.orxCapture h [a, b, c]) s (if (e.slot (u / 4) 0).result = 1 then e.note h.tag sAccepted else e))) ∧
    (a.toNat % 4 = 0 → b.toNat % 64 = 0 →
      (u = 0 → at_ 0 → 0x800000 ≤ a.toNat → a.toNat + max 4 b.toNat ≤ 0x1000000 → filling 0) ∧
      (u < 4 → at_ 1 → quadMem u ≤ a.toNat → a.toNat + max 4 b.toNat ≤ quadMem u + 0x300000 → filling 1)))

/-- CAL.RUN of a quadrant, a block or a cell replies with the first check of its quadrant that fails, or begins a run
over the calibrations that it selects, with its timeout, after background updates have been abandoned. CAL.STOP ends
the run of its quadrant with ABORTED, or replies PRECONDITION without one. CAL.CLEAR and CAL.EXPORT reply BUSY while
the quadrant works, and otherwise wait for the next path-block boundary, or act at once outside RUN. CAL.IMPORT
replies, in this order, BUSY, BAD_PARAM, TEMP_RANGE, INTERNAL and CAL_FAIL, and otherwise takes the records of its
image. Derived from spec/09_calibration.md R225, spec/09_calibration.md R229, spec/09_calibration.md R236,
spec/09_calibration.md R237, spec/09_calibration.md R238. Where it goes beyond these rules it is the model's own
choice or reading: log entries 9, 13. -/
def Obligations.CalibrationCommands : Prop :=
  ∀ (s : State) (h : Hdr) (u lv : Nat) (a b : Word),
    let d := s.dev
    let units := if lv = 1 then quadUnits u else if lv = 2 then blockUnits u
      else if hu : u < 128 then [CalUnit.cell ⟨u, hu⟩] else []
    let q := if lv = 1 then u else if lv = 2 then u / 4 else u % 64 / 16
    let at_ := Addressed h d lv u
    let inside := (lv = 1 ∧ u < 4) ∨ (lv = 2 ∧ u < 16) ∨ (lv = 3 ∧ u < 128)
    let todo := calTasks (fld a 6 0) units
    let part := d.unitOf lv u
    let rn := taken d 0x0802 h [a, b] lv u
    let sp := taken d 0x0803 h [] lv u
    let cl := taken d 0x0804 h [a] lv u
    let ex := taken d 0x0810 h [a, b] lv u
    let im := taken d 0x0811 h [a, b] lv u
    let n := b.toNat / 4
    let words := Memory.readWords d.mem a.toNat n
    (at_ → inside →
      (todo = [] → Replies (.calRun h [a, b]) s 0x0802 h (refusal sBadParam 0)) ∧
      (todo ≠ [] → fld b 15 0 < 1 ∨ 1000 < fld b 15 0 → Replies (.calRun h [a, b]) s 0x0802 h (refusal sBadParam 4)) ∧
      (todo ≠ [] → 1 ≤ fld b 15 0 → fld b 15 0 ≤ 1000 →
        (∀ r, rn.calRunCheck q units todo = some r → Replies (.calRun h [a, b]) s 0x0802 h r) ∧
        (rn.calRunCheck q units todo = none →
          let e := (rn.note h.tag sAccepted).bgAbandon q fun _ => true
          Gives (.calRun h [a, b]) s (e.setCalq q { e.calq q with run := some {
            tag := h.tag, part := part, units := units.filter fun x => todo.any fun t => t.unit == x, todo := todo,
            deadline := e.now + ms (fld b 15 0) } }))) ∧
      ((d.calq q).busy = true → Replies (.calClear h [a]) s 0x0804 h (plain sBusy)) ∧
      ((d.calq q).busy = false →
        let e := cl.setCalq q { d.calq q with clr := (d.calq q).clr ++ [{
          tag := h.tag, part := part, units := units, kinds := fld a 6 0, at_ := d.calActAt }] }
        Gives (.calClear h [a]) s (if e.running then e else e.calClearRow q))) ∧
    (at_ → lv = 1 → u < 4 →
      ((d.calq u).run.isSome = true →
        Gives (.calStop h []) s ((sp.runEnd u (plain sAborted)).done h 1 u (plain sOk))) ∧
      ((d.calq u).run = none → Replies (.calStop h []) s 0x0803 h (plain sPrecondition)) ∧
      (calAddrBad a.toNat b.toNat = true → Replies (.calExport h [a, b]) s 0x0810 h (refusal sBadParam 0)) ∧
      (calAddrBad a.toNat b.toNat = false → (d.calq u).busy = true → Replies (.calExport h [a, b]) s 0x0810 h (plain sBusy)) ∧
      (calAddrBad a.toNat b.toNat = false → (d.calq u).busy = false →
        let e := ex.setCalq u { d.calq u with exp := (d.calq u).exp ++ [{
          tag := h.tag, part := part, addr := a.toNat, maxLen := b.toNat, at_ := d.calActAt }] }
        Gives (.calExport h [a, b]) s (if e.running then e else e.calExportRow u)) ∧
      ((d.calq u).busy = true → Replies (.calImport h [a, b]) s 0x0811 h (plain sBusy)) ∧
      ((d.calq u).busy = false → calAddrBad a.toNat b.toNat = true →
        Replies (.calImport h [a, b]) s 0x0811 h (refusal sBadParam 0)) ∧
      ((d.calq u).busy = false → calAddrBad a.toNat b.toNat = false →
        ((d.calq u).inWindow = false → Replies (.calImport h [a, b]) s 0x0811 h (d.tempRefusal u)) ∧
        ((d.calq u).inWindow = true → d.badAt a.toNat n = true →
          Replies (.calImport h [a, b]) s 0x0811 h (d.memInternal a.toNat)) ∧
        ((d.calq u).inWindow = true → d.badAt a.toNat n = false →
          (∀ k, readImage u b.toNat words = .error k → Replies (.calImport h [a, b]) s 0x0811 h
            (refusal sCalFail k (d.unitOf 1 u))) ∧
          ∀ recs, readImage u b.toNat words = .ok recs →
            let e := im.bgAbandon u fun _ => true
            let e := e.setCalq u { e.calq u with imp := some { tag := h.tag, part := part, recs := recs, at_ := e.calActAt } }
            Gives (.calImport h [a, b]) s (if e.running then e else e.calImportRow u))))

/-- ENG.LOAD replies with the first refusal of its engine and image, or takes the image. ENG.START needs a stopped
engine that is awake and not loading, and sets it running from its PC or the given one with fault record, event
latch and cache cleared; ENG.HALT stops an engine, at once or, asleep, after its wake, which it asks for; ENG.KICK
sets the event latch. DMA.SET writes five registers of an IDLE channel; DMA.RUN starts a channel that is IDLE with a
COUNT and a good configuration, and waits for its end with WAIT 1; DMA.RESUME needs HALTED; DMA.ABORT replies OK in
every state; PQ.ADD adds to a level, to 65,535 at most, and replies with the new one. Derived from
spec/12_vertex_engines.md R317, spec/12_vertex_engines.md R318, spec/13_dma.md R320, spec/13_dma.md R324,
spec/13_dma.md R330, spec/15_power_and_heat.md R351. Where it goes beyond these rules it is the model's own choice
or reading: log entries 9, 16, 21, 26. -/
def Obligations.EngineDmaCommands : Prop :=
  ∀ (s : State) (h : Hdr) (u : Nat) (a b c x y : Word),
    let d := s.dev
    let at_ := Addressed h d 6 u
    let ld := taken d 0x0A00 h [a, b] 6 u
    let hl := taken d 0x0A02 h [] 6 u
    let stopped := (d.eng u).st = .halted ∨ (d.eng u).st = .faulted
    let image := engImage b.toNat (Memory.readWords d.mem a.toNat (b.toNat / 4))
    let good := (d.eng u).load = none ∧ stopped ∧ calAddrBad a.toNat b.toNat = false ∧ d.badAt a.toNat (b.toNat / 4) = false
    let started (pc : Nat) : Dev := d.setEng u { d.eng u with
      st := .running, fcause := 0, fpc := 0, faddr := 0, evl := false, cache := [], wait := .none, pc := pc }
    let awake := d.asleep (128 + u / 4) = false
    let starts := stopped ∧ awake ∧ (d.eng u).load = none
    let form (ps : List Word) : Prop := (bitOf a 31 = false ∧ ps = [a]) ∨
      (bitOf a 31 = true ∧ ps = [a, b] ∧ b.toNat % 4 = 0 ∧ b.toNat < 0x10000)
    let halts (e : Dev) : Dev := (e.drainAll u).setEng u { (e.drainAll u).eng u with st := .halted, wait := .none }
    (u < 16 → at_ →
      ((d.eng u).load ≠ none → Replies (.engLoad h [a, b]) s 0x0A00 h (plain sBusy)) ∧
      ((d.eng u).load = none → ¬ stopped → Replies (.engLoad h [a, b]) s 0x0A00 h (refusal sPrecondition 0x0A01)) ∧
      ((d.eng u).load = none → stopped → calAddrBad a.toNat b.toNat = true →
        Replies (.engLoad h [a, b]) s 0x0A00 h (refusal sBadParam 0)) ∧
      ((d.eng u).load = none → stopped → calAddrBad a.toNat b.toNat = false → d.badAt a.toNat (b.toNat / 4) = true →
        Replies (.engLoad h [a, b]) s 0x0A00 h (d.memInternal a.toNat)) ∧
      (good → ∀ k, image = .error k → Replies (.engLoad h [a, b]) s 0x0A00 h (refusal sPrecondition k)) ∧
      (good → ∀ g, image = .ok g → Gives (.engLoad h [a, b]) s
        ((ld.setEng u { d.eng u with load := some (h.tag, d.unitOf 6 u, a.toNat) }).note h.tag sAccepted)) ∧
      (bitOf a 31 = false → starts → Gives (.engStart h [a]) s ((started (d.eng u).pc).final 0x0A01 h (plain sOk))) ∧
      (bitOf a 31 = true → b.toNat % 4 = 0 → b.toNat < 0x10000 → starts →
        Gives (.engStart h [a, b]) s ((started b.toNat).final 0x0A01 h (plain sOk))) ∧
      (bitOf a 31 = true → b.toNat % 4 ≠ 0 ∨ 0x10000 ≤ b.toNat →
        Replies (.engStart h [a, b]) s 0x0A01 h (refusal sBadParam 4)) ∧
      (∀ ps, form ps →
        (¬ stopped → Replies (.engStart h ps) s 0x0A01 h (refusal sPrecondition 0x0A01)) ∧
        (stopped → ¬ awake → Replies (.engStart h ps) s 0x0A01 h (refusal sPrecondition 0x0D01)) ∧
        (stopped → awake → (d.eng u).load ≠ none → Replies (.engStart h ps) s 0x0A01 h (plain sBusy))) ∧
      (stopped → Replies (.engHalt h []) s 0x0A02 h (plain sOk)) ∧
      ((d.eng u).st = .running ∨ (d.eng u).st = .waiting →
        let e := if (d.eng u).wait = .sleep then hl.wakeReq (136 + u) none else hl
        Gives (.engHalt h []) s ((halts e).finishPart h.tag (d.unitOf 6 u) (plain sOk))) ∧
      ((d.eng u).st = .sleeping →
        let e := hl.setEng u { d.eng u with halts := (d.eng u).halts ++ [(h.tag, d.unitOf 6 u)] }
        Gives (.engHalt h []) s (if d.wakeDue (136 + u) then e else e.wakeReq (136 + u) none)) ∧
      Gives (.engKick h []) s ((d.setEng u { d.eng u with evl := true }).final 0x0A03 h (plain sOk))) ∧
    (16 ≤ u → u < 64 → at_ →
      let ch := u - 16
      let idle := (d.chan ch).st = .idle
      let dr := taken d 0x0B01 h [a] 6 u
      let nr := dr.note h.tag sAccepted
      (idle → x.toNat &&& 0xD = 0 → Gives (.dmaSet h [a, b, c, x, y]) s
        ((((((taken d 0x0B00 h [a, b, c, x, y] 6 u).dmaWrite ch 0 a).dmaWrite ch 1 b).dmaWrite ch 2 c).dmaWrite ch 3 x).dmaWrite
          ch 4 y |>.done h 6 u (plain sOk))) ∧
      (¬ idle → x.toNat &&& 0xD = 0 → Replies (.dmaSet h [a, b, c, x, y]) s 0x0B00 h (plain sPrecondition)) ∧
      (x.toNat &&& 0xD ≠ 0 → Replies (.dmaSet h [a, b, c, x, y]) s 0x0B00 h (refusal sBadParam 12)) ∧
      (¬ idle ∨ d.dmaCount ch = 0 → Replies (.dmaRun h [a]) s 0x0B01 h (plain sPrecondition)) ∧
      (idle → d.dmaCount ch ≠ 0 → d.dmaConfigBad ch = true →
        Replies (.dmaRun h [a]) s 0x0B01 h (refusal sBadParam 0xFFFE (d.chanLoc ch).toNat)) ∧
      (idle → d.dmaCount ch ≠ 0 → d.dmaConfigBad ch = false →
        (bitOf a 0 = false → Gives (.dmaRun h [a]) s ((dr.dmaEnter ch).done h 6 u (plain sOk))) ∧
        (bitOf a 0 = true → Gives (.dmaRun h [a]) s ((nr.setChan ch { d.chan ch with tag := some h.tag }).dmaEnter ch))) ∧
      ((d.chan ch).st = .halted →
        Gives (.dmaResume h []) s (((taken d 0x0B02 h [] 6 u).dmaResumeGo ch).done h 6 u (plain sOk))) ∧
      ((d.chan ch).st ≠ .halted → Replies (.dmaResume h []) s 0x0B02 h (plain sPrecondition)) ∧
      Gives (.dmaAbort h []) s (((taken d 0x0B03 h [] 6 u).dmaAbortGo ch).done h 6 u (plain sOk)) ∧
      (idle → Replies (.dmaAbort h []) s 0x0B03 h (plain sOk)) ∧
      (let q := if ch < 32 then ch / 8 else 4
       let k := fld a 3 0
       let e := (taken d 0x0B10 h [a, b] 6 u).pqSet q k (min 65535 (d.pqLevel q k + fld b 15 0))
       Gives (.pqAdd h [a, b]) s (e.done h 6 u (okWords [mkw (e.pqLevel q k)]))))

/-- EVT.ARRAY enables, disables, sets or clears one source and EVT.COMPLETE completes one claim; both reply OK.
LINK.RETRAIN is accepted, and then ends with LINK for a group that is OFF, and otherwise waits, with the group in TRAIN
from RUN, or in a new attempt from LISTEN. PL.MIN sets the floor of the ladder. PWR.SLEEP and PWR.WAKE hand the domain
of a chip, a quadrant, a cell, each cell of a block or the group direction of a lane to the power sequencer, and of a
lane in no group reply PRECONDITION and OK. LAT.MEMBERS replies on a head only. LAT.ARM of a chip that cannot be armed
replies PRECONDITION, on a chip without members arms it with the given frame, and on a head asks every member first,
or replies LINK when its hop is down. Derived from spec/14_event_hub.md R345,
spec/10_fleob_lanes.md R268, spec/15_power_and_heat.md R350, spec/15_power_and_heat.md R353,
spec/15_power_and_heat.md R365, spec/16_mode_combinations.md R372. Where it goes beyond these rules it is the
model's own choice or reading: log entries 8, 9, 14, 15, 22, 38. -/
def Obligations.HubLinkPowerCommands : Prop :=
  ∀ (s : State) (h : Hdr) (u : Nat) (a b : Word),
    let d := s.dev
    let at_ (lv : Nat) : Prop := Addressed h d lv u
    let ea := taken d 0x0C02 h [a] 0 0
    let src := fld a 8 0
    let array (f : Dev) : Prop := Gives (.evtArray h [a]) s (f.done h 0 0 (plain sOk))
    let g := fld a 1 0
    let rt := (taken d 0x0902 h [a] 0 0).note h.tag sAccepted
    let waits := rt.setLg g { d.lg g with retrain := (d.lg g).retrain ++ [h.tag] }
    let sl (lv : Nat) : Dev := taken d 0x0D00 h [] lv u
    let wk (lv : Nat) : Dev := taken d 0x0D01 h [] lv u
    let pwr (lv n : Nat) : Prop :=
      Gives (.pwrSleep h []) s ((sl lv).sleepReq (sl lv).projectAll n (some (h.tag, d.unitOf lv u))) ∧
      Gives (.pwrWake h []) s ((wk lv).wakeReq n (some (h.tag, d.unitOf lv u)))
    let chip (k : Nat) : Nat := (tgtWord k 0 0).toNat
    let all := d.boot.phase = .up ∧ Settled d ∧ d.inFlight h.tag = false ∧ Hdr.level h = 7 ∧ Hdr.index h = 0x3FF
    let ask := commandBytes 0x0100 { h with rr := true, cg := false, bnd := 0 }
    (u = 0 → at_ 0 →
      (src ≠ 0 → (fld a 17 16 = 0 → array (ea.setEn src true)) ∧ (fld a 17 16 = 1 → array (ea.setEn src false)) ∧
        (fld a 17 16 = 2 → array (ea.pendSet src)) ∧ (fld a 17 16 = 3 → array (ea.pendClr src))) ∧
      (src = 0 → Replies (.evtArray h [a]) s 0x0C02 h (refusal sBadParam 0)) ∧
      (19 < fld a 4 0 → Replies (.evtComplete h [a, b]) s 0x0C03 h (refusal sBadParam 0)) ∧
      (fld a 4 0 ≤ 19 → fld b 8 0 = 0 → Replies (.evtComplete h [a, b]) s 0x0C03 h (refusal sBadParam 4)) ∧
      (fld a 4 0 ≤ 19 → fld b 8 0 ≠ 0 → Gives (.evtComplete h [a, b]) s
        (((taken d 0x0C03 h [a, b] 0 0).complete (fld a 4 0) (fld b 8 0)).done h 0 0 (plain sOk))) ∧
      (g = 3 → Replies (.linkRetrain h [a]) s 0x0902 h (refusal sBadParam 0)) ∧
      (g < 3 → (d.lg g).st = .off → Gives (.linkRetrain h [a]) s (rt.finishAll h.tag (plain sLink))) ∧
      (g < 3 → (d.lg g).st ≠ .off →
        ((d.lg g).st = .run → Gives (.linkRetrain h [a]) s (waits.enterTrain g (d.lg g).rate)) ∧
        ((d.lg g).st = .listen → Gives (.linkRetrain h [a]) s
          ((waits.setLg g { waits.lg g with attemptAt := some d.now }).attempt g)) ∧
        ((d.lg g).st ≠ .run → (d.lg g).st ≠ .listen → Gives (.linkRetrain h [a]) s waits)) ∧
      Gives (.plMin h [a]) s (((taken d 0x0D04 h [a] 0 0).plMinSet (fld a 2 0)).done h 0 0 (plain sOk)) ∧
      (d.role = 1 → Replies (.latMembers h []) s 0x0E02 h (okWords ((List.range d.last).flatMap fun k =>
        let m := d.member (k + 1)
        [mkw m.word.toNat, mkw (m.word.toNat / 2 ^ 32 % 2 ^ 12 + if m.silent then 2 ^ 31 else 0)]))) ∧
      (d.role ≠ 1 → Replies (.latMembers h []) s 0x0E02 h (refusal sPrecondition 0x0E01))) ∧
    (u = 0 → at_ 0 → pwr 0 135) ∧ (u < 4 → at_ 1 → pwr 1 (128 + u)) ∧ (u < 128 → at_ 3 → pwr 3 u) ∧
    (u < 16 → at_ 2 →
      let cells := (List.range 4).map (4 * u + ·) ++ (List.range 4).map (64 + 4 * u + ·)
      let st (opc : Nat) : Dev := d.launch opc h [] (cells.map (d.unitOf 3))
      Gives (.pwrSleep h []) s
        (cells.foldl (fun e c => e.sleepReq (sl 2).projectAll c (some (h.tag, d.unitOf 3 c))) (st 0x0D00)) ∧
      Gives (.pwrWake h []) s (cells.foldl (fun e c => e.wakeReq c (some (h.tag, d.unitOf 3 c))) (st 0x0D01))) ∧
    (u < 16 → at_ 5 → (∀ k, d.groupOf u = some k → pwr 5 (132 + k)) ∧
      (d.groupOf u = none → Replies (.pwrSleep h []) s 0x0D00 h (refusal sPrecondition 0x0D02) ∧
        Replies (.pwrWake h []) s 0x0D01 h (plain sOk))) ∧
    (all → d.tb.st ≠ .idle → d.tb.st ≠ .armed →
      Replies (.latArm h [a]) s 0x0E03 h (refusal sPrecondition 0 (chip d.chipNo))) ∧
    (all → d.role ≠ 1 ∨ d.last = 0 →
      let e := d.setReg .frameNext (mkw (fld a 22 0))
      (d.tb.st = .idle → Gives (.latArm h [a]) s
        ((e.setTb { d.tb with st := .armed, tick0At := none }).final 0x0E03 h (plain sOk))) ∧
      (d.tb.st = .armed → Gives (.latArm h [a]) s (e.final 0x0E03 h (plain sOk)))) ∧
    (all → d.tb.st = .idle ∨ d.tb.st = .armed → d.role = 1 → 1 ≤ d.last → d.downOk = false →
      Replies (.latArm h [a]) s 0x0E03 h { plain sLink with aux := chip 1 }) ∧
    (all → d.tb.st = .idle ∨ d.tb.st = .armed → d.role = 1 → 1 ≤ d.last → d.downOk = true →
      Reaches (.latArm h [a]) s fun e => e.regs = d.regs ∧ e.tb = d.tb ∧ e.inFlight h.tag = true ∧
        e.queueOf 2 1 = d.queueOf 2 1 ++ (List.range d.last).map fun k =>
          .command (ask (chip (k + 1)) [0x20004, 1]))
end

