-- ==== Sys2Proof/Laws/Tables.lean ====
section
/-! SUPPORT. What the sparse tables and memory do: a read after a write, and the canonical form. -/

namespace Sys2Proof.Machine

theorem Tbl.get_insert {α : Type} (d : Nat → α) (t : Tbl α) (i j : Nat) (v : α) :
    Tbl.get d (Tbl.insert t i v) j = if j = i then v else Tbl.get d t j := by
  induction t with
  | nil => simp only [Tbl.insert, Tbl.get]; grind
  | cons e t ih => simp only [Tbl.insert]; split <;> (try split) <;> simp only [Tbl.get, *] <;> grind

theorem Tbl.get_erase {α : Type} (d : Nat → α) (t : Tbl α) (i j : Nat) :
    Tbl.get d (Tbl.erase t i) j = if j = i then d i else Tbl.get d t j := by
  induction t with
  | nil => simp only [Tbl.erase, List.filter, Tbl.get]; grind
  | cons e t ih =>
    simp only [Tbl.erase, List.filter_cons] at ih ⊢
    split <;> simp only [Tbl.get, *] <;> grind

/-- A read after a write: what was written at its index, what stood there before at any other. -/
theorem Tbl.get_set {α : Type} [DecidableEq α] (d : Nat → α) (t : Tbl α) (i j : Nat) (v : α) :
    Tbl.get d (Tbl.set d t i v) j = if j = i then v else Tbl.get d t j := by
  unfold Tbl.set
  split
  · rw [Tbl.get_erase]; grind
  · exact Tbl.get_insert d t i j v

@[simp] theorem Tbl.get_set_same {α : Type} [DecidableEq α] (d : Nat → α) (t : Tbl α) (i : Nat) (v : α) :
    Tbl.get d (Tbl.set d t i v) i = v := by simp [Tbl.get_set]

@[simp] theorem Tbl.get_set_other {α : Type} [DecidableEq α] (d : Nat → α) (t : Tbl α) (i j : Nat) (v : α)
    (h : ¬ j = i) : Tbl.get d (Tbl.set d t i v) j = Tbl.get d t j := by simp [Tbl.get_set, h]

theorem Tbl.above_insert {α : Type} (k i : Nat) (t : Tbl α) (v : α) (h : Tbl.above k t = true) (hi : k < i) :
    Tbl.above k (Tbl.insert t i v) = true := by
  induction t with
  | nil => simp [Tbl.insert, Tbl.above, hi]
  | cons e t ih =>
    simp only [Tbl.above, Bool.and_eq_true, decide_eq_true_eq] at h
    simp only [Tbl.insert]
    split <;> (try split) <;> simp_all [Tbl.above]

theorem Tbl.above_erase {α : Type} (k i : Nat) (t : Tbl α) (h : Tbl.above k t = true) :
    Tbl.above k (Tbl.erase t i) = true := by
  induction t with
  | nil => simp [Tbl.erase, Tbl.above]
  | cons e t ih =>
    simp only [Tbl.above, Bool.and_eq_true, decide_eq_true_eq] at h
    simp only [Tbl.erase, List.filter_cons] at ih ⊢
    split <;> simp_all [Tbl.above]

theorem Tbl.above_le {α : Type} (k j : Nat) (t : Tbl α) (h : Tbl.above j t = true) (hk : k ≤ j) :
    Tbl.above k t = true := by
  induction t with
  | nil => rfl
  | cons e t ih =>
    simp only [Tbl.above, Bool.and_eq_true, decide_eq_true_eq] at h ⊢
    exact ⟨by omega, ih h.2⟩

theorem Tbl.wf_insert {α : Type} [DecidableEq α] (d : Nat → α) (t : Tbl α) (i : Nat) (v : α)
    (h : Tbl.wf d t = true) (hv : v ≠ d i) : Tbl.wf d (Tbl.insert t i v) = true := by
  induction t with
  | nil => simp [Tbl.insert, Tbl.wf, Tbl.above, hv]
  | cons e t ih =>
    simp only [Tbl.wf, Bool.and_eq_true, decide_eq_true_eq] at h
    simp only [Tbl.insert]
    split
    · simp only [Tbl.wf, Tbl.above, Bool.and_eq_true, decide_eq_true_eq]
      exact ⟨⟨hv, by assumption, Tbl.above_le _ _ _ h.1.2 (by omega)⟩, h⟩
    · split
      · subst_vars
        simp only [Tbl.wf, Bool.and_eq_true, decide_eq_true_eq]
        exact ⟨⟨hv, h.1.2⟩, h.2⟩
      · simp only [Tbl.wf, Bool.and_eq_true, decide_eq_true_eq]
        exact ⟨⟨h.1.1, Tbl.above_insert _ _ _ _ h.1.2 (by omega)⟩, ih h.2⟩

theorem Tbl.wf_erase {α : Type} [DecidableEq α] (d : Nat → α) (t : Tbl α) (i : Nat) (h : Tbl.wf d t = true) :
    Tbl.wf d (Tbl.erase t i) = true := by
  induction t with
  | nil => rfl
  | cons e t ih =>
    simp only [Tbl.wf, Bool.and_eq_true, decide_eq_true_eq] at h
    have h1 := Tbl.above_erase e.1 i t h.1.2
    simp only [Tbl.erase, List.filter_cons] at ih h1 ⊢
    split <;> simp_all [Tbl.wf]

/-- A write keeps the canonical form. -/
theorem Tbl.wf_set {α : Type} [DecidableEq α] (d : Nat → α) (t : Tbl α) (i : Nat) (v : α) (h : Tbl.wf d t = true) :
    Tbl.wf d (Tbl.set d t i v) = true := by
  unfold Tbl.set
  split
  · exact Tbl.wf_erase d t i h
  · exact Tbl.wf_insert d t i v h (by assumption)

/-! ## Memory -/

/-- A byte read after a byte written. -/
theorem Memory.read_write (m : List Host.Cell) (a b : Nat) (x : Byte) :
    Memory.read (Memory.write m a x) b = if b = a then x else Memory.read m b := Tbl.get_set _ _ _ _ _

theorem Memory.wf_write (m : List Host.Cell) (a : Nat) (x : Byte) (h : Memory.wf m = true) :
    Memory.wf (Memory.write m a x) = true := Tbl.wf_set _ _ _ _ h

/-- Bytes outside the written range stay. -/
theorem Memory.read_writeBytes_other (m : List Host.Cell) (a b : Nat) (l : List Byte) (h : b < a ∨ a + l.length ≤ b) :
    Memory.read (Memory.writeBytes m a l) b = Memory.read m b := by
  induction l generalizing m a with
  | nil => rfl
  | cons x l ih =>
    simp only [List.length_cons] at h
    rw [Memory.writeBytes, ih _ _ (by omega), Memory.read_write, if_neg (by omega)]

/-- A byte of the written range holds what was written. -/
theorem Memory.read_writeBytes_in (m : List Host.Cell) (a i : Nat) (l : List Byte) (h : i < l.length) :
    Memory.read (Memory.writeBytes m a l) (a + i) = l[i] := by
  induction l generalizing m a i with
  | nil => simp at h
  | cons x l ih =>
    rw [Memory.writeBytes]
    cases i with
    | zero => rw [Memory.read_writeBytes_other _ _ _ _ (by omega), Memory.read_write]; simp
    | succ i =>
      have := ih (Memory.write m a x) (a + 1) i (by simpa using h)
      simpa [Nat.add_assoc, Nat.add_comm 1 i] using this

theorem Memory.wf_writeBytes (m : List Host.Cell) (a : Nat) (l : List Byte) (h : Memory.wf m = true) :
    Memory.wf (Memory.writeBytes m a l) = true := by
  induction l generalizing m a with
  | nil => exact h
  | cons x l ih => exact ih _ _ (Memory.wf_write _ _ _ h)

theorem Memory.wf_writeWord (m : List Host.Cell) (a : Nat) (w : Word) (h : Memory.wf m = true) :
    Memory.wf (Memory.writeWord m a w) = true := Memory.wf_writeBytes _ _ _ h

theorem Memory.wf_writeWords (m : List Host.Cell) (a : Nat) (l : List Word) (h : Memory.wf m = true) :
    Memory.wf (Memory.writeWords m a l) = true := by
  induction l generalizing m a with
  | nil => exact h
  | cons x l ih => exact ih _ _ (Memory.wf_writeWord _ _ _ h)

/-- Both stores keep memory canonical. -/
theorem Dev.storeWords_wf (d : Dev) (a : Nat) (l : List Word) (h : Memory.wf d.mem = true) :
    Memory.wf (d.storeWords a l).mem = true := Memory.wf_writeWords _ _ _ h
theorem Dev.storeBytes_wf (d : Dev) (a : Nat) (l : List Byte) (h : Memory.wf d.mem = true) :
    Memory.wf (d.storeBytes a l).mem = true := Memory.wf_writeBytes _ _ _ h

end Sys2Proof.Machine
end

