-- ==== Sys2Proof/Laws/State.lean ====
section
/-! SUPPORT. What each update of a unit leaves as it was, and what it sets; one theorem an update, a conjunct a field,
all of them rewriting rules. -/

namespace Sys2Proof.Machine

@[simp] theorem Dev.setSyn_syn (d : Dev) (i j : Nat) (v : Syn) :
    (d.setSyn i v).syn j = if j = i then v else d.syn j := Tbl.get_set _ _ _ _ _
@[simp] theorem Dev.setSyn_frame (d : Dev) (i : Nat) (v : Syn) :
    (d.setSyn i v).now = d.now ∧ (d.setSyn i v).fresh = d.fresh ∧ (d.setSyn i v).boot = d.boot ∧
    (d.setSyn i v).regs = d.regs ∧ (d.setSyn i v).past = d.past ∧ (d.setSyn i v).mem = d.mem ∧
    (d.setSyn i v).bad = d.bad ∧ (d.setSyn i v).cmd = d.cmd ∧ (d.setSyn i v).tb = d.tb ∧ (d.setSyn i v).blk = d.blk ∧
    (d.setSyn i v).carr = d.carr ∧ (d.setSyn i v).beam = d.beam ∧ (d.setSyn i v).pp = d.pp ∧
    (d.setSyn i v).cal = d.cal ∧ (d.setSyn i v).link = d.link ∧ (d.setSyn i v).ve = d.ve ∧
    (d.setSyn i v).fills = d.fills ∧ (d.setSyn i v).dma = d.dma ∧ (d.setSyn i v).hub = d.hub ∧
    (d.setSyn i v).pwr = d.pwr ∧ (d.setSyn i v).jtag = d.jtag ∧ (d.setSyn i v).lat = d.lat ∧
    (∀ r, (d.setSyn i v).reg r = d.reg r) ∧ (∀ r a b, (d.setSyn i v).f r a b = d.f r a b) ∧
    (∀ r a, (d.setSyn i v).fb r a = d.fb r a) ∧ (d.setSyn i v).powered = d.powered :=
  ⟨rfl, rfl, rfl, rfl, rfl, rfl, rfl, rfl, rfl, rfl, rfl, rfl, rfl, rfl, rfl, rfl, rfl, rfl, rfl, rfl, rfl, rfl,
   fun _ => rfl, fun _ _ _ => rfl, fun _ _ => rfl, rfl⟩
@[simp] theorem Dev.setSyn_units (d : Dev) (i : Nat) (v : Syn) :
    (∀ j, (d.setSyn i v).res j = d.res j) ∧ (∀ j, (d.setSyn i v).tx j = d.tx j) ∧
    (∀ j, (d.setSyn i v).rx j = d.rx j) ∧ (∀ j, (d.setSyn i v).bursts j = d.bursts j) ∧
    (∀ j, (d.setSyn i v).paPin j = d.paPin j) ∧ (∀ j, (d.setSyn i v).divp j = d.divp j) ∧
    (∀ j, (d.setSyn i v).block j = d.block j) ∧ (∀ j, (d.setSyn i v).carrier j = d.carrier j) ∧
    (∀ j, (d.setSyn i v).ctx j = d.ctx j) ∧ (∀ j, (d.setSyn i v).path j = d.path j) ∧
    (∀ j, (d.setSyn i v).calq j = d.calq j) ∧ (∀ j, (d.setSyn i v).grp j = d.grp j) ∧
    (∀ j, (d.setSyn i v).latch j = d.latch j) ∧ (∀ j, (d.setSyn i v).slack j = d.slack j) ∧
    (∀ j, (d.setSyn i v).slackLow j = d.slackLow j) ∧ (∀ j, (d.setSyn i v).fabV j = d.fabV j) ∧
    (∀ j, (d.setSyn i v).lg j = d.lg j) ∧ (∀ j, (d.setSyn i v).lane j = d.lane j) ∧
    (∀ j, (d.setSyn i v).egress j = d.egress j) ∧ (∀ j, (d.setSyn i v).wire j = d.wire j) ∧
    (∀ j, (d.setSyn i v).hiCount j = d.hiCount j) ∧ (∀ j, (d.setSyn i v).framed j = d.framed j) ∧
    (∀ j, (d.setSyn i v).inPoly j = d.inPoly j) ∧ (∀ j, (d.setSyn i v).egPoly j = d.egPoly j) ∧
    (∀ j, (d.setSyn i v).eng j = d.eng j) ∧ (∀ j, (d.setSyn i v).chan j = d.chan j) ∧
    (∀ j, (d.setSyn i v).src j = d.src j) ∧ (∀ j, (d.setSyn i v).tgt j = d.tgt j) ∧
    (∀ j, (d.setSyn i v).dom j = d.dom j) ∧ (∀ j, (d.setSyn i v).sensor j = d.sensor j) ∧
    (∀ j, (d.setSyn i v).supply j = d.supply j) ∧ (∀ j, (d.setSyn i v).auxMon j = d.auxMon j) ∧
    (∀ j, (d.setSyn i v).member j = d.member j) ∧ (∀ j, (d.setSyn i v).bcell j = d.bcell j) :=
  ⟨fun _ => rfl, fun _ => rfl, fun _ => rfl, fun _ => rfl, fun _ => rfl, fun _ => rfl, fun _ => rfl, fun _ => rfl,
   fun _ => rfl, fun _ => rfl, fun _ => rfl, fun _ => rfl, fun _ => rfl, fun _ => rfl, fun _ => rfl, fun _ => rfl,
   fun _ => rfl, fun _ => rfl, fun _ => rfl, fun _ => rfl, fun _ => rfl, fun _ => rfl, fun _ => rfl, fun _ => rfl,
   fun _ => rfl, fun _ => rfl, fun _ => rfl, fun _ => rfl, fun _ => rfl, fun _ => rfl, fun _ => rfl, fun _ => rfl,
   fun _ => rfl, fun _ => rfl⟩

@[simp] theorem Dev.setRes_res (d : Dev) (i j : Nat) (v : SynRes) :
    (d.setRes i v).res j = if j = i then v else d.res j := Tbl.get_set _ _ _ _ _
@[simp] theorem Dev.setRes_frame (d : Dev) (i : Nat) (v : SynRes) :
    (d.setRes i v).now = d.now ∧ (d.setRes i v).fresh = d.fresh ∧ (d.setRes i v).boot = d.boot ∧
    (d.setRes i v).regs = d.regs ∧ (d.setRes i v).past = d.past ∧ (d.setRes i v).mem = d.mem ∧
    (d.setRes i v).bad = d.bad ∧ (d.setRes i v).cmd = d.cmd ∧ (d.setRes i v).tb = d.tb ∧ (d.setRes i v).blk = d.blk ∧
    (d.setRes i v).carr = d.carr ∧ (d.setRes i v).beam = d.beam ∧ (d.setRes i v).pp = d.pp ∧
    (d.setRes i v).cal = d.cal ∧ (d.setRes i v).link = d.link ∧ (d.setRes i v).ve = d.ve ∧
    (d.setRes i v).fills = d.fills ∧ (d.setRes i v).dma = d.dma ∧ (d.setRes i v).hub = d.hub ∧
    (d.setRes i v).pwr = d.pwr ∧ (d.setRes i v).jtag = d.jtag ∧ (d.setRes i v).lat = d.lat ∧
    (∀ r, (d.setRes i v).reg r = d.reg r) ∧ (∀ r a b, (d.setRes i v).f r a b = d.f r a b) ∧
    (∀ r a, (d.setRes i v).fb r a = d.fb r a) ∧ (d.setRes i v).powered = d.powered :=
  ⟨rfl, rfl, rfl, rfl, rfl, rfl, rfl, rfl, rfl, rfl, rfl, rfl, rfl, rfl, rfl, rfl, rfl, rfl, rfl, rfl, rfl, rfl,
   fun _ => rfl, fun _ _ _ => rfl, fun _ _ => rfl, rfl⟩
@[simp] theorem Dev.setRes_units (d : Dev) (i : Nat) (v : SynRes) :
    (∀ j, (d.setRes i v).syn j = d.syn j) ∧ (∀ j, (d.setRes i v).tx j = d.tx j) ∧
    (∀ j, (d.setRes i v).rx j = d.rx j) ∧ (∀ j, (d.setRes i v).bursts j = d.bursts j) ∧
    (∀ j, (d.setRes i v).paPin j = d.paPin j) ∧ (∀ j, (d.setRes i v).divp j = d.divp j) ∧
    (∀ j, (d.setRes i v).block j = d.block j) ∧ (∀ j, (d.setRes i v).carrier j = d.carrier j) ∧
    (∀ j, (d.setRes i v).ctx j = d.ctx j) ∧ (∀ j, (d.setRes i v).path j = d.path j) ∧
    (∀ j, (d.setRes i v).calq j = d.calq j) ∧ (∀ j, (d.setRes i v).grp j = d.grp j) ∧
    (∀ j, (d.setRes i v).latch j = d.latch j) ∧ (∀ j, (d.setRes i v).slack j = d.slack j) ∧
    (∀ j, (d.setRes i v).slackLow j = d.slackLow j) ∧ (∀ j, (d.setRes i v).fabV j = d.fabV j) ∧
    (∀ j, (d.setRes i v).lg j = d.lg j) ∧ (∀ j, (d.setRes i v).lane j = d.lane j) ∧
    (∀ j, (d.setRes i v).egress j = d.egress j) ∧ (∀ j, (d.setRes i v).wire j = d.wire j) ∧
    (∀ j, (d.setRes i v).hiCount j = d.hiCount j) ∧ (∀ j, (d.setRes i v).framed j = d.framed j) ∧
    (∀ j, (d.setRes i v).inPoly j = d.inPoly j) ∧ (∀ j, (d.setRes i v).egPoly j = d.egPoly j) ∧
    (∀ j, (d.setRes i v).eng j = d.eng j) ∧ (∀ j, (d.setRes i v).chan j = d.chan j) ∧
    (∀ j, (d.setRes i v).src j = d.src j) ∧ (∀ j, (d.setRes i v).tgt j = d.tgt j) ∧
    (∀ j, (d.setRes i v).dom j = d.dom j) ∧ (∀ j, (d.setRes i v).sensor j = d.sensor j) ∧
    (∀ j, (d.setRes i v).supply j = d.supply j) ∧ (∀ j, (d.setRes i v).auxMon j = d.auxMon j) ∧
    (∀ j, (d.setRes i v).member j = d.member j) ∧ (∀ j, (d.setRes i v).bcell j = d.bcell j) :=
  ⟨fun _ => rfl, fun _ => rfl, fun _ => rfl, fun _ => rfl, fun _ => rfl, fun _ => rfl, fun _ => rfl, fun _ => rfl,
   fun _ => rfl, fun _ => rfl, fun _ => rfl, fun _ => rfl, fun _ => rfl, fun _ => rfl, fun _ => rfl, fun _ => rfl,
   fun _ => rfl, fun _ => rfl, fun _ => rfl, fun _ => rfl, fun _ => rfl, fun _ => rfl, fun _ => rfl, fun _ => rfl,
   fun _ => rfl, fun _ => rfl, fun _ => rfl, fun _ => rfl, fun _ => rfl, fun _ => rfl, fun _ => rfl, fun _ => rfl,
   fun _ => rfl, fun _ => rfl⟩

@[simp] theorem Dev.setTx_tx (d : Dev) (i j : Nat) (v : TxCell) :
    (d.setTx i v).tx j = if j = i then v else d.tx j := Tbl.get_set _ _ _ _ _
@[simp] theorem Dev.setTx_frame (d : Dev) (i : Nat) (v : TxCell) :
    (d.setTx i v).now = d.now ∧ (d.setTx i v).fresh = d.fresh ∧ (d.setTx i v).boot = d.boot ∧
    (d.setTx i v).regs = d.regs ∧ (d.setTx i v).past = d.past ∧ (d.setTx i v).mem = d.mem ∧
    (d.setTx i v).bad = d.bad ∧ (d.setTx i v).cmd = d.cmd ∧ (d.setTx i v).tb = d.tb ∧ (d.setTx i v).blk = d.blk ∧
    (d.setTx i v).carr = d.carr ∧ (d.setTx i v).beam = d.beam ∧ (d.setTx i v).pp = d.pp ∧ (d.setTx i v).cal = d.cal ∧
    (d.setTx i v).link = d.link ∧ (d.setTx i v).ve = d.ve ∧ (d.setTx i v).fills = d.fills ∧
    (d.setTx i v).dma = d.dma ∧ (d.setTx i v).hub = d.hub ∧ (d.setTx i v).pwr = d.pwr ∧ (d.setTx i v).jtag = d.jtag ∧
    (d.setTx i v).lat = d.lat ∧ (∀ r, (d.setTx i v).reg r = d.reg r) ∧ (∀ r a b, (d.setTx i v).f r a b = d.f r a b) ∧
    (∀ r a, (d.setTx i v).fb r a = d.fb r a) ∧ (d.setTx i v).powered = d.powered :=
  ⟨rfl, rfl, rfl, rfl, rfl, rfl, rfl, rfl, rfl, rfl, rfl, rfl, rfl, rfl, rfl, rfl, rfl, rfl, rfl, rfl, rfl, rfl,
   fun _ => rfl, fun _ _ _ => rfl, fun _ _ => rfl, rfl⟩
@[simp] theorem Dev.setTx_units (d : Dev) (i : Nat) (v : TxCell) :
    (∀ j, (d.setTx i v).syn j = d.syn j) ∧ (∀ j, (d.setTx i v).res j = d.res j) ∧
    (∀ j, (d.setTx i v).rx j = d.rx j) ∧ (∀ j, (d.setTx i v).bursts j = d.bursts j) ∧
    (∀ j, (d.setTx i v).paPin j = d.paPin j) ∧ (∀ j, (d.setTx i v).divp j = d.divp j) ∧
    (∀ j, (d.setTx i v).block j = d.block j) ∧ (∀ j, (d.setTx i v).carrier j = d.carrier j) ∧
    (∀ j, (d.setTx i v).ctx j = d.ctx j) ∧ (∀ j, (d.setTx i v).path j = d.path j) ∧
    (∀ j, (d.setTx i v).calq j = d.calq j) ∧ (∀ j, (d.setTx i v).grp j = d.grp j) ∧
    (∀ j, (d.setTx i v).latch j = d.latch j) ∧ (∀ j, (d.setTx i v).slack j = d.slack j) ∧
    (∀ j, (d.setTx i v).slackLow j = d.slackLow j) ∧ (∀ j, (d.setTx i v).fabV j = d.fabV j) ∧
    (∀ j, (d.setTx i v).lg j = d.lg j) ∧ (∀ j, (d.setTx i v).lane j = d.lane j) ∧
    (∀ j, (d.setTx i v).egress j = d.egress j) ∧ (∀ j, (d.setTx i v).wire j = d.wire j) ∧
    (∀ j, (d.setTx i v).hiCount j = d.hiCount j) ∧ (∀ j, (d.setTx i v).framed j = d.framed j) ∧
    (∀ j, (d.setTx i v).inPoly j = d.inPoly j) ∧ (∀ j, (d.setTx i v).egPoly j = d.egPoly j) ∧
    (∀ j, (d.setTx i v).eng j = d.eng j) ∧ (∀ j, (d.setTx i v).chan j = d.chan j) ∧
    (∀ j, (d.setTx i v).src j = d.src j) ∧ (∀ j, (d.setTx i v).tgt j = d.tgt j) ∧
    (∀ j, (d.setTx i v).dom j = d.dom j) ∧ (∀ j, (d.setTx i v).sensor j = d.sensor j) ∧
    (∀ j, (d.setTx i v).supply j = d.supply j) ∧ (∀ j, (d.setTx i v).auxMon j = d.auxMon j) ∧
    (∀ j, (d.setTx i v).member j = d.member j) ∧ (∀ j, (d.setTx i v).bcell j = d.bcell j) :=
  ⟨fun _ => rfl, fun _ => rfl, fun _ => rfl, fun _ => rfl, fun _ => rfl, fun _ => rfl, fun _ => rfl, fun _ => rfl,
   fun _ => rfl, fun _ => rfl, fun _ => rfl, fun _ => rfl, fun _ => rfl, fun _ => rfl, fun _ => rfl, fun _ => rfl,
   fun _ => rfl, fun _ => rfl, fun _ => rfl, fun _ => rfl, fun _ => rfl, fun _ => rfl, fun _ => rfl, fun _ => rfl,
   fun _ => rfl, fun _ => rfl, fun _ => rfl, fun _ => rfl, fun _ => rfl, fun _ => rfl, fun _ => rfl, fun _ => rfl,
   fun _ => rfl, fun _ => rfl⟩

@[simp] theorem Dev.setRx_rx (d : Dev) (i j : Nat) (v : RxCell) :
    (d.setRx i v).rx j = if j = i then v else d.rx j := Tbl.get_set _ _ _ _ _
@[simp] theorem Dev.setRx_frame (d : Dev) (i : Nat) (v : RxCell) :
    (d.setRx i v).now = d.now ∧ (d.setRx i v).fresh = d.fresh ∧ (d.setRx i v).boot = d.boot ∧
    (d.setRx i v).regs = d.regs ∧ (d.setRx i v).past = d.past ∧ (d.setRx i v).mem = d.mem ∧
    (d.setRx i v).bad = d.bad ∧ (d.setRx i v).cmd = d.cmd ∧ (d.setRx i v).tb = d.tb ∧ (d.setRx i v).blk = d.blk ∧
    (d.setRx i v).carr = d.carr ∧ (d.setRx i v).beam = d.beam ∧ (d.setRx i v).pp = d.pp ∧ (d.setRx i v).cal = d.cal ∧
    (d.setRx i v).link = d.link ∧ (d.setRx i v).ve = d.ve ∧ (d.setRx i v).fills = d.fills ∧
    (d.setRx i v).dma = d.dma ∧ (d.setRx i v).hub = d.hub ∧ (d.setRx i v).pwr = d.pwr ∧ (d.setRx i v).jtag = d.jtag ∧
    (d.setRx i v).lat = d.lat ∧ (∀ r, (d.setRx i v).reg r = d.reg r) ∧ (∀ r a b, (d.setRx i v).f r a b = d.f r a b) ∧
    (∀ r a, (d.setRx i v).fb r a = d.fb r a) ∧ (d.setRx i v).powered = d.powered :=
  ⟨rfl, rfl, rfl, rfl, rfl, rfl, rfl, rfl, rfl, rfl, rfl, rfl, rfl, rfl, rfl, rfl, rfl, rfl, rfl, rfl, rfl, rfl,
   fun _ => rfl, fun _ _ _ => rfl, fun _ _ => rfl, rfl⟩
@[simp] theorem Dev.setRx_units (d : Dev) (i : Nat) (v : RxCell) :
    (∀ j, (d.setRx i v).syn j = d.syn j) ∧ (∀ j, (d.setRx i v).res j = d.res j) ∧
    (∀ j, (d.setRx i v).tx j = d.tx j) ∧ (∀ j, (d.setRx i v).bursts j = d.bursts j) ∧
    (∀ j, (d.setRx i v).paPin j = d.paPin j) ∧ (∀ j, (d.setRx i v).divp j = d.divp j) ∧
    (∀ j, (d.setRx i v).block j = d.block j) ∧ (∀ j, (d.setRx i v).carrier j = d.carrier j) ∧
    (∀ j, (d.setRx i v).ctx j = d.ctx j) ∧ (∀ j, (d.setRx i v).path j = d.path j) ∧
    (∀ j, (d.setRx i v).calq j = d.calq j) ∧ (∀ j, (d.setRx i v).grp j = d.grp j) ∧
    (∀ j, (d.setRx i v).latch j = d.latch j) ∧ (∀ j, (d.setRx i v).slack j = d.slack j) ∧
    (∀ j, (d.setRx i v).slackLow j = d.slackLow j) ∧ (∀ j, (d.setRx i v).fabV j = d.fabV j) ∧
    (∀ j, (d.setRx i v).lg j = d.lg j) ∧ (∀ j, (d.setRx i v).lane j = d.lane j) ∧
    (∀ j, (d.setRx i v).egress j = d.egress j) ∧ (∀ j, (d.setRx i v).wire j = d.wire j) ∧
    (∀ j, (d.setRx i v).hiCount j = d.hiCount j) ∧ (∀ j, (d.setRx i v).framed j = d.framed j) ∧
    (∀ j, (d.setRx i v).inPoly j = d.inPoly j) ∧ (∀ j, (d.setRx i v).egPoly j = d.egPoly j) ∧
    (∀ j, (d.setRx i v).eng j = d.eng j) ∧ (∀ j, (d.setRx i v).chan j = d.chan j) ∧
    (∀ j, (d.setRx i v).src j = d.src j) ∧ (∀ j, (d.setRx i v).tgt j = d.tgt j) ∧
    (∀ j, (d.setRx i v).dom j = d.dom j) ∧ (∀ j, (d.setRx i v).sensor j = d.sensor j) ∧
    (∀ j, (d.setRx i v).supply j = d.supply j) ∧ (∀ j, (d.setRx i v).auxMon j = d.auxMon j) ∧
    (∀ j, (d.setRx i v).member j = d.member j) ∧ (∀ j, (d.setRx i v).bcell j = d.bcell j) :=
  ⟨fun _ => rfl, fun _ => rfl, fun _ => rfl, fun _ => rfl, fun _ => rfl, fun _ => rfl, fun _ => rfl, fun _ => rfl,
   fun _ => rfl, fun _ => rfl, fun _ => rfl, fun _ => rfl, fun _ => rfl, fun _ => rfl, fun _ => rfl, fun _ => rfl,
   fun _ => rfl, fun _ => rfl, fun _ => rfl, fun _ => rfl, fun _ => rfl, fun _ => rfl, fun _ => rfl, fun _ => rfl,
   fun _ => rfl, fun _ => rfl, fun _ => rfl, fun _ => rfl, fun _ => rfl, fun _ => rfl, fun _ => rfl, fun _ => rfl,
   fun _ => rfl, fun _ => rfl⟩

@[simp] theorem Dev.setBursts_bursts (d : Dev) (i j : Nat) (v : List Burst) :
    (d.setBursts i v).bursts j = if j = i then v else d.bursts j := Tbl.get_set _ _ _ _ _
@[simp] theorem Dev.setBursts_frame (d : Dev) (i : Nat) (v : List Burst) :
    (d.setBursts i v).now = d.now ∧ (d.setBursts i v).fresh = d.fresh ∧ (d.setBursts i v).boot = d.boot ∧
    (d.setBursts i v).regs = d.regs ∧ (d.setBursts i v).past = d.past ∧ (d.setBursts i v).mem = d.mem ∧
    (d.setBursts i v).bad = d.bad ∧ (d.setBursts i v).cmd = d.cmd ∧ (d.setBursts i v).tb = d.tb ∧
    (d.setBursts i v).blk = d.blk ∧ (d.setBursts i v).carr = d.carr ∧ (d.setBursts i v).beam = d.beam ∧
    (d.setBursts i v).pp = d.pp ∧ (d.setBursts i v).cal = d.cal ∧ (d.setBursts i v).link = d.link ∧
    (d.setBursts i v).ve = d.ve ∧ (d.setBursts i v).fills = d.fills ∧ (d.setBursts i v).dma = d.dma ∧
    (d.setBursts i v).hub = d.hub ∧ (d.setBursts i v).pwr = d.pwr ∧ (d.setBursts i v).jtag = d.jtag ∧
    (d.setBursts i v).lat = d.lat ∧ (∀ r, (d.setBursts i v).reg r = d.reg r) ∧
    (∀ r a b, (d.setBursts i v).f r a b = d.f r a b) ∧ (∀ r a, (d.setBursts i v).fb r a = d.fb r a) ∧
    (d.setBursts i v).powered = d.powered :=
  ⟨rfl, rfl, rfl, rfl, rfl, rfl, rfl, rfl, rfl, rfl, rfl, rfl, rfl, rfl, rfl, rfl, rfl, rfl, rfl, rfl, rfl, rfl,
   fun _ => rfl, fun _ _ _ => rfl, fun _ _ => rfl, rfl⟩
@[simp] theorem Dev.setBursts_units (d : Dev) (i : Nat) (v : List Burst) :
    (∀ j, (d.setBursts i v).syn j = d.syn j) ∧ (∀ j, (d.setBursts i v).res j = d.res j) ∧
    (∀ j, (d.setBursts i v).tx j = d.tx j) ∧ (∀ j, (d.setBursts i v).rx j = d.rx j) ∧
    (∀ j, (d.setBursts i v).paPin j = d.paPin j) ∧ (∀ j, (d.setBursts i v).divp j = d.divp j) ∧
    (∀ j, (d.setBursts i v).block j = d.block j) ∧ (∀ j, (d.setBursts i v).carrier j = d.carrier j) ∧
    (∀ j, (d.setBursts i v).ctx j = d.ctx j) ∧ (∀ j, (d.setBursts i v).path j = d.path j) ∧
    (∀ j, (d.setBursts i v).calq j = d.calq j) ∧ (∀ j, (d.setBursts i v).grp j = d.grp j) ∧
    (∀ j, (d.setBursts i v).latch j = d.latch j) ∧ (∀ j, (d.setBursts i v).slack j = d.slack j) ∧
    (∀ j, (d.setBursts i v).slackLow j = d.slackLow j) ∧ (∀ j, (d.setBursts i v).fabV j = d.fabV j) ∧
    (∀ j, (d.setBursts i v).lg j = d.lg j) ∧ (∀ j, (d.setBursts i v).lane j = d.lane j) ∧
    (∀ j, (d.setBursts i v).egress j = d.egress j) ∧ (∀ j, (d.setBursts i v).wire j = d.wire j) ∧
    (∀ j, (d.setBursts i v).hiCount j = d.hiCount j) ∧ (∀ j, (d.setBursts i v).framed j = d.framed j) ∧
    (∀ j, (d.setBursts i v).inPoly j = d.inPoly j) ∧ (∀ j, (d.setBursts i v).egPoly j = d.egPoly j) ∧
    (∀ j, (d.setBursts i v).eng j = d.eng j) ∧ (∀ j, (d.setBursts i v).chan j = d.chan j) ∧
    (∀ j, (d.setBursts i v).src j = d.src j) ∧ (∀ j, (d.setBursts i v).tgt j = d.tgt j) ∧
    (∀ j, (d.setBursts i v).dom j = d.dom j) ∧ (∀ j, (d.setBursts i v).sensor j = d.sensor j) ∧
    (∀ j, (d.setBursts i v).supply j = d.supply j) ∧ (∀ j, (d.setBursts i v).auxMon j = d.auxMon j) ∧
    (∀ j, (d.setBursts i v).member j = d.member j) ∧ (∀ j, (d.setBursts i v).bcell j = d.bcell j) :=
  ⟨fun _ => rfl, fun _ => rfl, fun _ => rfl, fun _ => rfl, fun _ => rfl, fun _ => rfl, fun _ => rfl, fun _ => rfl,
   fun _ => rfl, fun _ => rfl, fun _ => rfl, fun _ => rfl, fun _ => rfl, fun _ => rfl, fun _ => rfl, fun _ => rfl,
   fun _ => rfl, fun _ => rfl, fun _ => rfl, fun _ => rfl, fun _ => rfl, fun _ => rfl, fun _ => rfl, fun _ => rfl,
   fun _ => rfl, fun _ => rfl, fun _ => rfl, fun _ => rfl, fun _ => rfl, fun _ => rfl, fun _ => rfl, fun _ => rfl,
   fun _ => rfl, fun _ => rfl⟩

@[simp] theorem Dev.setPaPin_paPin (d : Dev) (i j : Nat) (v : Bool) :
    (d.setPaPin i v).paPin j = if j = i then v else d.paPin j := Tbl.get_set _ _ _ _ _
@[simp] theorem Dev.setPaPin_frame (d : Dev) (i : Nat) (v : Bool) :
    (d.setPaPin i v).now = d.now ∧ (d.setPaPin i v).fresh = d.fresh ∧ (d.setPaPin i v).boot = d.boot ∧
    (d.setPaPin i v).regs = d.regs ∧ (d.setPaPin i v).past = d.past ∧ (d.setPaPin i v).mem = d.mem ∧
    (d.setPaPin i v).bad = d.bad ∧ (d.setPaPin i v).cmd = d.cmd ∧ (d.setPaPin i v).tb = d.tb ∧
    (d.setPaPin i v).blk = d.blk ∧ (d.setPaPin i v).carr = d.carr ∧ (d.setPaPin i v).beam = d.beam ∧
    (d.setPaPin i v).pp = d.pp ∧ (d.setPaPin i v).cal = d.cal ∧ (d.setPaPin i v).link = d.link ∧
    (d.setPaPin i v).ve = d.ve ∧ (d.setPaPin i v).fills = d.fills ∧ (d.setPaPin i v).dma = d.dma ∧
    (d.setPaPin i v).hub = d.hub ∧ (d.setPaPin i v).pwr = d.pwr ∧ (d.setPaPin i v).jtag = d.jtag ∧
    (d.setPaPin i v).lat = d.lat ∧ (∀ r, (d.setPaPin i v).reg r = d.reg r) ∧
    (∀ r a b, (d.setPaPin i v).f r a b = d.f r a b) ∧ (∀ r a, (d.setPaPin i v).fb r a = d.fb r a) ∧
    (d.setPaPin i v).powered = d.powered :=
  ⟨rfl, rfl, rfl, rfl, rfl, rfl, rfl, rfl, rfl, rfl, rfl, rfl, rfl, rfl, rfl, rfl, rfl, rfl, rfl, rfl, rfl, rfl,
   fun _ => rfl, fun _ _ _ => rfl, fun _ _ => rfl, rfl⟩
@[simp] theorem Dev.setPaPin_units (d : Dev) (i : Nat) (v : Bool) :
    (∀ j, (d.setPaPin i v).syn j = d.syn j) ∧ (∀ j, (d.setPaPin i v).res j = d.res j) ∧
    (∀ j, (d.setPaPin i v).tx j = d.tx j) ∧ (∀ j, (d.setPaPin i v).rx j = d.rx j) ∧
    (∀ j, (d.setPaPin i v).bursts j = d.bursts j) ∧ (∀ j, (d.setPaPin i v).divp j = d.divp j) ∧
    (∀ j, (d.setPaPin i v).block j = d.block j) ∧ (∀ j, (d.setPaPin i v).carrier j = d.carrier j) ∧
    (∀ j, (d.setPaPin i v).ctx j = d.ctx j) ∧ (∀ j, (d.setPaPin i v).path j = d.path j) ∧
    (∀ j, (d.setPaPin i v).calq j = d.calq j) ∧ (∀ j, (d.setPaPin i v).grp j = d.grp j) ∧
    (∀ j, (d.setPaPin i v).latch j = d.latch j) ∧ (∀ j, (d.setPaPin i v).slack j = d.slack j) ∧
    (∀ j, (d.setPaPin i v).slackLow j = d.slackLow j) ∧ (∀ j, (d.setPaPin i v).fabV j = d.fabV j) ∧
    (∀ j, (d.setPaPin i v).lg j = d.lg j) ∧ (∀ j, (d.setPaPin i v).lane j = d.lane j) ∧
    (∀ j, (d.setPaPin i v).egress j = d.egress j) ∧ (∀ j, (d.setPaPin i v).wire j = d.wire j) ∧
    (∀ j, (d.setPaPin i v).hiCount j = d.hiCount j) ∧ (∀ j, (d.setPaPin i v).framed j = d.framed j) ∧
    (∀ j, (d.setPaPin i v).inPoly j = d.inPoly j) ∧ (∀ j, (d.setPaPin i v).egPoly j = d.egPoly j) ∧
    (∀ j, (d.setPaPin i v).eng j = d.eng j) ∧ (∀ j, (d.setPaPin i v).chan j = d.chan j) ∧
    (∀ j, (d.setPaPin i v).src j = d.src j) ∧ (∀ j, (d.setPaPin i v).tgt j = d.tgt j) ∧
    (∀ j, (d.setPaPin i v).dom j = d.dom j) ∧ (∀ j, (d.setPaPin i v).sensor j = d.sensor j) ∧
    (∀ j, (d.setPaPin i v).supply j = d.supply j) ∧ (∀ j, (d.setPaPin i v).auxMon j = d.auxMon j) ∧
    (∀ j, (d.setPaPin i v).member j = d.member j) ∧ (∀ j, (d.setPaPin i v).bcell j = d.bcell j) :=
  ⟨fun _ => rfl, fun _ => rfl, fun _ => rfl, fun _ => rfl, fun _ => rfl, fun _ => rfl, fun _ => rfl, fun _ => rfl,
   fun _ => rfl, fun _ => rfl, fun _ => rfl, fun _ => rfl, fun _ => rfl, fun _ => rfl, fun _ => rfl, fun _ => rfl,
   fun _ => rfl, fun _ => rfl, fun _ => rfl, fun _ => rfl, fun _ => rfl, fun _ => rfl, fun _ => rfl, fun _ => rfl,
   fun _ => rfl, fun _ => rfl, fun _ => rfl, fun _ => rfl, fun _ => rfl, fun _ => rfl, fun _ => rfl, fun _ => rfl,
   fun _ => rfl, fun _ => rfl⟩

@[simp] theorem Dev.setDivp_divp (d : Dev) (i j : Nat) (v : DivPair) :
    (d.setDivp i v).divp j = if j = i then v else d.divp j := Tbl.get_set _ _ _ _ _
@[simp] theorem Dev.setDivp_frame (d : Dev) (i : Nat) (v : DivPair) :
    (d.setDivp i v).now = d.now ∧ (d.setDivp i v).fresh = d.fresh ∧ (d.setDivp i v).boot = d.boot ∧
    (d.setDivp i v).regs = d.regs ∧ (d.setDivp i v).past = d.past ∧ (d.setDivp i v).mem = d.mem ∧
    (d.setDivp i v).bad = d.bad ∧ (d.setDivp i v).cmd = d.cmd ∧ (d.setDivp i v).tb = d.tb ∧
    (d.setDivp i v).blk = d.blk ∧ (d.setDivp i v).carr = d.carr ∧ (d.setDivp i v).beam = d.beam ∧
    (d.setDivp i v).pp = d.pp ∧ (d.setDivp i v).cal = d.cal ∧ (d.setDivp i v).link = d.link ∧
    (d.setDivp i v).ve = d.ve ∧ (d.setDivp i v).fills = d.fills ∧ (d.setDivp i v).dma = d.dma ∧
    (d.setDivp i v).hub = d.hub ∧ (d.setDivp i v).pwr = d.pwr ∧ (d.setDivp i v).jtag = d.jtag ∧
    (d.setDivp i v).lat = d.lat ∧ (∀ r, (d.setDivp i v).reg r = d.reg r) ∧
    (∀ r a b, (d.setDivp i v).f r a b = d.f r a b) ∧ (∀ r a, (d.setDivp i v).fb r a = d.fb r a) ∧
    (d.setDivp i v).powered = d.powered :=
  ⟨rfl, rfl, rfl, rfl, rfl, rfl, rfl, rfl, rfl, rfl, rfl, rfl, rfl, rfl, rfl, rfl, rfl, rfl, rfl, rfl, rfl, rfl,
   fun _ => rfl, fun _ _ _ => rfl, fun _ _ => rfl, rfl⟩
@[simp] theorem Dev.setDivp_units (d : Dev) (i : Nat) (v : DivPair) :
    (∀ j, (d.setDivp i v).syn j = d.syn j) ∧ (∀ j, (d.setDivp i v).res j = d.res j) ∧
    (∀ j, (d.setDivp i v).tx j = d.tx j) ∧ (∀ j, (d.setDivp i v).rx j = d.rx j) ∧
    (∀ j, (d.setDivp i v).bursts j = d.bursts j) ∧ (∀ j, (d.setDivp i v).paPin j = d.paPin j) ∧
    (∀ j, (d.setDivp i v).block j = d.block j) ∧ (∀ j, (d.setDivp i v).carrier j = d.carrier j) ∧
    (∀ j, (d.setDivp i v).ctx j = d.ctx j) ∧ (∀ j, (d.setDivp i v).path j = d.path j) ∧
    (∀ j, (d.setDivp i v).calq j = d.calq j) ∧ (∀ j, (d.setDivp i v).grp j = d.grp j) ∧
    (∀ j, (d.setDivp i v).latch j = d.latch j) ∧ (∀ j, (d.setDivp i v).slack j = d.slack j) ∧
    (∀ j, (d.setDivp i v).slackLow j = d.slackLow j) ∧ (∀ j, (d.setDivp i v).fabV j = d.fabV j) ∧
    (∀ j, (d.setDivp i v).lg j = d.lg j) ∧ (∀ j, (d.setDivp i v).lane j = d.lane j) ∧
    (∀ j, (d.setDivp i v).egress j = d.egress j) ∧ (∀ j, (d.setDivp i v).wire j = d.wire j) ∧
    (∀ j, (d.setDivp i v).hiCount j = d.hiCount j) ∧ (∀ j, (d.setDivp i v).framed j = d.framed j) ∧
    (∀ j, (d.setDivp i v).inPoly j = d.inPoly j) ∧ (∀ j, (d.setDivp i v).egPoly j = d.egPoly j) ∧
    (∀ j, (d.setDivp i v).eng j = d.eng j) ∧ (∀ j, (d.setDivp i v).chan j = d.chan j) ∧
    (∀ j, (d.setDivp i v).src j = d.src j) ∧ (∀ j, (d.setDivp i v).tgt j = d.tgt j) ∧
    (∀ j, (d.setDivp i v).dom j = d.dom j) ∧ (∀ j, (d.setDivp i v).sensor j = d.sensor j) ∧
    (∀ j, (d.setDivp i v).supply j = d.supply j) ∧ (∀ j, (d.setDivp i v).auxMon j = d.auxMon j) ∧
    (∀ j, (d.setDivp i v).member j = d.member j) ∧ (∀ j, (d.setDivp i v).bcell j = d.bcell j) :=
  ⟨fun _ => rfl, fun _ => rfl, fun _ => rfl, fun _ => rfl, fun _ => rfl, fun _ => rfl, fun _ => rfl, fun _ => rfl,
   fun _ => rfl, fun _ => rfl, fun _ => rfl, fun _ => rfl, fun _ => rfl, fun _ => rfl, fun _ => rfl, fun _ => rfl,
   fun _ => rfl, fun _ => rfl, fun _ => rfl, fun _ => rfl, fun _ => rfl, fun _ => rfl, fun _ => rfl, fun _ => rfl,
   fun _ => rfl, fun _ => rfl, fun _ => rfl, fun _ => rfl, fun _ => rfl, fun _ => rfl, fun _ => rfl, fun _ => rfl,
   fun _ => rfl, fun _ => rfl⟩

@[simp] theorem Dev.setBlock_block (d : Dev) (i j : Nat) (v : Blk) :
    (d.setBlock i v).block j = if j = i then v else d.block j := Tbl.get_set _ _ _ _ _
@[simp] theorem Dev.setBlock_frame (d : Dev) (i : Nat) (v : Blk) :
    (d.setBlock i v).now = d.now ∧ (d.setBlock i v).fresh = d.fresh ∧ (d.setBlock i v).boot = d.boot ∧
    (d.setBlock i v).regs = d.regs ∧ (d.setBlock i v).past = d.past ∧ (d.setBlock i v).mem = d.mem ∧
    (d.setBlock i v).bad = d.bad ∧ (d.setBlock i v).cmd = d.cmd ∧ (d.setBlock i v).tb = d.tb ∧
    (d.setBlock i v).rf = d.rf ∧ (d.setBlock i v).carr = d.carr ∧ (d.setBlock i v).beam = d.beam ∧
    (d.setBlock i v).pp = d.pp ∧ (d.setBlock i v).cal = d.cal ∧ (d.setBlock i v).link = d.link ∧
    (d.setBlock i v).ve = d.ve ∧ (d.setBlock i v).fills = d.fills ∧ (d.setBlock i v).dma = d.dma ∧
    (d.setBlock i v).hub = d.hub ∧ (d.setBlock i v).pwr = d.pwr ∧ (d.setBlock i v).jtag = d.jtag ∧
    (d.setBlock i v).lat = d.lat ∧ (∀ r, (d.setBlock i v).reg r = d.reg r) ∧
    (∀ r a b, (d.setBlock i v).f r a b = d.f r a b) ∧ (∀ r a, (d.setBlock i v).fb r a = d.fb r a) ∧
    (d.setBlock i v).powered = d.powered :=
  ⟨rfl, rfl, rfl, rfl, rfl, rfl, rfl, rfl, rfl, rfl, rfl, rfl, rfl, rfl, rfl, rfl, rfl, rfl, rfl, rfl, rfl, rfl,
   fun _ => rfl, fun _ _ _ => rfl, fun _ _ => rfl, rfl⟩
@[simp] theorem Dev.setBlock_units (d : Dev) (i : Nat) (v : Blk) :
    (∀ j, (d.setBlock i v).syn j = d.syn j) ∧ (∀ j, (d.setBlock i v).res j = d.res j) ∧
    (∀ j, (d.setBlock i v).tx j = d.tx j) ∧ (∀ j, (d.setBlock i v).rx j = d.rx j) ∧
    (∀ j, (d.setBlock i v).bursts j = d.bursts j) ∧ (∀ j, (d.setBlock i v).paPin j = d.paPin j) ∧
    (∀ j, (d.setBlock i v).divp j = d.divp j) ∧ (∀ j, (d.setBlock i v).carrier j = d.carrier j) ∧
    (∀ j, (d.setBlock i v).ctx j = d.ctx j) ∧ (∀ j, (d.setBlock i v).path j = d.path j) ∧
    (∀ j, (d.setBlock i v).calq j = d.calq j) ∧ (∀ j, (d.setBlock i v).grp j = d.grp j) ∧
    (∀ j, (d.setBlock i v).latch j = d.latch j) ∧ (∀ j, (d.setBlock i v).slack j = d.slack j) ∧
    (∀ j, (d.setBlock i v).slackLow j = d.slackLow j) ∧ (∀ j, (d.setBlock i v).fabV j = d.fabV j) ∧
    (∀ j, (d.setBlock i v).lg j = d.lg j) ∧ (∀ j, (d.setBlock i v).lane j = d.lane j) ∧
    (∀ j, (d.setBlock i v).egress j = d.egress j) ∧ (∀ j, (d.setBlock i v).wire j = d.wire j) ∧
    (∀ j, (d.setBlock i v).hiCount j = d.hiCount j) ∧ (∀ j, (d.setBlock i v).framed j = d.framed j) ∧
    (∀ j, (d.setBlock i v).inPoly j = d.inPoly j) ∧ (∀ j, (d.setBlock i v).egPoly j = d.egPoly j) ∧
    (∀ j, (d.setBlock i v).eng j = d.eng j) ∧ (∀ j, (d.setBlock i v).chan j = d.chan j) ∧
    (∀ j, (d.setBlock i v).src j = d.src j) ∧ (∀ j, (d.setBlock i v).tgt j = d.tgt j) ∧
    (∀ j, (d.setBlock i v).dom j = d.dom j) ∧ (∀ j, (d.setBlock i v).sensor j = d.sensor j) ∧
    (∀ j, (d.setBlock i v).supply j = d.supply j) ∧ (∀ j, (d.setBlock i v).auxMon j = d.auxMon j) ∧
    (∀ j, (d.setBlock i v).member j = d.member j) ∧ (∀ j, (d.setBlock i v).bcell j = d.bcell j) :=
  ⟨fun _ => rfl, fun _ => rfl, fun _ => rfl, fun _ => rfl, fun _ => rfl, fun _ => rfl, fun _ => rfl, fun _ => rfl,
   fun _ => rfl, fun _ => rfl, fun _ => rfl, fun _ => rfl, fun _ => rfl, fun _ => rfl, fun _ => rfl, fun _ => rfl,
   fun _ => rfl, fun _ => rfl, fun _ => rfl, fun _ => rfl, fun _ => rfl, fun _ => rfl, fun _ => rfl, fun _ => rfl,
   fun _ => rfl, fun _ => rfl, fun _ => rfl, fun _ => rfl, fun _ => rfl, fun _ => rfl, fun _ => rfl, fun _ => rfl,
   fun _ => rfl, fun _ => rfl⟩

@[simp] theorem Dev.setCarrier_carrier (d : Dev) (i j : Nat) (v : Carr) :
    (d.setCarrier i v).carrier j = if j = i then v else d.carrier j := Tbl.get_set _ _ _ _ _
@[simp] theorem Dev.setCarrier_frame (d : Dev) (i : Nat) (v : Carr) :
    (d.setCarrier i v).now = d.now ∧ (d.setCarrier i v).fresh = d.fresh ∧ (d.setCarrier i v).boot = d.boot ∧
    (d.setCarrier i v).regs = d.regs ∧ (d.setCarrier i v).past = d.past ∧ (d.setCarrier i v).mem = d.mem ∧
    (d.setCarrier i v).bad = d.bad ∧ (d.setCarrier i v).cmd = d.cmd ∧ (d.setCarrier i v).tb = d.tb ∧
    (d.setCarrier i v).rf = d.rf ∧ (d.setCarrier i v).blk = d.blk ∧ (d.setCarrier i v).beam = d.beam ∧
    (d.setCarrier i v).pp = d.pp ∧ (d.setCarrier i v).cal = d.cal ∧ (d.setCarrier i v).link = d.link ∧
    (d.setCarrier i v).ve = d.ve ∧ (d.setCarrier i v).fills = d.fills ∧ (d.setCarrier i v).dma = d.dma ∧
    (d.setCarrier i v).hub = d.hub ∧ (d.setCarrier i v).pwr = d.pwr ∧ (d.setCarrier i v).jtag = d.jtag ∧
    (d.setCarrier i v).lat = d.lat ∧ (∀ r, (d.setCarrier i v).reg r = d.reg r) ∧
    (∀ r a b, (d.setCarrier i v).f r a b = d.f r a b) ∧ (∀ r a, (d.setCarrier i v).fb r a = d.fb r a) ∧
    (d.setCarrier i v).powered = d.powered :=
  ⟨rfl, rfl, rfl, rfl, rfl, rfl, rfl, rfl, rfl, rfl, rfl, rfl, rfl, rfl, rfl, rfl, rfl, rfl, rfl, rfl, rfl, rfl,
   fun _ => rfl, fun _ _ _ => rfl, fun _ _ => rfl, rfl⟩
@[simp] theorem Dev.setCarrier_units (d : Dev) (i : Nat) (v : Carr) :
    (∀ j, (d.setCarrier i v).syn j = d.syn j) ∧ (∀ j, (d.setCarrier i v).res j = d.res j) ∧
    (∀ j, (d.setCarrier i v).tx j = d.tx j) ∧ (∀ j, (d.setCarrier i v).rx j = d.rx j) ∧
    (∀ j, (d.setCarrier i v).bursts j = d.bursts j) ∧ (∀ j, (d.setCarrier i v).paPin j = d.paPin j) ∧
    (∀ j, (d.setCarrier i v).divp j = d.divp j) ∧ (∀ j, (d.setCarrier i v).block j = d.block j) ∧
    (∀ j, (d.setCarrier i v).ctx j = d.ctx j) ∧ (∀ j, (d.setCarrier i v).path j = d.path j) ∧
    (∀ j, (d.setCarrier i v).calq j = d.calq j) ∧ (∀ j, (d.setCarrier i v).grp j = d.grp j) ∧
    (∀ j, (d.setCarrier i v).latch j = d.latch j) ∧ (∀ j, (d.setCarrier i v).slack j = d.slack j) ∧
    (∀ j, (d.setCarrier i v).slackLow j = d.slackLow j) ∧ (∀ j, (d.setCarrier i v).fabV j = d.fabV j) ∧
    (∀ j, (d.setCarrier i v).lg j = d.lg j) ∧ (∀ j, (d.setCarrier i v).lane j = d.lane j) ∧
    (∀ j, (d.setCarrier i v).egress j = d.egress j) ∧ (∀ j, (d.setCarrier i v).wire j = d.wire j) ∧
    (∀ j, (d.setCarrier i v).hiCount j = d.hiCount j) ∧ (∀ j, (d.setCarrier i v).framed j = d.framed j) ∧
    (∀ j, (d.setCarrier i v).inPoly j = d.inPoly j) ∧ (∀ j, (d.setCarrier i v).egPoly j = d.egPoly j) ∧
    (∀ j, (d.setCarrier i v).eng j = d.eng j) ∧ (∀ j, (d.setCarrier i v).chan j = d.chan j) ∧
    (∀ j, (d.setCarrier i v).src j = d.src j) ∧ (∀ j, (d.setCarrier i v).tgt j = d.tgt j) ∧
    (∀ j, (d.setCarrier i v).dom j = d.dom j) ∧ (∀ j, (d.setCarrier i v).sensor j = d.sensor j) ∧
    (∀ j, (d.setCarrier i v).supply j = d.supply j) ∧ (∀ j, (d.setCarrier i v).auxMon j = d.auxMon j) ∧
    (∀ j, (d.setCarrier i v).member j = d.member j) ∧ (∀ j, (d.setCarrier i v).bcell j = d.bcell j) :=
  ⟨fun _ => rfl, fun _ => rfl, fun _ => rfl, fun _ => rfl, fun _ => rfl, fun _ => rfl, fun _ => rfl, fun _ => rfl,
   fun _ => rfl, fun _ => rfl, fun _ => rfl, fun _ => rfl, fun _ => rfl, fun _ => rfl, fun _ => rfl, fun _ => rfl,
   fun _ => rfl, fun _ => rfl, fun _ => rfl, fun _ => rfl, fun _ => rfl, fun _ => rfl, fun _ => rfl, fun _ => rfl,
   fun _ => rfl, fun _ => rfl, fun _ => rfl, fun _ => rfl, fun _ => rfl, fun _ => rfl, fun _ => rfl, fun _ => rfl,
   fun _ => rfl, fun _ => rfl⟩

@[simp] theorem Dev.setCtx_ctx (d : Dev) (i j : Nat) (v : Ctx) :
    (d.setCtx i v).ctx j = if j = i then v else d.ctx j := Tbl.get_set _ _ _ _ _
@[simp] theorem Dev.setCtx_frame (d : Dev) (i : Nat) (v : Ctx) :
    (d.setCtx i v).now = d.now ∧ (d.setCtx i v).fresh = d.fresh ∧ (d.setCtx i v).boot = d.boot ∧
    (d.setCtx i v).regs = d.regs ∧ (d.setCtx i v).past = d.past ∧ (d.setCtx i v).mem = d.mem ∧
    (d.setCtx i v).bad = d.bad ∧ (d.setCtx i v).cmd = d.cmd ∧ (d.setCtx i v).tb = d.tb ∧ (d.setCtx i v).rf = d.rf ∧
    (d.setCtx i v).blk = d.blk ∧ (d.setCtx i v).carr = d.carr ∧ (d.setCtx i v).pp = d.pp ∧
    (d.setCtx i v).cal = d.cal ∧ (d.setCtx i v).link = d.link ∧ (d.setCtx i v).ve = d.ve ∧
    (d.setCtx i v).fills = d.fills ∧ (d.setCtx i v).dma = d.dma ∧ (d.setCtx i v).hub = d.hub ∧
    (d.setCtx i v).pwr = d.pwr ∧ (d.setCtx i v).jtag = d.jtag ∧ (d.setCtx i v).lat = d.lat ∧
    (∀ r, (d.setCtx i v).reg r = d.reg r) ∧ (∀ r a b, (d.setCtx i v).f r a b = d.f r a b) ∧
    (∀ r a, (d.setCtx i v).fb r a = d.fb r a) ∧ (d.setCtx i v).powered = d.powered :=
  ⟨rfl, rfl, rfl, rfl, rfl, rfl, rfl, rfl, rfl, rfl, rfl, rfl, rfl, rfl, rfl, rfl, rfl, rfl, rfl, rfl, rfl, rfl,
   fun _ => rfl, fun _ _ _ => rfl, fun _ _ => rfl, rfl⟩
@[simp] theorem Dev.setCtx_units (d : Dev) (i : Nat) (v : Ctx) :
    (∀ j, (d.setCtx i v).syn j = d.syn j) ∧ (∀ j, (d.setCtx i v).res j = d.res j) ∧
    (∀ j, (d.setCtx i v).tx j = d.tx j) ∧ (∀ j, (d.setCtx i v).rx j = d.rx j) ∧
    (∀ j, (d.setCtx i v).bursts j = d.bursts j) ∧ (∀ j, (d.setCtx i v).paPin j = d.paPin j) ∧
    (∀ j, (d.setCtx i v).divp j = d.divp j) ∧ (∀ j, (d.setCtx i v).block j = d.block j) ∧
    (∀ j, (d.setCtx i v).carrier j = d.carrier j) ∧ (∀ j, (d.setCtx i v).path j = d.path j) ∧
    (∀ j, (d.setCtx i v).calq j = d.calq j) ∧ (∀ j, (d.setCtx i v).grp j = d.grp j) ∧
    (∀ j, (d.setCtx i v).latch j = d.latch j) ∧ (∀ j, (d.setCtx i v).slack j = d.slack j) ∧
    (∀ j, (d.setCtx i v).slackLow j = d.slackLow j) ∧ (∀ j, (d.setCtx i v).fabV j = d.fabV j) ∧
    (∀ j, (d.setCtx i v).lg j = d.lg j) ∧ (∀ j, (d.setCtx i v).lane j = d.lane j) ∧
    (∀ j, (d.setCtx i v).egress j = d.egress j) ∧ (∀ j, (d.setCtx i v).wire j = d.wire j) ∧
    (∀ j, (d.setCtx i v).hiCount j = d.hiCount j) ∧ (∀ j, (d.setCtx i v).framed j = d.framed j) ∧
    (∀ j, (d.setCtx i v).inPoly j = d.inPoly j) ∧ (∀ j, (d.setCtx i v).egPoly j = d.egPoly j) ∧
    (∀ j, (d.setCtx i v).eng j = d.eng j) ∧ (∀ j, (d.setCtx i v).chan j = d.chan j) ∧
    (∀ j, (d.setCtx i v).src j = d.src j) ∧ (∀ j, (d.setCtx i v).tgt j = d.tgt j) ∧
    (∀ j, (d.setCtx i v).dom j = d.dom j) ∧ (∀ j, (d.setCtx i v).sensor j = d.sensor j) ∧
    (∀ j, (d.setCtx i v).supply j = d.supply j) ∧ (∀ j, (d.setCtx i v).auxMon j = d.auxMon j) ∧
    (∀ j, (d.setCtx i v).member j = d.member j) ∧ (∀ j, (d.setCtx i v).bcell j = d.bcell j) :=
  ⟨fun _ => rfl, fun _ => rfl, fun _ => rfl, fun _ => rfl, fun _ => rfl, fun _ => rfl, fun _ => rfl, fun _ => rfl,
   fun _ => rfl, fun _ => rfl, fun _ => rfl, fun _ => rfl, fun _ => rfl, fun _ => rfl, fun _ => rfl, fun _ => rfl,
   fun _ => rfl, fun _ => rfl, fun _ => rfl, fun _ => rfl, fun _ => rfl, fun _ => rfl, fun _ => rfl, fun _ => rfl,
   fun _ => rfl, fun _ => rfl, fun _ => rfl, fun _ => rfl, fun _ => rfl, fun _ => rfl, fun _ => rfl, fun _ => rfl,
   fun _ => rfl, fun _ => rfl⟩

@[simp] theorem Dev.setPath_path (d : Dev) (i j : Nat) (v : PathProc) :
    (d.setPath i v).path j = if j = i then v else d.path j := Tbl.get_set _ _ _ _ _
@[simp] theorem Dev.setPath_frame (d : Dev) (i : Nat) (v : PathProc) :
    (d.setPath i v).now = d.now ∧ (d.setPath i v).fresh = d.fresh ∧ (d.setPath i v).boot = d.boot ∧
    (d.setPath i v).regs = d.regs ∧ (d.setPath i v).past = d.past ∧ (d.setPath i v).mem = d.mem ∧
    (d.setPath i v).bad = d.bad ∧ (d.setPath i v).cmd = d.cmd ∧ (d.setPath i v).tb = d.tb ∧
    (d.setPath i v).rf = d.rf ∧ (d.setPath i v).blk = d.blk ∧ (d.setPath i v).carr = d.carr ∧
    (d.setPath i v).beam = d.beam ∧ (d.setPath i v).cal = d.cal ∧ (d.setPath i v).link = d.link ∧
    (d.setPath i v).ve = d.ve ∧ (d.setPath i v).fills = d.fills ∧ (d.setPath i v).dma = d.dma ∧
    (d.setPath i v).hub = d.hub ∧ (d.setPath i v).pwr = d.pwr ∧ (d.setPath i v).jtag = d.jtag ∧
    (d.setPath i v).lat = d.lat ∧ (∀ r, (d.setPath i v).reg r = d.reg r) ∧
    (∀ r a b, (d.setPath i v).f r a b = d.f r a b) ∧ (∀ r a, (d.setPath i v).fb r a = d.fb r a) ∧
    (d.setPath i v).powered = d.powered :=
  ⟨rfl, rfl, rfl, rfl, rfl, rfl, rfl, rfl, rfl, rfl, rfl, rfl, rfl, rfl, rfl, rfl, rfl, rfl, rfl, rfl, rfl, rfl,
   fun _ => rfl, fun _ _ _ => rfl, fun _ _ => rfl, rfl⟩
@[simp] theorem Dev.setPath_units (d : Dev) (i : Nat) (v : PathProc) :
    (∀ j, (d.setPath i v).syn j = d.syn j) ∧ (∀ j, (d.setPath i v).res j = d.res j) ∧
    (∀ j, (d.setPath i v).tx j = d.tx j) ∧ (∀ j, (d.setPath i v).rx j = d.rx j) ∧
    (∀ j, (d.setPath i v).bursts j = d.bursts j) ∧ (∀ j, (d.setPath i v).paPin j = d.paPin j) ∧
    (∀ j, (d.setPath i v).divp j = d.divp j) ∧ (∀ j, (d.setPath i v).block j = d.block j) ∧
    (∀ j, (d.setPath i v).carrier j = d.carrier j) ∧ (∀ j, (d.setPath i v).ctx j = d.ctx j) ∧
    (∀ j, (d.setPath i v).calq j = d.calq j) ∧ (∀ j, (d.setPath i v).grp j = d.grp j) ∧
    (∀ j, (d.setPath i v).latch j = d.latch j) ∧ (∀ j, (d.setPath i v).slack j = d.slack j) ∧
    (∀ j, (d.setPath i v).slackLow j = d.slackLow j) ∧ (∀ j, (d.setPath i v).fabV j = d.fabV j) ∧
    (∀ j, (d.setPath i v).lg j = d.lg j) ∧ (∀ j, (d.setPath i v).lane j = d.lane j) ∧
    (∀ j, (d.setPath i v).egress j = d.egress j) ∧ (∀ j, (d.setPath i v).wire j = d.wire j) ∧
    (∀ j, (d.setPath i v).hiCount j = d.hiCount j) ∧ (∀ j, (d.setPath i v).framed j = d.framed j) ∧
    (∀ j, (d.setPath i v).inPoly j = d.inPoly j) ∧ (∀ j, (d.setPath i v).egPoly j = d.egPoly j) ∧
    (∀ j, (d.setPath i v).eng j = d.eng j) ∧ (∀ j, (d.setPath i v).chan j = d.chan j) ∧
    (∀ j, (d.setPath i v).src j = d.src j) ∧ (∀ j, (d.setPath i v).tgt j = d.tgt j) ∧
    (∀ j, (d.setPath i v).dom j = d.dom j) ∧ (∀ j, (d.setPath i v).sensor j = d.sensor j) ∧
    (∀ j, (d.setPath i v).supply j = d.supply j) ∧ (∀ j, (d.setPath i v).auxMon j = d.auxMon j) ∧
    (∀ j, (d.setPath i v).member j = d.member j) ∧ (∀ j, (d.setPath i v).bcell j = d.bcell j) :=
  ⟨fun _ => rfl, fun _ => rfl, fun _ => rfl, fun _ => rfl, fun _ => rfl, fun _ => rfl, fun _ => rfl, fun _ => rfl,
   fun _ => rfl, fun _ => rfl, fun _ => rfl, fun _ => rfl, fun _ => rfl, fun _ => rfl, fun _ => rfl, fun _ => rfl,
   fun _ => rfl, fun _ => rfl, fun _ => rfl, fun _ => rfl, fun _ => rfl, fun _ => rfl, fun _ => rfl, fun _ => rfl,
   fun _ => rfl, fun _ => rfl, fun _ => rfl, fun _ => rfl, fun _ => rfl, fun _ => rfl, fun _ => rfl, fun _ => rfl,
   fun _ => rfl, fun _ => rfl⟩

@[simp] theorem Dev.setCalq_calq (d : Dev) (i j : Nat) (v : Cal) :
    (d.setCalq i v).calq j = if j = i then v else d.calq j := Tbl.get_set _ _ _ _ _
@[simp] theorem Dev.setCalq_frame (d : Dev) (i : Nat) (v : Cal) :
    (d.setCalq i v).now = d.now ∧ (d.setCalq i v).fresh = d.fresh ∧ (d.setCalq i v).boot = d.boot ∧
    (d.setCalq i v).regs = d.regs ∧ (d.setCalq i v).past = d.past ∧ (d.setCalq i v).mem = d.mem ∧
    (d.setCalq i v).bad = d.bad ∧ (d.setCalq i v).cmd = d.cmd ∧ (d.setCalq i v).tb = d.tb ∧
    (d.setCalq i v).rf = d.rf ∧ (d.setCalq i v).blk = d.blk ∧ (d.setCalq i v).carr = d.carr ∧
    (d.setCalq i v).beam = d.beam ∧ (d.setCalq i v).pp = d.pp ∧ (d.setCalq i v).link = d.link ∧
    (d.setCalq i v).ve = d.ve ∧ (d.setCalq i v).fills = d.fills ∧ (d.setCalq i v).dma = d.dma ∧
    (d.setCalq i v).hub = d.hub ∧ (d.setCalq i v).pwr = d.pwr ∧ (d.setCalq i v).jtag = d.jtag ∧
    (d.setCalq i v).lat = d.lat ∧ (∀ r, (d.setCalq i v).reg r = d.reg r) ∧
    (∀ r a b, (d.setCalq i v).f r a b = d.f r a b) ∧ (∀ r a, (d.setCalq i v).fb r a = d.fb r a) ∧
    (d.setCalq i v).powered = d.powered :=
  ⟨rfl, rfl, rfl, rfl, rfl, rfl, rfl, rfl, rfl, rfl, rfl, rfl, rfl, rfl, rfl, rfl, rfl, rfl, rfl, rfl, rfl, rfl,
   fun _ => rfl, fun _ _ _ => rfl, fun _ _ => rfl, rfl⟩
@[simp] theorem Dev.setCalq_units (d : Dev) (i : Nat) (v : Cal) :
    (∀ j, (d.setCalq i v).syn j = d.syn j) ∧ (∀ j, (d.setCalq i v).res j = d.res j) ∧
    (∀ j, (d.setCalq i v).tx j = d.tx j) ∧ (∀ j, (d.setCalq i v).rx j = d.rx j) ∧
    (∀ j, (d.setCalq i v).bursts j = d.bursts j) ∧ (∀ j, (d.setCalq i v).paPin j = d.paPin j) ∧
    (∀ j, (d.setCalq i v).divp j = d.divp j) ∧ (∀ j, (d.setCalq i v).block j = d.block j) ∧
    (∀ j, (d.setCalq i v).carrier j = d.carrier j) ∧ (∀ j, (d.setCalq i v).ctx j = d.ctx j) ∧
    (∀ j, (d.setCalq i v).path j = d.path j) ∧ (∀ j, (d.setCalq i v).grp j = d.grp j) ∧
    (∀ j, (d.setCalq i v).latch j = d.latch j) ∧ (∀ j, (d.setCalq i v).slack j = d.slack j) ∧
    (∀ j, (d.setCalq i v).slackLow j = d.slackLow j) ∧ (∀ j, (d.setCalq i v).fabV j = d.fabV j) ∧
    (∀ j, (d.setCalq i v).lg j = d.lg j) ∧ (∀ j, (d.setCalq i v).lane j = d.lane j) ∧
    (∀ j, (d.setCalq i v).egress j = d.egress j) ∧ (∀ j, (d.setCalq i v).wire j = d.wire j) ∧
    (∀ j, (d.setCalq i v).hiCount j = d.hiCount j) ∧ (∀ j, (d.setCalq i v).framed j = d.framed j) ∧
    (∀ j, (d.setCalq i v).inPoly j = d.inPoly j) ∧ (∀ j, (d.setCalq i v).egPoly j = d.egPoly j) ∧
    (∀ j, (d.setCalq i v).eng j = d.eng j) ∧ (∀ j, (d.setCalq i v).chan j = d.chan j) ∧
    (∀ j, (d.setCalq i v).src j = d.src j) ∧ (∀ j, (d.setCalq i v).tgt j = d.tgt j) ∧
    (∀ j, (d.setCalq i v).dom j = d.dom j) ∧ (∀ j, (d.setCalq i v).sensor j = d.sensor j) ∧
    (∀ j, (d.setCalq i v).supply j = d.supply j) ∧ (∀ j, (d.setCalq i v).auxMon j = d.auxMon j) ∧
    (∀ j, (d.setCalq i v).member j = d.member j) ∧ (∀ j, (d.setCalq i v).bcell j = d.bcell j) :=
  ⟨fun _ => rfl, fun _ => rfl, fun _ => rfl, fun _ => rfl, fun _ => rfl, fun _ => rfl, fun _ => rfl, fun _ => rfl,
   fun _ => rfl, fun _ => rfl, fun _ => rfl, fun _ => rfl, fun _ => rfl, fun _ => rfl, fun _ => rfl, fun _ => rfl,
   fun _ => rfl, fun _ => rfl, fun _ => rfl, fun _ => rfl, fun _ => rfl, fun _ => rfl, fun _ => rfl, fun _ => rfl,
   fun _ => rfl, fun _ => rfl, fun _ => rfl, fun _ => rfl, fun _ => rfl, fun _ => rfl, fun _ => rfl, fun _ => rfl,
   fun _ => rfl, fun _ => rfl⟩

@[simp] theorem Dev.setGrp_grp (d : Dev) (i j : Nat) (v : Grp) :
    (d.setGrp i v).grp j = if j = i then v else d.grp j := Tbl.get_set _ _ _ _ _
@[simp] theorem Dev.setGrp_frame (d : Dev) (i : Nat) (v : Grp) :
    (d.setGrp i v).now = d.now ∧ (d.setGrp i v).fresh = d.fresh ∧ (d.setGrp i v).boot = d.boot ∧
    (d.setGrp i v).regs = d.regs ∧ (d.setGrp i v).past = d.past ∧ (d.setGrp i v).mem = d.mem ∧
    (d.setGrp i v).bad = d.bad ∧ (d.setGrp i v).tb = d.tb ∧ (d.setGrp i v).rf = d.rf ∧ (d.setGrp i v).blk = d.blk ∧
    (d.setGrp i v).carr = d.carr ∧ (d.setGrp i v).beam = d.beam ∧ (d.setGrp i v).pp = d.pp ∧
    (d.setGrp i v).cal = d.cal ∧ (d.setGrp i v).link = d.link ∧ (d.setGrp i v).ve = d.ve ∧
    (d.setGrp i v).fills = d.fills ∧ (d.setGrp i v).dma = d.dma ∧ (d.setGrp i v).hub = d.hub ∧
    (d.setGrp i v).pwr = d.pwr ∧ (d.setGrp i v).jtag = d.jtag ∧ (d.setGrp i v).lat = d.lat ∧
    (∀ r, (d.setGrp i v).reg r = d.reg r) ∧ (∀ r a b, (d.setGrp i v).f r a b = d.f r a b) ∧
    (∀ r a, (d.setGrp i v).fb r a = d.fb r a) ∧ (d.setGrp i v).powered = d.powered :=
  ⟨rfl, rfl, rfl, rfl, rfl, rfl, rfl, rfl, rfl, rfl, rfl, rfl, rfl, rfl, rfl, rfl, rfl, rfl, rfl, rfl, rfl, rfl,
   fun _ => rfl, fun _ _ _ => rfl, fun _ _ => rfl, rfl⟩
@[simp] theorem Dev.setGrp_units (d : Dev) (i : Nat) (v : Grp) :
    (∀ j, (d.setGrp i v).syn j = d.syn j) ∧ (∀ j, (d.setGrp i v).res j = d.res j) ∧
    (∀ j, (d.setGrp i v).tx j = d.tx j) ∧ (∀ j, (d.setGrp i v).rx j = d.rx j) ∧
    (∀ j, (d.setGrp i v).bursts j = d.bursts j) ∧ (∀ j, (d.setGrp i v).paPin j = d.paPin j) ∧
    (∀ j, (d.setGrp i v).divp j = d.divp j) ∧ (∀ j, (d.setGrp i v).block j = d.block j) ∧
    (∀ j, (d.setGrp i v).carrier j = d.carrier j) ∧ (∀ j, (d.setGrp i v).ctx j = d.ctx j) ∧
    (∀ j, (d.setGrp i v).path j = d.path j) ∧ (∀ j, (d.setGrp i v).calq j = d.calq j) ∧
    (∀ j, (d.setGrp i v).latch j = d.latch j) ∧ (∀ j, (d.setGrp i v).slack j = d.slack j) ∧
    (∀ j, (d.setGrp i v).slackLow j = d.slackLow j) ∧ (∀ j, (d.setGrp i v).fabV j = d.fabV j) ∧
    (∀ j, (d.setGrp i v).lg j = d.lg j) ∧ (∀ j, (d.setGrp i v).lane j = d.lane j) ∧
    (∀ j, (d.setGrp i v).egress j = d.egress j) ∧ (∀ j, (d.setGrp i v).wire j = d.wire j) ∧
    (∀ j, (d.setGrp i v).hiCount j = d.hiCount j) ∧ (∀ j, (d.setGrp i v).framed j = d.framed j) ∧
    (∀ j, (d.setGrp i v).inPoly j = d.inPoly j) ∧ (∀ j, (d.setGrp i v).egPoly j = d.egPoly j) ∧
    (∀ j, (d.setGrp i v).eng j = d.eng j) ∧ (∀ j, (d.setGrp i v).chan j = d.chan j) ∧
    (∀ j, (d.setGrp i v).src j = d.src j) ∧ (∀ j, (d.setGrp i v).tgt j = d.tgt j) ∧
    (∀ j, (d.setGrp i v).dom j = d.dom j) ∧ (∀ j, (d.setGrp i v).sensor j = d.sensor j) ∧
    (∀ j, (d.setGrp i v).supply j = d.supply j) ∧ (∀ j, (d.setGrp i v).auxMon j = d.auxMon j) ∧
    (∀ j, (d.setGrp i v).member j = d.member j) ∧ (∀ j, (d.setGrp i v).bcell j = d.bcell j) :=
  ⟨fun _ => rfl, fun _ => rfl, fun _ => rfl, fun _ => rfl, fun _ => rfl, fun _ => rfl, fun _ => rfl, fun _ => rfl,
   fun _ => rfl, fun _ => rfl, fun _ => rfl, fun _ => rfl, fun _ => rfl, fun _ => rfl, fun _ => rfl, fun _ => rfl,
   fun _ => rfl, fun _ => rfl, fun _ => rfl, fun _ => rfl, fun _ => rfl, fun _ => rfl, fun _ => rfl, fun _ => rfl,
   fun _ => rfl, fun _ => rfl, fun _ => rfl, fun _ => rfl, fun _ => rfl, fun _ => rfl, fun _ => rfl, fun _ => rfl,
   fun _ => rfl, fun _ => rfl⟩

@[simp] theorem Dev.setLatch_latch (d : Dev) (i j : Nat) (v : Nat) :
    (d.setLatch i v).latch j = if j = i then v else d.latch j := Tbl.get_set _ _ _ _ _
@[simp] theorem Dev.setLatch_frame (d : Dev) (i : Nat) (v : Nat) :
    (d.setLatch i v).now = d.now ∧ (d.setLatch i v).fresh = d.fresh ∧ (d.setLatch i v).boot = d.boot ∧
    (d.setLatch i v).regs = d.regs ∧ (d.setLatch i v).past = d.past ∧ (d.setLatch i v).mem = d.mem ∧
    (d.setLatch i v).bad = d.bad ∧ (d.setLatch i v).cmd = d.cmd ∧ (d.setLatch i v).rf = d.rf ∧
    (d.setLatch i v).blk = d.blk ∧ (d.setLatch i v).carr = d.carr ∧ (d.setLatch i v).beam = d.beam ∧
    (d.setLatch i v).pp = d.pp ∧ (d.setLatch i v).cal = d.cal ∧ (d.setLatch i v).link = d.link ∧
    (d.setLatch i v).ve = d.ve ∧ (d.setLatch i v).fills = d.fills ∧ (d.setLatch i v).dma = d.dma ∧
    (d.setLatch i v).hub = d.hub ∧ (d.setLatch i v).pwr = d.pwr ∧ (d.setLatch i v).jtag = d.jtag ∧
    (d.setLatch i v).lat = d.lat ∧ (∀ r, (d.setLatch i v).reg r = d.reg r) ∧
    (∀ r a b, (d.setLatch i v).f r a b = d.f r a b) ∧ (∀ r a, (d.setLatch i v).fb r a = d.fb r a) ∧
    (d.setLatch i v).powered = d.powered :=
  ⟨rfl, rfl, rfl, rfl, rfl, rfl, rfl, rfl, rfl, rfl, rfl, rfl, rfl, rfl, rfl, rfl, rfl, rfl, rfl, rfl, rfl, rfl,
   fun _ => rfl, fun _ _ _ => rfl, fun _ _ => rfl, rfl⟩
@[simp] theorem Dev.setLatch_units (d : Dev) (i : Nat) (v : Nat) :
    (∀ j, (d.setLatch i v).syn j = d.syn j) ∧ (∀ j, (d.setLatch i v).res j = d.res j) ∧
    (∀ j, (d.setLatch i v).tx j = d.tx j) ∧ (∀ j, (d.setLatch i v).rx j = d.rx j) ∧
    (∀ j, (d.setLatch i v).bursts j = d.bursts j) ∧ (∀ j, (d.setLatch i v).paPin j = d.paPin j) ∧
    (∀ j, (d.setLatch i v).divp j = d.divp j) ∧ (∀ j, (d.setLatch i v).block j = d.block j) ∧
    (∀ j, (d.setLatch i v).carrier j = d.carrier j) ∧ (∀ j, (d.setLatch i v).ctx j = d.ctx j) ∧
    (∀ j, (d.setLatch i v).path j = d.path j) ∧ (∀ j, (d.setLatch i v).calq j = d.calq j) ∧
    (∀ j, (d.setLatch i v).grp j = d.grp j) ∧ (∀ j, (d.setLatch i v).slack j = d.slack j) ∧
    (∀ j, (d.setLatch i v).slackLow j = d.slackLow j) ∧ (∀ j, (d.setLatch i v).fabV j = d.fabV j) ∧
    (∀ j, (d.setLatch i v).lg j = d.lg j) ∧ (∀ j, (d.setLatch i v).lane j = d.lane j) ∧
    (∀ j, (d.setLatch i v).egress j = d.egress j) ∧ (∀ j, (d.setLatch i v).wire j = d.wire j) ∧
    (∀ j, (d.setLatch i v).hiCount j = d.hiCount j) ∧ (∀ j, (d.setLatch i v).framed j = d.framed j) ∧
    (∀ j, (d.setLatch i v).inPoly j = d.inPoly j) ∧ (∀ j, (d.setLatch i v).egPoly j = d.egPoly j) ∧
    (∀ j, (d.setLatch i v).eng j = d.eng j) ∧ (∀ j, (d.setLatch i v).chan j = d.chan j) ∧
    (∀ j, (d.setLatch i v).src j = d.src j) ∧ (∀ j, (d.setLatch i v).tgt j = d.tgt j) ∧
    (∀ j, (d.setLatch i v).dom j = d.dom j) ∧ (∀ j, (d.setLatch i v).sensor j = d.sensor j) ∧
    (∀ j, (d.setLatch i v).supply j = d.supply j) ∧ (∀ j, (d.setLatch i v).auxMon j = d.auxMon j) ∧
    (∀ j, (d.setLatch i v).member j = d.member j) ∧ (∀ j, (d.setLatch i v).bcell j = d.bcell j) :=
  ⟨fun _ => rfl, fun _ => rfl, fun _ => rfl, fun _ => rfl, fun _ => rfl, fun _ => rfl, fun _ => rfl, fun _ => rfl,
   fun _ => rfl, fun _ => rfl, fun _ => rfl, fun _ => rfl, fun _ => rfl, fun _ => rfl, fun _ => rfl, fun _ => rfl,
   fun _ => rfl, fun _ => rfl, fun _ => rfl, fun _ => rfl, fun _ => rfl, fun _ => rfl, fun _ => rfl, fun _ => rfl,
   fun _ => rfl, fun _ => rfl, fun _ => rfl, fun _ => rfl, fun _ => rfl, fun _ => rfl, fun _ => rfl, fun _ => rfl,
   fun _ => rfl, fun _ => rfl⟩

@[simp] theorem Dev.setSlack_slack (d : Dev) (i j : Nat) (v : Nat) :
    (d.setSlack i v).slack j = if j = i then v else d.slack j := Tbl.get_set _ _ _ _ _
@[simp] theorem Dev.setSlack_frame (d : Dev) (i : Nat) (v : Nat) :
    (d.setSlack i v).now = d.now ∧ (d.setSlack i v).fresh = d.fresh ∧ (d.setSlack i v).boot = d.boot ∧
    (d.setSlack i v).regs = d.regs ∧ (d.setSlack i v).past = d.past ∧ (d.setSlack i v).mem = d.mem ∧
    (d.setSlack i v).bad = d.bad ∧ (d.setSlack i v).cmd = d.cmd ∧ (d.setSlack i v).rf = d.rf ∧
    (d.setSlack i v).blk = d.blk ∧ (d.setSlack i v).carr = d.carr ∧ (d.setSlack i v).beam = d.beam ∧
    (d.setSlack i v).pp = d.pp ∧ (d.setSlack i v).cal = d.cal ∧ (d.setSlack i v).link = d.link ∧
    (d.setSlack i v).ve = d.ve ∧ (d.setSlack i v).fills = d.fills ∧ (d.setSlack i v).dma = d.dma ∧
    (d.setSlack i v).hub = d.hub ∧ (d.setSlack i v).pwr = d.pwr ∧ (d.setSlack i v).jtag = d.jtag ∧
    (d.setSlack i v).lat = d.lat ∧ (∀ r, (d.setSlack i v).reg r = d.reg r) ∧
    (∀ r a b, (d.setSlack i v).f r a b = d.f r a b) ∧ (∀ r a, (d.setSlack i v).fb r a = d.fb r a) ∧
    (d.setSlack i v).powered = d.powered :=
  ⟨rfl, rfl, rfl, rfl, rfl, rfl, rfl, rfl, rfl, rfl, rfl, rfl, rfl, rfl, rfl, rfl, rfl, rfl, rfl, rfl, rfl, rfl,
   fun _ => rfl, fun _ _ _ => rfl, fun _ _ => rfl, rfl⟩
@[simp] theorem Dev.setSlack_units (d : Dev) (i : Nat) (v : Nat) :
    (∀ j, (d.setSlack i v).syn j = d.syn j) ∧ (∀ j, (d.setSlack i v).res j = d.res j) ∧
    (∀ j, (d.setSlack i v).tx j = d.tx j) ∧ (∀ j, (d.setSlack i v).rx j = d.rx j) ∧
    (∀ j, (d.setSlack i v).bursts j = d.bursts j) ∧ (∀ j, (d.setSlack i v).paPin j = d.paPin j) ∧
    (∀ j, (d.setSlack i v).divp j = d.divp j) ∧ (∀ j, (d.setSlack i v).block j = d.block j) ∧
    (∀ j, (d.setSlack i v).carrier j = d.carrier j) ∧ (∀ j, (d.setSlack i v).ctx j = d.ctx j) ∧
    (∀ j, (d.setSlack i v).path j = d.path j) ∧ (∀ j, (d.setSlack i v).calq j = d.calq j) ∧
    (∀ j, (d.setSlack i v).grp j = d.grp j) ∧ (∀ j, (d.setSlack i v).latch j = d.latch j) ∧
    (∀ j, (d.setSlack i v).slackLow j = d.slackLow j) ∧ (∀ j, (d.setSlack i v).fabV j = d.fabV j) ∧
    (∀ j, (d.setSlack i v).lg j = d.lg j) ∧ (∀ j, (d.setSlack i v).lane j = d.lane j) ∧
    (∀ j, (d.setSlack i v).egress j = d.egress j) ∧ (∀ j, (d.setSlack i v).wire j = d.wire j) ∧
    (∀ j, (d.setSlack i v).hiCount j = d.hiCount j) ∧ (∀ j, (d.setSlack i v).framed j = d.framed j) ∧
    (∀ j, (d.setSlack i v).inPoly j = d.inPoly j) ∧ (∀ j, (d.setSlack i v).egPoly j = d.egPoly j) ∧
    (∀ j, (d.setSlack i v).eng j = d.eng j) ∧ (∀ j, (d.setSlack i v).chan j = d.chan j) ∧
    (∀ j, (d.setSlack i v).src j = d.src j) ∧ (∀ j, (d.setSlack i v).tgt j = d.tgt j) ∧
    (∀ j, (d.setSlack i v).dom j = d.dom j) ∧ (∀ j, (d.setSlack i v).sensor j = d.sensor j) ∧
    (∀ j, (d.setSlack i v).supply j = d.supply j) ∧ (∀ j, (d.setSlack i v).auxMon j = d.auxMon j) ∧
    (∀ j, (d.setSlack i v).member j = d.member j) ∧ (∀ j, (d.setSlack i v).bcell j = d.bcell j) :=
  ⟨fun _ => rfl, fun _ => rfl, fun _ => rfl, fun _ => rfl, fun _ => rfl, fun _ => rfl, fun _ => rfl, fun _ => rfl,
   fun _ => rfl, fun _ => rfl, fun _ => rfl, fun _ => rfl, fun _ => rfl, fun _ => rfl, fun _ => rfl, fun _ => rfl,
   fun _ => rfl, fun _ => rfl, fun _ => rfl, fun _ => rfl, fun _ => rfl, fun _ => rfl, fun _ => rfl, fun _ => rfl,
   fun _ => rfl, fun _ => rfl, fun _ => rfl, fun _ => rfl, fun _ => rfl, fun _ => rfl, fun _ => rfl, fun _ => rfl,
   fun _ => rfl, fun _ => rfl⟩

@[simp] theorem Dev.setSlackLow_slackLow (d : Dev) (i j : Nat) (v : Bool) :
    (d.setSlackLow i v).slackLow j = if j = i then v else d.slackLow j := Tbl.get_set _ _ _ _ _
@[simp] theorem Dev.setSlackLow_frame (d : Dev) (i : Nat) (v : Bool) :
    (d.setSlackLow i v).now = d.now ∧ (d.setSlackLow i v).fresh = d.fresh ∧ (d.setSlackLow i v).boot = d.boot ∧
    (d.setSlackLow i v).regs = d.regs ∧ (d.setSlackLow i v).past = d.past ∧ (d.setSlackLow i v).mem = d.mem ∧
    (d.setSlackLow i v).bad = d.bad ∧ (d.setSlackLow i v).cmd = d.cmd ∧ (d.setSlackLow i v).rf = d.rf ∧
    (d.setSlackLow i v).blk = d.blk ∧ (d.setSlackLow i v).carr = d.carr ∧ (d.setSlackLow i v).beam = d.beam ∧
    (d.setSlackLow i v).pp = d.pp ∧ (d.setSlackLow i v).cal = d.cal ∧ (d.setSlackLow i v).link = d.link ∧
    (d.setSlackLow i v).ve = d.ve ∧ (d.setSlackLow i v).fills = d.fills ∧ (d.setSlackLow i v).dma = d.dma ∧
    (d.setSlackLow i v).hub = d.hub ∧ (d.setSlackLow i v).pwr = d.pwr ∧ (d.setSlackLow i v).jtag = d.jtag ∧
    (d.setSlackLow i v).lat = d.lat ∧ (∀ r, (d.setSlackLow i v).reg r = d.reg r) ∧
    (∀ r a b, (d.setSlackLow i v).f r a b = d.f r a b) ∧ (∀ r a, (d.setSlackLow i v).fb r a = d.fb r a) ∧
    (d.setSlackLow i v).powered = d.powered :=
  ⟨rfl, rfl, rfl, rfl, rfl, rfl, rfl, rfl, rfl, rfl, rfl, rfl, rfl, rfl, rfl, rfl, rfl, rfl, rfl, rfl, rfl, rfl,
   fun _ => rfl, fun _ _ _ => rfl, fun _ _ => rfl, rfl⟩
@[simp] theorem Dev.setSlackLow_units (d : Dev) (i : Nat) (v : Bool) :
    (∀ j, (d.setSlackLow i v).syn j = d.syn j) ∧ (∀ j, (d.setSlackLow i v).res j = d.res j) ∧
    (∀ j, (d.setSlackLow i v).tx j = d.tx j) ∧ (∀ j, (d.setSlackLow i v).rx j = d.rx j) ∧
    (∀ j, (d.setSlackLow i v).bursts j = d.bursts j) ∧ (∀ j, (d.setSlackLow i v).paPin j = d.paPin j) ∧
    (∀ j, (d.setSlackLow i v).divp j = d.divp j) ∧ (∀ j, (d.setSlackLow i v).block j = d.block j) ∧
    (∀ j, (d.setSlackLow i v).carrier j = d.carrier j) ∧ (∀ j, (d.setSlackLow i v).ctx j = d.ctx j) ∧
    (∀ j, (d.setSlackLow i v).path j = d.path j) ∧ (∀ j, (d.setSlackLow i v).calq j = d.calq j) ∧
    (∀ j, (d.setSlackLow i v).grp j = d.grp j) ∧ (∀ j, (d.setSlackLow i v).latch j = d.latch j) ∧
    (∀ j, (d.setSlackLow i v).slack j = d.slack j) ∧ (∀ j, (d.setSlackLow i v).fabV j = d.fabV j) ∧
    (∀ j, (d.setSlackLow i v).lg j = d.lg j) ∧ (∀ j, (d.setSlackLow i v).lane j = d.lane j) ∧
    (∀ j, (d.setSlackLow i v).egress j = d.egress j) ∧ (∀ j, (d.setSlackLow i v).wire j = d.wire j) ∧
    (∀ j, (d.setSlackLow i v).hiCount j = d.hiCount j) ∧ (∀ j, (d.setSlackLow i v).framed j = d.framed j) ∧
    (∀ j, (d.setSlackLow i v).inPoly j = d.inPoly j) ∧ (∀ j, (d.setSlackLow i v).egPoly j = d.egPoly j) ∧
    (∀ j, (d.setSlackLow i v).eng j = d.eng j) ∧ (∀ j, (d.setSlackLow i v).chan j = d.chan j) ∧
    (∀ j, (d.setSlackLow i v).src j = d.src j) ∧ (∀ j, (d.setSlackLow i v).tgt j = d.tgt j) ∧
    (∀ j, (d.setSlackLow i v).dom j = d.dom j) ∧ (∀ j, (d.setSlackLow i v).sensor j = d.sensor j) ∧
    (∀ j, (d.setSlackLow i v).supply j = d.supply j) ∧ (∀ j, (d.setSlackLow i v).auxMon j = d.auxMon j) ∧
    (∀ j, (d.setSlackLow i v).member j = d.member j) ∧ (∀ j, (d.setSlackLow i v).bcell j = d.bcell j) :=
  ⟨fun _ => rfl, fun _ => rfl, fun _ => rfl, fun _ => rfl, fun _ => rfl, fun _ => rfl, fun _ => rfl, fun _ => rfl,
   fun _ => rfl, fun _ => rfl, fun _ => rfl, fun _ => rfl, fun _ => rfl, fun _ => rfl, fun _ => rfl, fun _ => rfl,
   fun _ => rfl, fun _ => rfl, fun _ => rfl, fun _ => rfl, fun _ => rfl, fun _ => rfl, fun _ => rfl, fun _ => rfl,
   fun _ => rfl, fun _ => rfl, fun _ => rfl, fun _ => rfl, fun _ => rfl, fun _ => rfl, fun _ => rfl, fun _ => rfl,
   fun _ => rfl, fun _ => rfl⟩

@[simp] theorem Dev.setFabV_fabV (d : Dev) (i j : Nat) (v : Nat) :
    (d.setFabV i v).fabV j = if j = i then v else d.fabV j := Tbl.get_set _ _ _ _ _
@[simp] theorem Dev.setFabV_frame (d : Dev) (i : Nat) (v : Nat) :
    (d.setFabV i v).now = d.now ∧ (d.setFabV i v).fresh = d.fresh ∧ (d.setFabV i v).boot = d.boot ∧
    (d.setFabV i v).regs = d.regs ∧ (d.setFabV i v).past = d.past ∧ (d.setFabV i v).mem = d.mem ∧
    (d.setFabV i v).bad = d.bad ∧ (d.setFabV i v).cmd = d.cmd ∧ (d.setFabV i v).rf = d.rf ∧
    (d.setFabV i v).blk = d.blk ∧ (d.setFabV i v).carr = d.carr ∧ (d.setFabV i v).beam = d.beam ∧
    (d.setFabV i v).pp = d.pp ∧ (d.setFabV i v).cal = d.cal ∧ (d.setFabV i v).link = d.link ∧
    (d.setFabV i v).ve = d.ve ∧ (d.setFabV i v).fills = d.fills ∧ (d.setFabV i v).dma = d.dma ∧
    (d.setFabV i v).hub = d.hub ∧ (d.setFabV i v).pwr = d.pwr ∧ (d.setFabV i v).jtag = d.jtag ∧
    (d.setFabV i v).lat = d.lat ∧ (∀ r, (d.setFabV i v).reg r = d.reg r) ∧
    (∀ r a b, (d.setFabV i v).f r a b = d.f r a b) ∧ (∀ r a, (d.setFabV i v).fb r a = d.fb r a) ∧
    (d.setFabV i v).powered = d.powered :=
  ⟨rfl, rfl, rfl, rfl, rfl, rfl, rfl, rfl, rfl, rfl, rfl, rfl, rfl, rfl, rfl, rfl, rfl, rfl, rfl, rfl, rfl, rfl,
   fun _ => rfl, fun _ _ _ => rfl, fun _ _ => rfl, rfl⟩
@[simp] theorem Dev.setFabV_units (d : Dev) (i : Nat) (v : Nat) :
    (∀ j, (d.setFabV i v).syn j = d.syn j) ∧ (∀ j, (d.setFabV i v).res j = d.res j) ∧
    (∀ j, (d.setFabV i v).tx j = d.tx j) ∧ (∀ j, (d.setFabV i v).rx j = d.rx j) ∧
    (∀ j, (d.setFabV i v).bursts j = d.bursts j) ∧ (∀ j, (d.setFabV i v).paPin j = d.paPin j) ∧
    (∀ j, (d.setFabV i v).divp j = d.divp j) ∧ (∀ j, (d.setFabV i v).block j = d.block j) ∧
    (∀ j, (d.setFabV i v).carrier j = d.carrier j) ∧ (∀ j, (d.setFabV i v).ctx j = d.ctx j) ∧
    (∀ j, (d.setFabV i v).path j = d.path j) ∧ (∀ j, (d.setFabV i v).calq j = d.calq j) ∧
    (∀ j, (d.setFabV i v).grp j = d.grp j) ∧ (∀ j, (d.setFabV i v).latch j = d.latch j) ∧
    (∀ j, (d.setFabV i v).slack j = d.slack j) ∧ (∀ j, (d.setFabV i v).slackLow j = d.slackLow j) ∧
    (∀ j, (d.setFabV i v).lg j = d.lg j) ∧ (∀ j, (d.setFabV i v).lane j = d.lane j) ∧
    (∀ j, (d.setFabV i v).egress j = d.egress j) ∧ (∀ j, (d.setFabV i v).wire j = d.wire j) ∧
    (∀ j, (d.setFabV i v).hiCount j = d.hiCount j) ∧ (∀ j, (d.setFabV i v).framed j = d.framed j) ∧
    (∀ j, (d.setFabV i v).inPoly j = d.inPoly j) ∧ (∀ j, (d.setFabV i v).egPoly j = d.egPoly j) ∧
    (∀ j, (d.setFabV i v).eng j = d.eng j) ∧ (∀ j, (d.setFabV i v).chan j = d.chan j) ∧
    (∀ j, (d.setFabV i v).src j = d.src j) ∧ (∀ j, (d.setFabV i v).tgt j = d.tgt j) ∧
    (∀ j, (d.setFabV i v).dom j = d.dom j) ∧ (∀ j, (d.setFabV i v).sensor j = d.sensor j) ∧
    (∀ j, (d.setFabV i v).supply j = d.supply j) ∧ (∀ j, (d.setFabV i v).auxMon j = d.auxMon j) ∧
    (∀ j, (d.setFabV i v).member j = d.member j) ∧ (∀ j, (d.setFabV i v).bcell j = d.bcell j) :=
  ⟨fun _ => rfl, fun _ => rfl, fun _ => rfl, fun _ => rfl, fun _ => rfl, fun _ => rfl, fun _ => rfl, fun _ => rfl,
   fun _ => rfl, fun _ => rfl, fun _ => rfl, fun _ => rfl, fun _ => rfl, fun _ => rfl, fun _ => rfl, fun _ => rfl,
   fun _ => rfl, fun _ => rfl, fun _ => rfl, fun _ => rfl, fun _ => rfl, fun _ => rfl, fun _ => rfl, fun _ => rfl,
   fun _ => rfl, fun _ => rfl, fun _ => rfl, fun _ => rfl, fun _ => rfl, fun _ => rfl, fun _ => rfl, fun _ => rfl,
   fun _ => rfl, fun _ => rfl⟩

@[simp] theorem Dev.setLg_lg (d : Dev) (i j : Nat) (v : Lg) :
    (d.setLg i v).lg j = if j = i then v else d.lg j := Tbl.get_set _ _ _ _ _
@[simp] theorem Dev.setLg_frame (d : Dev) (i : Nat) (v : Lg) :
    (d.setLg i v).now = d.now ∧ (d.setLg i v).fresh = d.fresh ∧ (d.setLg i v).boot = d.boot ∧
    (d.setLg i v).regs = d.regs ∧ (d.setLg i v).past = d.past ∧ (d.setLg i v).mem = d.mem ∧
    (d.setLg i v).bad = d.bad ∧ (d.setLg i v).cmd = d.cmd ∧ (d.setLg i v).tb = d.tb ∧ (d.setLg i v).rf = d.rf ∧
    (d.setLg i v).blk = d.blk ∧ (d.setLg i v).carr = d.carr ∧ (d.setLg i v).beam = d.beam ∧ (d.setLg i v).pp = d.pp ∧
    (d.setLg i v).cal = d.cal ∧ (d.setLg i v).ve = d.ve ∧ (d.setLg i v).fills = d.fills ∧ (d.setLg i v).dma = d.dma ∧
    (d.setLg i v).hub = d.hub ∧ (d.setLg i v).pwr = d.pwr ∧ (d.setLg i v).jtag = d.jtag ∧ (d.setLg i v).lat = d.lat ∧
    (∀ r, (d.setLg i v).reg r = d.reg r) ∧ (∀ r a b, (d.setLg i v).f r a b = d.f r a b) ∧
    (∀ r a, (d.setLg i v).fb r a = d.fb r a) ∧ (d.setLg i v).powered = d.powered :=
  ⟨rfl, rfl, rfl, rfl, rfl, rfl, rfl, rfl, rfl, rfl, rfl, rfl, rfl, rfl, rfl, rfl, rfl, rfl, rfl, rfl, rfl, rfl,
   fun _ => rfl, fun _ _ _ => rfl, fun _ _ => rfl, rfl⟩
@[simp] theorem Dev.setLg_units (d : Dev) (i : Nat) (v : Lg) :
    (∀ j, (d.setLg i v).syn j = d.syn j) ∧ (∀ j, (d.setLg i v).res j = d.res j) ∧
    (∀ j, (d.setLg i v).tx j = d.tx j) ∧ (∀ j, (d.setLg i v).rx j = d.rx j) ∧
    (∀ j, (d.setLg i v).bursts j = d.bursts j) ∧ (∀ j, (d.setLg i v).paPin j = d.paPin j) ∧
    (∀ j, (d.setLg i v).divp j = d.divp j) ∧ (∀ j, (d.setLg i v).block j = d.block j) ∧
    (∀ j, (d.setLg i v).carrier j = d.carrier j) ∧ (∀ j, (d.setLg i v).ctx j = d.ctx j) ∧
    (∀ j, (d.setLg i v).path j = d.path j) ∧ (∀ j, (d.setLg i v).calq j = d.calq j) ∧
    (∀ j, (d.setLg i v).grp j = d.grp j) ∧ (∀ j, (d.setLg i v).latch j = d.latch j) ∧
    (∀ j, (d.setLg i v).slack j = d.slack j) ∧ (∀ j, (d.setLg i v).slackLow j = d.slackLow j) ∧
    (∀ j, (d.setLg i v).fabV j = d.fabV j) ∧ (∀ j, (d.setLg i v).lane j = d.lane j) ∧
    (∀ j, (d.setLg i v).egress j = d.egress j) ∧ (∀ j, (d.setLg i v).wire j = d.wire j) ∧
    (∀ j, (d.setLg i v).hiCount j = d.hiCount j) ∧ (∀ j, (d.setLg i v).framed j = d.framed j) ∧
    (∀ j, (d.setLg i v).inPoly j = d.inPoly j) ∧ (∀ j, (d.setLg i v).egPoly j = d.egPoly j) ∧
    (∀ j, (d.setLg i v).eng j = d.eng j) ∧ (∀ j, (d.setLg i v).chan j = d.chan j) ∧
    (∀ j, (d.setLg i v).src j = d.src j) ∧ (∀ j, (d.setLg i v).tgt j = d.tgt j) ∧
    (∀ j, (d.setLg i v).dom j = d.dom j) ∧ (∀ j, (d.setLg i v).sensor j = d.sensor j) ∧
    (∀ j, (d.setLg i v).supply j = d.supply j) ∧ (∀ j, (d.setLg i v).auxMon j = d.auxMon j) ∧
    (∀ j, (d.setLg i v).member j = d.member j) ∧ (∀ j, (d.setLg i v).bcell j = d.bcell j) :=
  ⟨fun _ => rfl, fun _ => rfl, fun _ => rfl, fun _ => rfl, fun _ => rfl, fun _ => rfl, fun _ => rfl, fun _ => rfl,
   fun _ => rfl, fun _ => rfl, fun _ => rfl, fun _ => rfl, fun _ => rfl, fun _ => rfl, fun _ => rfl, fun _ => rfl,
   fun _ => rfl, fun _ => rfl, fun _ => rfl, fun _ => rfl, fun _ => rfl, fun _ => rfl, fun _ => rfl, fun _ => rfl,
   fun _ => rfl, fun _ => rfl, fun _ => rfl, fun _ => rfl, fun _ => rfl, fun _ => rfl, fun _ => rfl, fun _ => rfl,
   fun _ => rfl, fun _ => rfl⟩

@[simp] theorem Dev.setLane_lane (d : Dev) (i j : Nat) (v : Lane) :
    (d.setLane i v).lane j = if j = i then v else d.lane j := Tbl.get_set _ _ _ _ _
@[simp] theorem Dev.setLane_frame (d : Dev) (i : Nat) (v : Lane) :
    (d.setLane i v).now = d.now ∧ (d.setLane i v).fresh = d.fresh ∧ (d.setLane i v).boot = d.boot ∧
    (d.setLane i v).regs = d.regs ∧ (d.setLane i v).past = d.past ∧ (d.setLane i v).mem = d.mem ∧
    (d.setLane i v).bad = d.bad ∧ (d.setLane i v).cmd = d.cmd ∧ (d.setLane i v).tb = d.tb ∧
    (d.setLane i v).rf = d.rf ∧ (d.setLane i v).blk = d.blk ∧ (d.setLane i v).carr = d.carr ∧
    (d.setLane i v).beam = d.beam ∧ (d.setLane i v).pp = d.pp ∧ (d.setLane i v).cal = d.cal ∧
    (d.setLane i v).ve = d.ve ∧ (d.setLane i v).fills = d.fills ∧ (d.setLane i v).dma = d.dma ∧
    (d.setLane i v).hub = d.hub ∧ (d.setLane i v).pwr = d.pwr ∧ (d.setLane i v).jtag = d.jtag ∧
    (d.setLane i v).lat = d.lat ∧ (∀ r, (d.setLane i v).reg r = d.reg r) ∧
    (∀ r a b, (d.setLane i v).f r a b = d.f r a b) ∧ (∀ r a, (d.setLane i v).fb r a = d.fb r a) ∧
    (d.setLane i v).powered = d.powered :=
  ⟨rfl, rfl, rfl, rfl, rfl, rfl, rfl, rfl, rfl, rfl, rfl, rfl, rfl, rfl, rfl, rfl, rfl, rfl, rfl, rfl, rfl, rfl,
   fun _ => rfl, fun _ _ _ => rfl, fun _ _ => rfl, rfl⟩
@[simp] theorem Dev.setLane_units (d : Dev) (i : Nat) (v : Lane) :
    (∀ j, (d.setLane i v).syn j = d.syn j) ∧ (∀ j, (d.setLane i v).res j = d.res j) ∧
    (∀ j, (d.setLane i v).tx j = d.tx j) ∧ (∀ j, (d.setLane i v).rx j = d.rx j) ∧
    (∀ j, (d.setLane i v).bursts j = d.bursts j) ∧ (∀ j, (d.setLane i v).paPin j = d.paPin j) ∧
    (∀ j, (d.setLane i v).divp j = d.divp j) ∧ (∀ j, (d.setLane i v).block j = d.block j) ∧
    (∀ j, (d.setLane i v).carrier j = d.carrier j) ∧ (∀ j, (d.setLane i v).ctx j = d.ctx j) ∧
    (∀ j, (d.setLane i v).path j = d.path j) ∧ (∀ j, (d.setLane i v).calq j = d.calq j) ∧
    (∀ j, (d.setLane i v).grp j = d.grp j) ∧ (∀ j, (d.setLane i v).latch j = d.latch j) ∧
    (∀ j, (d.setLane i v).slack j = d.slack j) ∧ (∀ j, (d.setLane i v).slackLow j = d.slackLow j) ∧
    (∀ j, (d.setLane i v).fabV j = d.fabV j) ∧ (∀ j, (d.setLane i v).lg j = d.lg j) ∧
    (∀ j, (d.setLane i v).egress j = d.egress j) ∧ (∀ j, (d.setLane i v).wire j = d.wire j) ∧
    (∀ j, (d.setLane i v).hiCount j = d.hiCount j) ∧ (∀ j, (d.setLane i v).framed j = d.framed j) ∧
    (∀ j, (d.setLane i v).inPoly j = d.inPoly j) ∧ (∀ j, (d.setLane i v).egPoly j = d.egPoly j) ∧
    (∀ j, (d.setLane i v).eng j = d.eng j) ∧ (∀ j, (d.setLane i v).chan j = d.chan j) ∧
    (∀ j, (d.setLane i v).src j = d.src j) ∧ (∀ j, (d.setLane i v).tgt j = d.tgt j) ∧
    (∀ j, (d.setLane i v).dom j = d.dom j) ∧ (∀ j, (d.setLane i v).sensor j = d.sensor j) ∧
    (∀ j, (d.setLane i v).supply j = d.supply j) ∧ (∀ j, (d.setLane i v).auxMon j = d.auxMon j) ∧
    (∀ j, (d.setLane i v).member j = d.member j) ∧ (∀ j, (d.setLane i v).bcell j = d.bcell j) :=
  ⟨fun _ => rfl, fun _ => rfl, fun _ => rfl, fun _ => rfl, fun _ => rfl, fun _ => rfl, fun _ => rfl, fun _ => rfl,
   fun _ => rfl, fun _ => rfl, fun _ => rfl, fun _ => rfl, fun _ => rfl, fun _ => rfl, fun _ => rfl, fun _ => rfl,
   fun _ => rfl, fun _ => rfl, fun _ => rfl, fun _ => rfl, fun _ => rfl, fun _ => rfl, fun _ => rfl, fun _ => rfl,
   fun _ => rfl, fun _ => rfl, fun _ => rfl, fun _ => rfl, fun _ => rfl, fun _ => rfl, fun _ => rfl, fun _ => rfl,
   fun _ => rfl, fun _ => rfl⟩

@[simp] theorem Dev.setEgress_egress (d : Dev) (i j : Nat) (v : List Pkt) :
    (d.setEgress i v).egress j = if j = i then v else d.egress j := Tbl.get_set _ _ _ _ _
@[simp] theorem Dev.setEgress_frame (d : Dev) (i : Nat) (v : List Pkt) :
    (d.setEgress i v).now = d.now ∧ (d.setEgress i v).fresh = d.fresh ∧ (d.setEgress i v).boot = d.boot ∧
    (d.setEgress i v).regs = d.regs ∧ (d.setEgress i v).past = d.past ∧ (d.setEgress i v).mem = d.mem ∧
    (d.setEgress i v).bad = d.bad ∧ (d.setEgress i v).cmd = d.cmd ∧ (d.setEgress i v).tb = d.tb ∧
    (d.setEgress i v).rf = d.rf ∧ (d.setEgress i v).blk = d.blk ∧ (d.setEgress i v).carr = d.carr ∧
    (d.setEgress i v).beam = d.beam ∧ (d.setEgress i v).pp = d.pp ∧ (d.setEgress i v).cal = d.cal ∧
    (d.setEgress i v).ve = d.ve ∧ (d.setEgress i v).fills = d.fills ∧ (d.setEgress i v).dma = d.dma ∧
    (d.setEgress i v).hub = d.hub ∧ (d.setEgress i v).pwr = d.pwr ∧ (d.setEgress i v).jtag = d.jtag ∧
    (d.setEgress i v).lat = d.lat ∧ (∀ r, (d.setEgress i v).reg r = d.reg r) ∧
    (∀ r a b, (d.setEgress i v).f r a b = d.f r a b) ∧ (∀ r a, (d.setEgress i v).fb r a = d.fb r a) ∧
    (d.setEgress i v).powered = d.powered :=
  ⟨rfl, rfl, rfl, rfl, rfl, rfl, rfl, rfl, rfl, rfl, rfl, rfl, rfl, rfl, rfl, rfl, rfl, rfl, rfl, rfl, rfl, rfl,
   fun _ => rfl, fun _ _ _ => rfl, fun _ _ => rfl, rfl⟩
@[simp] theorem Dev.setEgress_units (d : Dev) (i : Nat) (v : List Pkt) :
    (∀ j, (d.setEgress i v).syn j = d.syn j) ∧ (∀ j, (d.setEgress i v).res j = d.res j) ∧
    (∀ j, (d.setEgress i v).tx j = d.tx j) ∧ (∀ j, (d.setEgress i v).rx j = d.rx j) ∧
    (∀ j, (d.setEgress i v).bursts j = d.bursts j) ∧ (∀ j, (d.setEgress i v).paPin j = d.paPin j) ∧
    (∀ j, (d.setEgress i v).divp j = d.divp j) ∧ (∀ j, (d.setEgress i v).block j = d.block j) ∧
    (∀ j, (d.setEgress i v).carrier j = d.carrier j) ∧ (∀ j, (d.setEgress i v).ctx j = d.ctx j) ∧
    (∀ j, (d.setEgress i v).path j = d.path j) ∧ (∀ j, (d.setEgress i v).calq j = d.calq j) ∧
    (∀ j, (d.setEgress i v).grp j = d.grp j) ∧ (∀ j, (d.setEgress i v).latch j = d.latch j) ∧
    (∀ j, (d.setEgress i v).slack j = d.slack j) ∧ (∀ j, (d.setEgress i v).slackLow j = d.slackLow j) ∧
    (∀ j, (d.setEgress i v).fabV j = d.fabV j) ∧ (∀ j, (d.setEgress i v).lg j = d.lg j) ∧
    (∀ j, (d.setEgress i v).lane j = d.lane j) ∧ (∀ j, (d.setEgress i v).wire j = d.wire j) ∧
    (∀ j, (d.setEgress i v).hiCount j = d.hiCount j) ∧ (∀ j, (d.setEgress i v).framed j = d.framed j) ∧
    (∀ j, (d.setEgress i v).inPoly j = d.inPoly j) ∧ (∀ j, (d.setEgress i v).egPoly j = d.egPoly j) ∧
    (∀ j, (d.setEgress i v).eng j = d.eng j) ∧ (∀ j, (d.setEgress i v).chan j = d.chan j) ∧
    (∀ j, (d.setEgress i v).src j = d.src j) ∧ (∀ j, (d.setEgress i v).tgt j = d.tgt j) ∧
    (∀ j, (d.setEgress i v).dom j = d.dom j) ∧ (∀ j, (d.setEgress i v).sensor j = d.sensor j) ∧
    (∀ j, (d.setEgress i v).supply j = d.supply j) ∧ (∀ j, (d.setEgress i v).auxMon j = d.auxMon j) ∧
    (∀ j, (d.setEgress i v).member j = d.member j) ∧ (∀ j, (d.setEgress i v).bcell j = d.bcell j) :=
  ⟨fun _ => rfl, fun _ => rfl, fun _ => rfl, fun _ => rfl, fun _ => rfl, fun _ => rfl, fun _ => rfl, fun _ => rfl,
   fun _ => rfl, fun _ => rfl, fun _ => rfl, fun _ => rfl, fun _ => rfl, fun _ => rfl, fun _ => rfl, fun _ => rfl,
   fun _ => rfl, fun _ => rfl, fun _ => rfl, fun _ => rfl, fun _ => rfl, fun _ => rfl, fun _ => rfl, fun _ => rfl,
   fun _ => rfl, fun _ => rfl, fun _ => rfl, fun _ => rfl, fun _ => rfl, fun _ => rfl, fun _ => rfl, fun _ => rfl,
   fun _ => rfl, fun _ => rfl⟩

@[simp] theorem Dev.setWire_wire (d : Dev) (i j : Nat) (v : Option Sent) :
    (d.setWire i v).wire j = if j = i then v else d.wire j := Tbl.get_set _ _ _ _ _
@[simp] theorem Dev.setWire_frame (d : Dev) (i : Nat) (v : Option Sent) :
    (d.setWire i v).now = d.now ∧ (d.setWire i v).fresh = d.fresh ∧ (d.setWire i v).boot = d.boot ∧
    (d.setWire i v).regs = d.regs ∧ (d.setWire i v).past = d.past ∧ (d.setWire i v).mem = d.mem ∧
    (d.setWire i v).bad = d.bad ∧ (d.setWire i v).cmd = d.cmd ∧ (d.setWire i v).tb = d.tb ∧
    (d.setWire i v).rf = d.rf ∧ (d.setWire i v).blk = d.blk ∧ (d.setWire i v).carr = d.carr ∧
    (d.setWire i v).beam = d.beam ∧ (d.setWire i v).pp = d.pp ∧ (d.setWire i v).cal = d.cal ∧
    (d.setWire i v).ve = d.ve ∧ (d.setWire i v).fills = d.fills ∧ (d.setWire i v).dma = d.dma ∧
    (d.setWire i v).hub = d.hub ∧ (d.setWire i v).pwr = d.pwr ∧ (d.setWire i v).jtag = d.jtag ∧
    (d.setWire i v).lat = d.lat ∧ (∀ r, (d.setWire i v).reg r = d.reg r) ∧
    (∀ r a b, (d.setWire i v).f r a b = d.f r a b) ∧ (∀ r a, (d.setWire i v).fb r a = d.fb r a) ∧
    (d.setWire i v).powered = d.powered :=
  ⟨rfl, rfl, rfl, rfl, rfl, rfl, rfl, rfl, rfl, rfl, rfl, rfl, rfl, rfl, rfl, rfl, rfl, rfl, rfl, rfl, rfl, rfl,
   fun _ => rfl, fun _ _ _ => rfl, fun _ _ => rfl, rfl⟩
@[simp] theorem Dev.setWire_units (d : Dev) (i : Nat) (v : Option Sent) :
    (∀ j, (d.setWire i v).syn j = d.syn j) ∧ (∀ j, (d.setWire i v).res j = d.res j) ∧
    (∀ j, (d.setWire i v).tx j = d.tx j) ∧ (∀ j, (d.setWire i v).rx j = d.rx j) ∧
    (∀ j, (d.setWire i v).bursts j = d.bursts j) ∧ (∀ j, (d.setWire i v).paPin j = d.paPin j) ∧
    (∀ j, (d.setWire i v).divp j = d.divp j) ∧ (∀ j, (d.setWire i v).block j = d.block j) ∧
    (∀ j, (d.setWire i v).carrier j = d.carrier j) ∧ (∀ j, (d.setWire i v).ctx j = d.ctx j) ∧
    (∀ j, (d.setWire i v).path j = d.path j) ∧ (∀ j, (d.setWire i v).calq j = d.calq j) ∧
    (∀ j, (d.setWire i v).grp j = d.grp j) ∧ (∀ j, (d.setWire i v).latch j = d.latch j) ∧
    (∀ j, (d.setWire i v).slack j = d.slack j) ∧ (∀ j, (d.setWire i v).slackLow j = d.slackLow j) ∧
    (∀ j, (d.setWire i v).fabV j = d.fabV j) ∧ (∀ j, (d.setWire i v).lg j = d.lg j) ∧
    (∀ j, (d.setWire i v).lane j = d.lane j) ∧ (∀ j, (d.setWire i v).egress j = d.egress j) ∧
    (∀ j, (d.setWire i v).hiCount j = d.hiCount j) ∧ (∀ j, (d.setWire i v).framed j = d.framed j) ∧
    (∀ j, (d.setWire i v).inPoly j = d.inPoly j) ∧ (∀ j, (d.setWire i v).egPoly j = d.egPoly j) ∧
    (∀ j, (d.setWire i v).eng j = d.eng j) ∧ (∀ j, (d.setWire i v).chan j = d.chan j) ∧
    (∀ j, (d.setWire i v).src j = d.src j) ∧ (∀ j, (d.setWire i v).tgt j = d.tgt j) ∧
    (∀ j, (d.setWire i v).dom j = d.dom j) ∧ (∀ j, (d.setWire i v).sensor j = d.sensor j) ∧
    (∀ j, (d.setWire i v).supply j = d.supply j) ∧ (∀ j, (d.setWire i v).auxMon j = d.auxMon j) ∧
    (∀ j, (d.setWire i v).member j = d.member j) ∧ (∀ j, (d.setWire i v).bcell j = d.bcell j) :=
  ⟨fun _ => rfl, fun _ => rfl, fun _ => rfl, fun _ => rfl, fun _ => rfl, fun _ => rfl, fun _ => rfl, fun _ => rfl,
   fun _ => rfl, fun _ => rfl, fun _ => rfl, fun _ => rfl, fun _ => rfl, fun _ => rfl, fun _ => rfl, fun _ => rfl,
   fun _ => rfl, fun _ => rfl, fun _ => rfl, fun _ => rfl, fun _ => rfl, fun _ => rfl, fun _ => rfl, fun _ => rfl,
   fun _ => rfl, fun _ => rfl, fun _ => rfl, fun _ => rfl, fun _ => rfl, fun _ => rfl, fun _ => rfl, fun _ => rfl,
   fun _ => rfl, fun _ => rfl⟩

@[simp] theorem Dev.setHiCount_hiCount (d : Dev) (i j : Nat) (v : Nat) :
    (d.setHiCount i v).hiCount j = if j = i then v else d.hiCount j := Tbl.get_set _ _ _ _ _
@[simp] theorem Dev.setHiCount_frame (d : Dev) (i : Nat) (v : Nat) :
    (d.setHiCount i v).now = d.now ∧ (d.setHiCount i v).fresh = d.fresh ∧ (d.setHiCount i v).boot = d.boot ∧
    (d.setHiCount i v).regs = d.regs ∧ (d.setHiCount i v).past = d.past ∧ (d.setHiCount i v).mem = d.mem ∧
    (d.setHiCount i v).bad = d.bad ∧ (d.setHiCount i v).cmd = d.cmd ∧ (d.setHiCount i v).tb = d.tb ∧
    (d.setHiCount i v).rf = d.rf ∧ (d.setHiCount i v).blk = d.blk ∧ (d.setHiCount i v).carr = d.carr ∧
    (d.setHiCount i v).beam = d.beam ∧ (d.setHiCount i v).pp = d.pp ∧ (d.setHiCount i v).cal = d.cal ∧
    (d.setHiCount i v).ve = d.ve ∧ (d.setHiCount i v).fills = d.fills ∧ (d.setHiCount i v).dma = d.dma ∧
    (d.setHiCount i v).hub = d.hub ∧ (d.setHiCount i v).pwr = d.pwr ∧ (d.setHiCount i v).jtag = d.jtag ∧
    (d.setHiCount i v).lat = d.lat ∧ (∀ r, (d.setHiCount i v).reg r = d.reg r) ∧
    (∀ r a b, (d.setHiCount i v).f r a b = d.f r a b) ∧ (∀ r a, (d.setHiCount i v).fb r a = d.fb r a) ∧
    (d.setHiCount i v).powered = d.powered :=
  ⟨rfl, rfl, rfl, rfl, rfl, rfl, rfl, rfl, rfl, rfl, rfl, rfl, rfl, rfl, rfl, rfl, rfl, rfl, rfl, rfl, rfl, rfl,
   fun _ => rfl, fun _ _ _ => rfl, fun _ _ => rfl, rfl⟩
@[simp] theorem Dev.setHiCount_units (d : Dev) (i : Nat) (v : Nat) :
    (∀ j, (d.setHiCount i v).syn j = d.syn j) ∧ (∀ j, (d.setHiCount i v).res j = d.res j) ∧
    (∀ j, (d.setHiCount i v).tx j = d.tx j) ∧ (∀ j, (d.setHiCount i v).rx j = d.rx j) ∧
    (∀ j, (d.setHiCount i v).bursts j = d.bursts j) ∧ (∀ j, (d.setHiCount i v).paPin j = d.paPin j) ∧
    (∀ j, (d.setHiCount i v).divp j = d.divp j) ∧ (∀ j, (d.setHiCount i v).block j = d.block j) ∧
    (∀ j, (d.setHiCount i v).carrier j = d.carrier j) ∧ (∀ j, (d.setHiCount i v).ctx j = d.ctx j) ∧
    (∀ j, (d.setHiCount i v).path j = d.path j) ∧ (∀ j, (d.setHiCount i v).calq j = d.calq j) ∧
    (∀ j, (d.setHiCount i v).grp j = d.grp j) ∧ (∀ j, (d.setHiCount i v).latch j = d.latch j) ∧
    (∀ j, (d.setHiCount i v).slack j = d.slack j) ∧ (∀ j, (d.setHiCount i v).slackLow j = d.slackLow j) ∧
    (∀ j, (d.setHiCount i v).fabV j = d.fabV j) ∧ (∀ j, (d.setHiCount i v).lg j = d.lg j) ∧
    (∀ j, (d.setHiCount i v).lane j = d.lane j) ∧ (∀ j, (d.setHiCount i v).egress j = d.egress j) ∧
    (∀ j, (d.setHiCount i v).wire j = d.wire j) ∧ (∀ j, (d.setHiCount i v).framed j = d.framed j) ∧
    (∀ j, (d.setHiCount i v).inPoly j = d.inPoly j) ∧ (∀ j, (d.setHiCount i v).egPoly j = d.egPoly j) ∧
    (∀ j, (d.setHiCount i v).eng j = d.eng j) ∧ (∀ j, (d.setHiCount i v).chan j = d.chan j) ∧
    (∀ j, (d.setHiCount i v).src j = d.src j) ∧ (∀ j, (d.setHiCount i v).tgt j = d.tgt j) ∧
    (∀ j, (d.setHiCount i v).dom j = d.dom j) ∧ (∀ j, (d.setHiCount i v).sensor j = d.sensor j) ∧
    (∀ j, (d.setHiCount i v).supply j = d.supply j) ∧ (∀ j, (d.setHiCount i v).auxMon j = d.auxMon j) ∧
    (∀ j, (d.setHiCount i v).member j = d.member j) ∧ (∀ j, (d.setHiCount i v).bcell j = d.bcell j) :=
  ⟨fun _ => rfl, fun _ => rfl, fun _ => rfl, fun _ => rfl, fun _ => rfl, fun _ => rfl, fun _ => rfl, fun _ => rfl,
   fun _ => rfl, fun _ => rfl, fun _ => rfl, fun _ => rfl, fun _ => rfl, fun _ => rfl, fun _ => rfl, fun _ => rfl,
   fun _ => rfl, fun _ => rfl, fun _ => rfl, fun _ => rfl, fun _ => rfl, fun _ => rfl, fun _ => rfl, fun _ => rfl,
   fun _ => rfl, fun _ => rfl, fun _ => rfl, fun _ => rfl, fun _ => rfl, fun _ => rfl, fun _ => rfl, fun _ => rfl,
   fun _ => rfl, fun _ => rfl⟩

@[simp] theorem Dev.setFramed_framed (d : Dev) (i j : Nat) (v : Bool) :
    (d.setFramed i v).framed j = if j = i then v else d.framed j := Tbl.get_set _ _ _ _ _
@[simp] theorem Dev.setFramed_frame (d : Dev) (i : Nat) (v : Bool) :
    (d.setFramed i v).now = d.now ∧ (d.setFramed i v).fresh = d.fresh ∧ (d.setFramed i v).boot = d.boot ∧
    (d.setFramed i v).regs = d.regs ∧ (d.setFramed i v).past = d.past ∧ (d.setFramed i v).mem = d.mem ∧
    (d.setFramed i v).bad = d.bad ∧ (d.setFramed i v).cmd = d.cmd ∧ (d.setFramed i v).tb = d.tb ∧
    (d.setFramed i v).rf = d.rf ∧ (d.setFramed i v).blk = d.blk ∧ (d.setFramed i v).carr = d.carr ∧
    (d.setFramed i v).beam = d.beam ∧ (d.setFramed i v).pp = d.pp ∧ (d.setFramed i v).cal = d.cal ∧
    (d.setFramed i v).ve = d.ve ∧ (d.setFramed i v).fills = d.fills ∧ (d.setFramed i v).dma = d.dma ∧
    (d.setFramed i v).hub = d.hub ∧ (d.setFramed i v).pwr = d.pwr ∧ (d.setFramed i v).jtag = d.jtag ∧
    (d.setFramed i v).lat = d.lat ∧ (∀ r, (d.setFramed i v).reg r = d.reg r) ∧
    (∀ r a b, (d.setFramed i v).f r a b = d.f r a b) ∧ (∀ r a, (d.setFramed i v).fb r a = d.fb r a) ∧
    (d.setFramed i v).powered = d.powered :=
  ⟨rfl, rfl, rfl, rfl, rfl, rfl, rfl, rfl, rfl, rfl, rfl, rfl, rfl, rfl, rfl, rfl, rfl, rfl, rfl, rfl, rfl, rfl,
   fun _ => rfl, fun _ _ _ => rfl, fun _ _ => rfl, rfl⟩
@[simp] theorem Dev.setFramed_units (d : Dev) (i : Nat) (v : Bool) :
    (∀ j, (d.setFramed i v).syn j = d.syn j) ∧ (∀ j, (d.setFramed i v).res j = d.res j) ∧
    (∀ j, (d.setFramed i v).tx j = d.tx j) ∧ (∀ j, (d.setFramed i v).rx j = d.rx j) ∧
    (∀ j, (d.setFramed i v).bursts j = d.bursts j) ∧ (∀ j, (d.setFramed i v).paPin j = d.paPin j) ∧
    (∀ j, (d.setFramed i v).divp j = d.divp j) ∧ (∀ j, (d.setFramed i v).block j = d.block j) ∧
    (∀ j, (d.setFramed i v).carrier j = d.carrier j) ∧ (∀ j, (d.setFramed i v).ctx j = d.ctx j) ∧
    (∀ j, (d.setFramed i v).path j = d.path j) ∧ (∀ j, (d.setFramed i v).calq j = d.calq j) ∧
    (∀ j, (d.setFramed i v).grp j = d.grp j) ∧ (∀ j, (d.setFramed i v).latch j = d.latch j) ∧
    (∀ j, (d.setFramed i v).slack j = d.slack j) ∧ (∀ j, (d.setFramed i v).slackLow j = d.slackLow j) ∧
    (∀ j, (d.setFramed i v).fabV j = d.fabV j) ∧ (∀ j, (d.setFramed i v).lg j = d.lg j) ∧
    (∀ j, (d.setFramed i v).lane j = d.lane j) ∧ (∀ j, (d.setFramed i v).egress j = d.egress j) ∧
    (∀ j, (d.setFramed i v).wire j = d.wire j) ∧ (∀ j, (d.setFramed i v).hiCount j = d.hiCount j) ∧
    (∀ j, (d.setFramed i v).inPoly j = d.inPoly j) ∧ (∀ j, (d.setFramed i v).egPoly j = d.egPoly j) ∧
    (∀ j, (d.setFramed i v).eng j = d.eng j) ∧ (∀ j, (d.setFramed i v).chan j = d.chan j) ∧
    (∀ j, (d.setFramed i v).src j = d.src j) ∧ (∀ j, (d.setFramed i v).tgt j = d.tgt j) ∧
    (∀ j, (d.setFramed i v).dom j = d.dom j) ∧ (∀ j, (d.setFramed i v).sensor j = d.sensor j) ∧
    (∀ j, (d.setFramed i v).supply j = d.supply j) ∧ (∀ j, (d.setFramed i v).auxMon j = d.auxMon j) ∧
    (∀ j, (d.setFramed i v).member j = d.member j) ∧ (∀ j, (d.setFramed i v).bcell j = d.bcell j) :=
  ⟨fun _ => rfl, fun _ => rfl, fun _ => rfl, fun _ => rfl, fun _ => rfl, fun _ => rfl, fun _ => rfl, fun _ => rfl,
   fun _ => rfl, fun _ => rfl, fun _ => rfl, fun _ => rfl, fun _ => rfl, fun _ => rfl, fun _ => rfl, fun _ => rfl,
   fun _ => rfl, fun _ => rfl, fun _ => rfl, fun _ => rfl, fun _ => rfl, fun _ => rfl, fun _ => rfl, fun _ => rfl,
   fun _ => rfl, fun _ => rfl, fun _ => rfl, fun _ => rfl, fun _ => rfl, fun _ => rfl, fun _ => rfl, fun _ => rfl,
   fun _ => rfl, fun _ => rfl⟩

@[simp] theorem Dev.setInPoly_inPoly (d : Dev) (i j : Nat) (v : Nat) :
    (d.setInPoly i v).inPoly j = if j = i then v else d.inPoly j := Tbl.get_set _ _ _ _ _
@[simp] theorem Dev.setInPoly_frame (d : Dev) (i : Nat) (v : Nat) :
    (d.setInPoly i v).now = d.now ∧ (d.setInPoly i v).fresh = d.fresh ∧ (d.setInPoly i v).boot = d.boot ∧
    (d.setInPoly i v).regs = d.regs ∧ (d.setInPoly i v).past = d.past ∧ (d.setInPoly i v).mem = d.mem ∧
    (d.setInPoly i v).bad = d.bad ∧ (d.setInPoly i v).cmd = d.cmd ∧ (d.setInPoly i v).tb = d.tb ∧
    (d.setInPoly i v).rf = d.rf ∧ (d.setInPoly i v).blk = d.blk ∧ (d.setInPoly i v).carr = d.carr ∧
    (d.setInPoly i v).beam = d.beam ∧ (d.setInPoly i v).pp = d.pp ∧ (d.setInPoly i v).cal = d.cal ∧
    (d.setInPoly i v).ve = d.ve ∧ (d.setInPoly i v).fills = d.fills ∧ (d.setInPoly i v).dma = d.dma ∧
    (d.setInPoly i v).hub = d.hub ∧ (d.setInPoly i v).pwr = d.pwr ∧ (d.setInPoly i v).jtag = d.jtag ∧
    (d.setInPoly i v).lat = d.lat ∧ (∀ r, (d.setInPoly i v).reg r = d.reg r) ∧
    (∀ r a b, (d.setInPoly i v).f r a b = d.f r a b) ∧ (∀ r a, (d.setInPoly i v).fb r a = d.fb r a) ∧
    (d.setInPoly i v).powered = d.powered :=
  ⟨rfl, rfl, rfl, rfl, rfl, rfl, rfl, rfl, rfl, rfl, rfl, rfl, rfl, rfl, rfl, rfl, rfl, rfl, rfl, rfl, rfl, rfl,
   fun _ => rfl, fun _ _ _ => rfl, fun _ _ => rfl, rfl⟩
@[simp] theorem Dev.setInPoly_units (d : Dev) (i : Nat) (v : Nat) :
    (∀ j, (d.setInPoly i v).syn j = d.syn j) ∧ (∀ j, (d.setInPoly i v).res j = d.res j) ∧
    (∀ j, (d.setInPoly i v).tx j = d.tx j) ∧ (∀ j, (d.setInPoly i v).rx j = d.rx j) ∧
    (∀ j, (d.setInPoly i v).bursts j = d.bursts j) ∧ (∀ j, (d.setInPoly i v).paPin j = d.paPin j) ∧
    (∀ j, (d.setInPoly i v).divp j = d.divp j) ∧ (∀ j, (d.setInPoly i v).block j = d.block j) ∧
    (∀ j, (d.setInPoly i v).carrier j = d.carrier j) ∧ (∀ j, (d.setInPoly i v).ctx j = d.ctx j) ∧
    (∀ j, (d.setInPoly i v).path j = d.path j) ∧ (∀ j, (d.setInPoly i v).calq j = d.calq j) ∧
    (∀ j, (d.setInPoly i v).grp j = d.grp j) ∧ (∀ j, (d.setInPoly i v).latch j = d.latch j) ∧
    (∀ j, (d.setInPoly i v).slack j = d.slack j) ∧ (∀ j, (d.setInPoly i v).slackLow j = d.slackLow j) ∧
    (∀ j, (d.setInPoly i v).fabV j = d.fabV j) ∧ (∀ j, (d.setInPoly i v).lg j = d.lg j) ∧
    (∀ j, (d.setInPoly i v).lane j = d.lane j) ∧ (∀ j, (d.setInPoly i v).egress j = d.egress j) ∧
    (∀ j, (d.setInPoly i v).wire j = d.wire j) ∧ (∀ j, (d.setInPoly i v).hiCount j = d.hiCount j) ∧
    (∀ j, (d.setInPoly i v).framed j = d.framed j) ∧ (∀ j, (d.setInPoly i v).egPoly j = d.egPoly j) ∧
    (∀ j, (d.setInPoly i v).eng j = d.eng j) ∧ (∀ j, (d.setInPoly i v).chan j = d.chan j) ∧
    (∀ j, (d.setInPoly i v).src j = d.src j) ∧ (∀ j, (d.setInPoly i v).tgt j = d.tgt j) ∧
    (∀ j, (d.setInPoly i v).dom j = d.dom j) ∧ (∀ j, (d.setInPoly i v).sensor j = d.sensor j) ∧
    (∀ j, (d.setInPoly i v).supply j = d.supply j) ∧ (∀ j, (d.setInPoly i v).auxMon j = d.auxMon j) ∧
    (∀ j, (d.setInPoly i v).member j = d.member j) ∧ (∀ j, (d.setInPoly i v).bcell j = d.bcell j) :=
  ⟨fun _ => rfl, fun _ => rfl, fun _ => rfl, fun _ => rfl, fun _ => rfl, fun _ => rfl, fun _ => rfl, fun _ => rfl,
   fun _ => rfl, fun _ => rfl, fun _ => rfl, fun _ => rfl, fun _ => rfl, fun _ => rfl, fun _ => rfl, fun _ => rfl,
   fun _ => rfl, fun _ => rfl, fun _ => rfl, fun _ => rfl, fun _ => rfl, fun _ => rfl, fun _ => rfl, fun _ => rfl,
   fun _ => rfl, fun _ => rfl, fun _ => rfl, fun _ => rfl, fun _ => rfl, fun _ => rfl, fun _ => rfl, fun _ => rfl,
   fun _ => rfl, fun _ => rfl⟩

@[simp] theorem Dev.setEgPoly_egPoly (d : Dev) (i j : Nat) (v : Nat) :
    (d.setEgPoly i v).egPoly j = if j = i then v else d.egPoly j := Tbl.get_set _ _ _ _ _
@[simp] theorem Dev.setEgPoly_frame (d : Dev) (i : Nat) (v : Nat) :
    (d.setEgPoly i v).now = d.now ∧ (d.setEgPoly i v).fresh = d.fresh ∧ (d.setEgPoly i v).boot = d.boot ∧
    (d.setEgPoly i v).regs = d.regs ∧ (d.setEgPoly i v).past = d.past ∧ (d.setEgPoly i v).mem = d.mem ∧
    (d.setEgPoly i v).bad = d.bad ∧ (d.setEgPoly i v).cmd = d.cmd ∧ (d.setEgPoly i v).tb = d.tb ∧
    (d.setEgPoly i v).rf = d.rf ∧ (d.setEgPoly i v).blk = d.blk ∧ (d.setEgPoly i v).carr = d.carr ∧
    (d.setEgPoly i v).beam = d.beam ∧ (d.setEgPoly i v).pp = d.pp ∧ (d.setEgPoly i v).cal = d.cal ∧
    (d.setEgPoly i v).ve = d.ve ∧ (d.setEgPoly i v).fills = d.fills ∧ (d.setEgPoly i v).dma = d.dma ∧
    (d.setEgPoly i v).hub = d.hub ∧ (d.setEgPoly i v).pwr = d.pwr ∧ (d.setEgPoly i v).jtag = d.jtag ∧
    (d.setEgPoly i v).lat = d.lat ∧ (∀ r, (d.setEgPoly i v).reg r = d.reg r) ∧
    (∀ r a b, (d.setEgPoly i v).f r a b = d.f r a b) ∧ (∀ r a, (d.setEgPoly i v).fb r a = d.fb r a) ∧
    (d.setEgPoly i v).powered = d.powered :=
  ⟨rfl, rfl, rfl, rfl, rfl, rfl, rfl, rfl, rfl, rfl, rfl, rfl, rfl, rfl, rfl, rfl, rfl, rfl, rfl, rfl, rfl, rfl,
   fun _ => rfl, fun _ _ _ => rfl, fun _ _ => rfl, rfl⟩
@[simp] theorem Dev.setEgPoly_units (d : Dev) (i : Nat) (v : Nat) :
    (∀ j, (d.setEgPoly i v).syn j = d.syn j) ∧ (∀ j, (d.setEgPoly i v).res j = d.res j) ∧
    (∀ j, (d.setEgPoly i v).tx j = d.tx j) ∧ (∀ j, (d.setEgPoly i v).rx j = d.rx j) ∧
    (∀ j, (d.setEgPoly i v).bursts j = d.bursts j) ∧ (∀ j, (d.setEgPoly i v).paPin j = d.paPin j) ∧
    (∀ j, (d.setEgPoly i v).divp j = d.divp j) ∧ (∀ j, (d.setEgPoly i v).block j = d.block j) ∧
    (∀ j, (d.setEgPoly i v).carrier j = d.carrier j) ∧ (∀ j, (d.setEgPoly i v).ctx j = d.ctx j) ∧
    (∀ j, (d.setEgPoly i v).path j = d.path j) ∧ (∀ j, (d.setEgPoly i v).calq j = d.calq j) ∧
    (∀ j, (d.setEgPoly i v).grp j = d.grp j) ∧ (∀ j, (d.setEgPoly i v).latch j = d.latch j) ∧
    (∀ j, (d.setEgPoly i v).slack j = d.slack j) ∧ (∀ j, (d.setEgPoly i v).slackLow j = d.slackLow j) ∧
    (∀ j, (d.setEgPoly i v).fabV j = d.fabV j) ∧ (∀ j, (d.setEgPoly i v).lg j = d.lg j) ∧
    (∀ j, (d.setEgPoly i v).lane j = d.lane j) ∧ (∀ j, (d.setEgPoly i v).egress j = d.egress j) ∧
    (∀ j, (d.setEgPoly i v).wire j = d.wire j) ∧ (∀ j, (d.setEgPoly i v).hiCount j = d.hiCount j) ∧
    (∀ j, (d.setEgPoly i v).framed j = d.framed j) ∧ (∀ j, (d.setEgPoly i v).inPoly j = d.inPoly j) ∧
    (∀ j, (d.setEgPoly i v).eng j = d.eng j) ∧ (∀ j, (d.setEgPoly i v).chan j = d.chan j) ∧
    (∀ j, (d.setEgPoly i v).src j = d.src j) ∧ (∀ j, (d.setEgPoly i v).tgt j = d.tgt j) ∧
    (∀ j, (d.setEgPoly i v).dom j = d.dom j) ∧ (∀ j, (d.setEgPoly i v).sensor j = d.sensor j) ∧
    (∀ j, (d.setEgPoly i v).supply j = d.supply j) ∧ (∀ j, (d.setEgPoly i v).auxMon j = d.auxMon j) ∧
    (∀ j, (d.setEgPoly i v).member j = d.member j) ∧ (∀ j, (d.setEgPoly i v).bcell j = d.bcell j) :=
  ⟨fun _ => rfl, fun _ => rfl, fun _ => rfl, fun _ => rfl, fun _ => rfl, fun _ => rfl, fun _ => rfl, fun _ => rfl,
   fun _ => rfl, fun _ => rfl, fun _ => rfl, fun _ => rfl, fun _ => rfl, fun _ => rfl, fun _ => rfl, fun _ => rfl,
   fun _ => rfl, fun _ => rfl, fun _ => rfl, fun _ => rfl, fun _ => rfl, fun _ => rfl, fun _ => rfl, fun _ => rfl,
   fun _ => rfl, fun _ => rfl, fun _ => rfl, fun _ => rfl, fun _ => rfl, fun _ => rfl, fun _ => rfl, fun _ => rfl,
   fun _ => rfl, fun _ => rfl⟩

@[simp] theorem Dev.setEng_eng (d : Dev) (i j : Nat) (v : Ve) :
    (d.setEng i v).eng j = if j = i then v else d.eng j := Tbl.get_set _ _ _ _ _
@[simp] theorem Dev.setEng_frame (d : Dev) (i : Nat) (v : Ve) :
    (d.setEng i v).now = d.now ∧ (d.setEng i v).fresh = d.fresh ∧ (d.setEng i v).boot = d.boot ∧
    (d.setEng i v).regs = d.regs ∧ (d.setEng i v).past = d.past ∧ (d.setEng i v).mem = d.mem ∧
    (d.setEng i v).bad = d.bad ∧ (d.setEng i v).cmd = d.cmd ∧ (d.setEng i v).tb = d.tb ∧ (d.setEng i v).rf = d.rf ∧
    (d.setEng i v).blk = d.blk ∧ (d.setEng i v).carr = d.carr ∧ (d.setEng i v).beam = d.beam ∧
    (d.setEng i v).pp = d.pp ∧ (d.setEng i v).cal = d.cal ∧ (d.setEng i v).link = d.link ∧
    (d.setEng i v).fills = d.fills ∧ (d.setEng i v).dma = d.dma ∧ (d.setEng i v).hub = d.hub ∧
    (d.setEng i v).pwr = d.pwr ∧ (d.setEng i v).jtag = d.jtag ∧ (d.setEng i v).lat = d.lat ∧
    (∀ r, (d.setEng i v).reg r = d.reg r) ∧ (∀ r a b, (d.setEng i v).f r a b = d.f r a b) ∧
    (∀ r a, (d.setEng i v).fb r a = d.fb r a) ∧ (d.setEng i v).powered = d.powered :=
  ⟨rfl, rfl, rfl, rfl, rfl, rfl, rfl, rfl, rfl, rfl, rfl, rfl, rfl, rfl, rfl, rfl, rfl, rfl, rfl, rfl, rfl, rfl,
   fun _ => rfl, fun _ _ _ => rfl, fun _ _ => rfl, rfl⟩
@[simp] theorem Dev.setEng_units (d : Dev) (i : Nat) (v : Ve) :
    (∀ j, (d.setEng i v).syn j = d.syn j) ∧ (∀ j, (d.setEng i v).res j = d.res j) ∧
    (∀ j, (d.setEng i v).tx j = d.tx j) ∧ (∀ j, (d.setEng i v).rx j = d.rx j) ∧
    (∀ j, (d.setEng i v).bursts j = d.bursts j) ∧ (∀ j, (d.setEng i v).paPin j = d.paPin j) ∧
    (∀ j, (d.setEng i v).divp j = d.divp j) ∧ (∀ j, (d.setEng i v).block j = d.block j) ∧
    (∀ j, (d.setEng i v).carrier j = d.carrier j) ∧ (∀ j, (d.setEng i v).ctx j = d.ctx j) ∧
    (∀ j, (d.setEng i v).path j = d.path j) ∧ (∀ j, (d.setEng i v).calq j = d.calq j) ∧
    (∀ j, (d.setEng i v).grp j = d.grp j) ∧ (∀ j, (d.setEng i v).latch j = d.latch j) ∧
    (∀ j, (d.setEng i v).slack j = d.slack j) ∧ (∀ j, (d.setEng i v).slackLow j = d.slackLow j) ∧
    (∀ j, (d.setEng i v).fabV j = d.fabV j) ∧ (∀ j, (d.setEng i v).lg j = d.lg j) ∧
    (∀ j, (d.setEng i v).lane j = d.lane j) ∧ (∀ j, (d.setEng i v).egress j = d.egress j) ∧
    (∀ j, (d.setEng i v).wire j = d.wire j) ∧ (∀ j, (d.setEng i v).hiCount j = d.hiCount j) ∧
    (∀ j, (d.setEng i v).framed j = d.framed j) ∧ (∀ j, (d.setEng i v).inPoly j = d.inPoly j) ∧
    (∀ j, (d.setEng i v).egPoly j = d.egPoly j) ∧ (∀ j, (d.setEng i v).chan j = d.chan j) ∧
    (∀ j, (d.setEng i v).src j = d.src j) ∧ (∀ j, (d.setEng i v).tgt j = d.tgt j) ∧
    (∀ j, (d.setEng i v).dom j = d.dom j) ∧ (∀ j, (d.setEng i v).sensor j = d.sensor j) ∧
    (∀ j, (d.setEng i v).supply j = d.supply j) ∧ (∀ j, (d.setEng i v).auxMon j = d.auxMon j) ∧
    (∀ j, (d.setEng i v).member j = d.member j) ∧ (∀ j, (d.setEng i v).bcell j = d.bcell j) :=
  ⟨fun _ => rfl, fun _ => rfl, fun _ => rfl, fun _ => rfl, fun _ => rfl, fun _ => rfl, fun _ => rfl, fun _ => rfl,
   fun _ => rfl, fun _ => rfl, fun _ => rfl, fun _ => rfl, fun _ => rfl, fun _ => rfl, fun _ => rfl, fun _ => rfl,
   fun _ => rfl, fun _ => rfl, fun _ => rfl, fun _ => rfl, fun _ => rfl, fun _ => rfl, fun _ => rfl, fun _ => rfl,
   fun _ => rfl, fun _ => rfl, fun _ => rfl, fun _ => rfl, fun _ => rfl, fun _ => rfl, fun _ => rfl, fun _ => rfl,
   fun _ => rfl, fun _ => rfl⟩

@[simp] theorem Dev.setChan_chan (d : Dev) (i j : Nat) (v : Dma) :
    (d.setChan i v).chan j = if j = i then v else d.chan j := Tbl.get_set _ _ _ _ _
@[simp] theorem Dev.setChan_frame (d : Dev) (i : Nat) (v : Dma) :
    (d.setChan i v).now = d.now ∧ (d.setChan i v).fresh = d.fresh ∧ (d.setChan i v).boot = d.boot ∧
    (d.setChan i v).regs = d.regs ∧ (d.setChan i v).past = d.past ∧ (d.setChan i v).mem = d.mem ∧
    (d.setChan i v).bad = d.bad ∧ (d.setChan i v).cmd = d.cmd ∧ (d.setChan i v).tb = d.tb ∧
    (d.setChan i v).rf = d.rf ∧ (d.setChan i v).blk = d.blk ∧ (d.setChan i v).carr = d.carr ∧
    (d.setChan i v).beam = d.beam ∧ (d.setChan i v).pp = d.pp ∧ (d.setChan i v).cal = d.cal ∧
    (d.setChan i v).link = d.link ∧ (d.setChan i v).ve = d.ve ∧ (d.setChan i v).fills = d.fills ∧
    (d.setChan i v).hub = d.hub ∧ (d.setChan i v).pwr = d.pwr ∧ (d.setChan i v).jtag = d.jtag ∧
    (d.setChan i v).lat = d.lat ∧ (∀ r, (d.setChan i v).reg r = d.reg r) ∧
    (∀ r a b, (d.setChan i v).f r a b = d.f r a b) ∧ (∀ r a, (d.setChan i v).fb r a = d.fb r a) ∧
    (d.setChan i v).powered = d.powered :=
  ⟨rfl, rfl, rfl, rfl, rfl, rfl, rfl, rfl, rfl, rfl, rfl, rfl, rfl, rfl, rfl, rfl, rfl, rfl, rfl, rfl, rfl, rfl,
   fun _ => rfl, fun _ _ _ => rfl, fun _ _ => rfl, rfl⟩
@[simp] theorem Dev.setChan_units (d : Dev) (i : Nat) (v : Dma) :
    (∀ j, (d.setChan i v).syn j = d.syn j) ∧ (∀ j, (d.setChan i v).res j = d.res j) ∧
    (∀ j, (d.setChan i v).tx j = d.tx j) ∧ (∀ j, (d.setChan i v).rx j = d.rx j) ∧
    (∀ j, (d.setChan i v).bursts j = d.bursts j) ∧ (∀ j, (d.setChan i v).paPin j = d.paPin j) ∧
    (∀ j, (d.setChan i v).divp j = d.divp j) ∧ (∀ j, (d.setChan i v).block j = d.block j) ∧
    (∀ j, (d.setChan i v).carrier j = d.carrier j) ∧ (∀ j, (d.setChan i v).ctx j = d.ctx j) ∧
    (∀ j, (d.setChan i v).path j = d.path j) ∧ (∀ j, (d.setChan i v).calq j = d.calq j) ∧
    (∀ j, (d.setChan i v).grp j = d.grp j) ∧ (∀ j, (d.setChan i v).latch j = d.latch j) ∧
    (∀ j, (d.setChan i v).slack j = d.slack j) ∧ (∀ j, (d.setChan i v).slackLow j = d.slackLow j) ∧
    (∀ j, (d.setChan i v).fabV j = d.fabV j) ∧ (∀ j, (d.setChan i v).lg j = d.lg j) ∧
    (∀ j, (d.setChan i v).lane j = d.lane j) ∧ (∀ j, (d.setChan i v).egress j = d.egress j) ∧
    (∀ j, (d.setChan i v).wire j = d.wire j) ∧ (∀ j, (d.setChan i v).hiCount j = d.hiCount j) ∧
    (∀ j, (d.setChan i v).framed j = d.framed j) ∧ (∀ j, (d.setChan i v).inPoly j = d.inPoly j) ∧
    (∀ j, (d.setChan i v).egPoly j = d.egPoly j) ∧ (∀ j, (d.setChan i v).eng j = d.eng j) ∧
    (∀ j, (d.setChan i v).src j = d.src j) ∧ (∀ j, (d.setChan i v).tgt j = d.tgt j) ∧
    (∀ j, (d.setChan i v).dom j = d.dom j) ∧ (∀ j, (d.setChan i v).sensor j = d.sensor j) ∧
    (∀ j, (d.setChan i v).supply j = d.supply j) ∧ (∀ j, (d.setChan i v).auxMon j = d.auxMon j) ∧
    (∀ j, (d.setChan i v).member j = d.member j) ∧ (∀ j, (d.setChan i v).bcell j = d.bcell j) :=
  ⟨fun _ => rfl, fun _ => rfl, fun _ => rfl, fun _ => rfl, fun _ => rfl, fun _ => rfl, fun _ => rfl, fun _ => rfl,
   fun _ => rfl, fun _ => rfl, fun _ => rfl, fun _ => rfl, fun _ => rfl, fun _ => rfl, fun _ => rfl, fun _ => rfl,
   fun _ => rfl, fun _ => rfl, fun _ => rfl, fun _ => rfl, fun _ => rfl, fun _ => rfl, fun _ => rfl, fun _ => rfl,
   fun _ => rfl, fun _ => rfl, fun _ => rfl, fun _ => rfl, fun _ => rfl, fun _ => rfl, fun _ => rfl, fun _ => rfl,
   fun _ => rfl, fun _ => rfl⟩

@[simp] theorem Dev.setSrc_src (d : Dev) (i j : Nat) (v : Src) :
    (d.setSrc i v).src j = if j = i then v else d.src j := Tbl.get_set _ _ _ _ _
@[simp] theorem Dev.setSrc_frame (d : Dev) (i : Nat) (v : Src) :
    (d.setSrc i v).now = d.now ∧ (d.setSrc i v).fresh = d.fresh ∧ (d.setSrc i v).boot = d.boot ∧
    (d.setSrc i v).regs = d.regs ∧ (d.setSrc i v).past = d.past ∧ (d.setSrc i v).mem = d.mem ∧
    (d.setSrc i v).bad = d.bad ∧ (d.setSrc i v).cmd = d.cmd ∧ (d.setSrc i v).tb = d.tb ∧ (d.setSrc i v).rf = d.rf ∧
    (d.setSrc i v).blk = d.blk ∧ (d.setSrc i v).carr = d.carr ∧ (d.setSrc i v).beam = d.beam ∧
    (d.setSrc i v).pp = d.pp ∧ (d.setSrc i v).cal = d.cal ∧ (d.setSrc i v).link = d.link ∧ (d.setSrc i v).ve = d.ve ∧
    (d.setSrc i v).fills = d.fills ∧ (d.setSrc i v).dma = d.dma ∧ (d.setSrc i v).pwr = d.pwr ∧
    (d.setSrc i v).jtag = d.jtag ∧ (d.setSrc i v).lat = d.lat ∧ (∀ r, (d.setSrc i v).reg r = d.reg r) ∧
    (∀ r a b, (d.setSrc i v).f r a b = d.f r a b) ∧ (∀ r a, (d.setSrc i v).fb r a = d.fb r a) ∧
    (d.setSrc i v).powered = d.powered :=
  ⟨rfl, rfl, rfl, rfl, rfl, rfl, rfl, rfl, rfl, rfl, rfl, rfl, rfl, rfl, rfl, rfl, rfl, rfl, rfl, rfl, rfl, rfl,
   fun _ => rfl, fun _ _ _ => rfl, fun _ _ => rfl, rfl⟩
@[simp] theorem Dev.setSrc_units (d : Dev) (i : Nat) (v : Src) :
    (∀ j, (d.setSrc i v).syn j = d.syn j) ∧ (∀ j, (d.setSrc i v).res j = d.res j) ∧
    (∀ j, (d.setSrc i v).tx j = d.tx j) ∧ (∀ j, (d.setSrc i v).rx j = d.rx j) ∧
    (∀ j, (d.setSrc i v).bursts j = d.bursts j) ∧ (∀ j, (d.setSrc i v).paPin j = d.paPin j) ∧
    (∀ j, (d.setSrc i v).divp j = d.divp j) ∧ (∀ j, (d.setSrc i v).block j = d.block j) ∧
    (∀ j, (d.setSrc i v).carrier j = d.carrier j) ∧ (∀ j, (d.setSrc i v).ctx j = d.ctx j) ∧
    (∀ j, (d.setSrc i v).path j = d.path j) ∧ (∀ j, (d.setSrc i v).calq j = d.calq j) ∧
    (∀ j, (d.setSrc i v).grp j = d.grp j) ∧ (∀ j, (d.setSrc i v).latch j = d.latch j) ∧
    (∀ j, (d.setSrc i v).slack j = d.slack j) ∧ (∀ j, (d.setSrc i v).slackLow j = d.slackLow j) ∧
    (∀ j, (d.setSrc i v).fabV j = d.fabV j) ∧ (∀ j, (d.setSrc i v).lg j = d.lg j) ∧
    (∀ j, (d.setSrc i v).lane j = d.lane j) ∧ (∀ j, (d.setSrc i v).egress j = d.egress j) ∧
    (∀ j, (d.setSrc i v).wire j = d.wire j) ∧ (∀ j, (d.setSrc i v).hiCount j = d.hiCount j) ∧
    (∀ j, (d.setSrc i v).framed j = d.framed j) ∧ (∀ j, (d.setSrc i v).inPoly j = d.inPoly j) ∧
    (∀ j, (d.setSrc i v).egPoly j = d.egPoly j) ∧ (∀ j, (d.setSrc i v).eng j = d.eng j) ∧
    (∀ j, (d.setSrc i v).chan j = d.chan j) ∧ (∀ j, (d.setSrc i v).tgt j = d.tgt j) ∧
    (∀ j, (d.setSrc i v).dom j = d.dom j) ∧ (∀ j, (d.setSrc i v).sensor j = d.sensor j) ∧
    (∀ j, (d.setSrc i v).supply j = d.supply j) ∧ (∀ j, (d.setSrc i v).auxMon j = d.auxMon j) ∧
    (∀ j, (d.setSrc i v).member j = d.member j) ∧ (∀ j, (d.setSrc i v).bcell j = d.bcell j) :=
  ⟨fun _ => rfl, fun _ => rfl, fun _ => rfl, fun _ => rfl, fun _ => rfl, fun _ => rfl, fun _ => rfl, fun _ => rfl,
   fun _ => rfl, fun _ => rfl, fun _ => rfl, fun _ => rfl, fun _ => rfl, fun _ => rfl, fun _ => rfl, fun _ => rfl,
   fun _ => rfl, fun _ => rfl, fun _ => rfl, fun _ => rfl, fun _ => rfl, fun _ => rfl, fun _ => rfl, fun _ => rfl,
   fun _ => rfl, fun _ => rfl, fun _ => rfl, fun _ => rfl, fun _ => rfl, fun _ => rfl, fun _ => rfl, fun _ => rfl,
   fun _ => rfl, fun _ => rfl⟩

@[simp] theorem Dev.setTgt_tgt (d : Dev) (i j : Nat) (v : Tgt) :
    (d.setTgt i v).tgt j = if j = i then v else d.tgt j := Tbl.get_set _ _ _ _ _
@[simp] theorem Dev.setTgt_frame (d : Dev) (i : Nat) (v : Tgt) :
    (d.setTgt i v).now = d.now ∧ (d.setTgt i v).fresh = d.fresh ∧ (d.setTgt i v).boot = d.boot ∧
    (d.setTgt i v).regs = d.regs ∧ (d.setTgt i v).past = d.past ∧ (d.setTgt i v).mem = d.mem ∧
    (d.setTgt i v).bad = d.bad ∧ (d.setTgt i v).cmd = d.cmd ∧ (d.setTgt i v).tb = d.tb ∧ (d.setTgt i v).rf = d.rf ∧
    (d.setTgt i v).blk = d.blk ∧ (d.setTgt i v).carr = d.carr ∧ (d.setTgt i v).beam = d.beam ∧
    (d.setTgt i v).pp = d.pp ∧ (d.setTgt i v).cal = d.cal ∧ (d.setTgt i v).link = d.link ∧ (d.setTgt i v).ve = d.ve ∧
    (d.setTgt i v).fills = d.fills ∧ (d.setTgt i v).dma = d.dma ∧ (d.setTgt i v).pwr = d.pwr ∧
    (d.setTgt i v).jtag = d.jtag ∧ (d.setTgt i v).lat = d.lat ∧ (∀ r, (d.setTgt i v).reg r = d.reg r) ∧
    (∀ r a b, (d.setTgt i v).f r a b = d.f r a b) ∧ (∀ r a, (d.setTgt i v).fb r a = d.fb r a) ∧
    (d.setTgt i v).powered = d.powered :=
  ⟨rfl, rfl, rfl, rfl, rfl, rfl, rfl, rfl, rfl, rfl, rfl, rfl, rfl, rfl, rfl, rfl, rfl, rfl, rfl, rfl, rfl, rfl,
   fun _ => rfl, fun _ _ _ => rfl, fun _ _ => rfl, rfl⟩
@[simp] theorem Dev.setTgt_units (d : Dev) (i : Nat) (v : Tgt) :
    (∀ j, (d.setTgt i v).syn j = d.syn j) ∧ (∀ j, (d.setTgt i v).res j = d.res j) ∧
    (∀ j, (d.setTgt i v).tx j = d.tx j) ∧ (∀ j, (d.setTgt i v).rx j = d.rx j) ∧
    (∀ j, (d.setTgt i v).bursts j = d.bursts j) ∧ (∀ j, (d.setTgt i v).paPin j = d.paPin j) ∧
    (∀ j, (d.setTgt i v).divp j = d.divp j) ∧ (∀ j, (d.setTgt i v).block j = d.block j) ∧
    (∀ j, (d.setTgt i v).carrier j = d.carrier j) ∧ (∀ j, (d.setTgt i v).ctx j = d.ctx j) ∧
    (∀ j, (d.setTgt i v).path j = d.path j) ∧ (∀ j, (d.setTgt i v).calq j = d.calq j) ∧
    (∀ j, (d.setTgt i v).grp j = d.grp j) ∧ (∀ j, (d.setTgt i v).latch j = d.latch j) ∧
    (∀ j, (d.setTgt i v).slack j = d.slack j) ∧ (∀ j, (d.setTgt i v).slackLow j = d.slackLow j) ∧
    (∀ j, (d.setTgt i v).fabV j = d.fabV j) ∧ (∀ j, (d.setTgt i v).lg j = d.lg j) ∧
    (∀ j, (d.setTgt i v).lane j = d.lane j) ∧ (∀ j, (d.setTgt i v).egress j = d.egress j) ∧
    (∀ j, (d.setTgt i v).wire j = d.wire j) ∧ (∀ j, (d.setTgt i v).hiCount j = d.hiCount j) ∧
    (∀ j, (d.setTgt i v).framed j = d.framed j) ∧ (∀ j, (d.setTgt i v).inPoly j = d.inPoly j) ∧
    (∀ j, (d.setTgt i v).egPoly j = d.egPoly j) ∧ (∀ j, (d.setTgt i v).eng j = d.eng j) ∧
    (∀ j, (d.setTgt i v).chan j = d.chan j) ∧ (∀ j, (d.setTgt i v).src j = d.src j) ∧
    (∀ j, (d.setTgt i v).dom j = d.dom j) ∧ (∀ j, (d.setTgt i v).sensor j = d.sensor j) ∧
    (∀ j, (d.setTgt i v).supply j = d.supply j) ∧ (∀ j, (d.setTgt i v).auxMon j = d.auxMon j) ∧
    (∀ j, (d.setTgt i v).member j = d.member j) ∧ (∀ j, (d.setTgt i v).bcell j = d.bcell j) :=
  ⟨fun _ => rfl, fun _ => rfl, fun _ => rfl, fun _ => rfl, fun _ => rfl, fun _ => rfl, fun _ => rfl, fun _ => rfl,
   fun _ => rfl, fun _ => rfl, fun _ => rfl, fun _ => rfl, fun _ => rfl, fun _ => rfl, fun _ => rfl, fun _ => rfl,
   fun _ => rfl, fun _ => rfl, fun _ => rfl, fun _ => rfl, fun _ => rfl, fun _ => rfl, fun _ => rfl, fun _ => rfl,
   fun _ => rfl, fun _ => rfl, fun _ => rfl, fun _ => rfl, fun _ => rfl, fun _ => rfl, fun _ => rfl, fun _ => rfl,
   fun _ => rfl, fun _ => rfl⟩

@[simp] theorem Dev.setDom_dom (d : Dev) (i j : Nat) (v : Dom) :
    (d.setDom i v).dom j = if j = i then v else d.dom j := Tbl.get_set _ _ _ _ _
@[simp] theorem Dev.setDom_frame (d : Dev) (i : Nat) (v : Dom) :
    (d.setDom i v).now = d.now ∧ (d.setDom i v).fresh = d.fresh ∧ (d.setDom i v).boot = d.boot ∧
    (d.setDom i v).regs = d.regs ∧ (d.setDom i v).past = d.past ∧ (d.setDom i v).mem = d.mem ∧
    (d.setDom i v).bad = d.bad ∧ (d.setDom i v).cmd = d.cmd ∧ (d.setDom i v).tb = d.tb ∧ (d.setDom i v).rf = d.rf ∧
    (d.setDom i v).blk = d.blk ∧ (d.setDom i v).carr = d.carr ∧ (d.setDom i v).beam = d.beam ∧
    (d.setDom i v).pp = d.pp ∧ (d.setDom i v).cal = d.cal ∧ (d.setDom i v).link = d.link ∧ (d.setDom i v).ve = d.ve ∧
    (d.setDom i v).fills = d.fills ∧ (d.setDom i v).dma = d.dma ∧ (d.setDom i v).hub = d.hub ∧
    (d.setDom i v).jtag = d.jtag ∧ (d.setDom i v).lat = d.lat ∧ (∀ r, (d.setDom i v).reg r = d.reg r) ∧
    (∀ r a b, (d.setDom i v).f r a b = d.f r a b) ∧ (∀ r a, (d.setDom i v).fb r a = d.fb r a) ∧
    (d.setDom i v).powered = d.powered :=
  ⟨rfl, rfl, rfl, rfl, rfl, rfl, rfl, rfl, rfl, rfl, rfl, rfl, rfl, rfl, rfl, rfl, rfl, rfl, rfl, rfl, rfl, rfl,
   fun _ => rfl, fun _ _ _ => rfl, fun _ _ => rfl, rfl⟩
@[simp] theorem Dev.setDom_units (d : Dev) (i : Nat) (v : Dom) :
    (∀ j, (d.setDom i v).syn j = d.syn j) ∧ (∀ j, (d.setDom i v).res j = d.res j) ∧
    (∀ j, (d.setDom i v).tx j = d.tx j) ∧ (∀ j, (d.setDom i v).rx j = d.rx j) ∧
    (∀ j, (d.setDom i v).bursts j = d.bursts j) ∧ (∀ j, (d.setDom i v).paPin j = d.paPin j) ∧
    (∀ j, (d.setDom i v).divp j = d.divp j) ∧ (∀ j, (d.setDom i v).block j = d.block j) ∧
    (∀ j, (d.setDom i v).carrier j = d.carrier j) ∧ (∀ j, (d.setDom i v).ctx j = d.ctx j) ∧
    (∀ j, (d.setDom i v).path j = d.path j) ∧ (∀ j, (d.setDom i v).calq j = d.calq j) ∧
    (∀ j, (d.setDom i v).grp j = d.grp j) ∧ (∀ j, (d.setDom i v).latch j = d.latch j) ∧
    (∀ j, (d.setDom i v).slack j = d.slack j) ∧ (∀ j, (d.setDom i v).slackLow j = d.slackLow j) ∧
    (∀ j, (d.setDom i v).fabV j = d.fabV j) ∧ (∀ j, (d.setDom i v).lg j = d.lg j) ∧
    (∀ j, (d.setDom i v).lane j = d.lane j) ∧ (∀ j, (d.setDom i v).egress j = d.egress j) ∧
    (∀ j, (d.setDom i v).wire j = d.wire j) ∧ (∀ j, (d.setDom i v).hiCount j = d.hiCount j) ∧
    (∀ j, (d.setDom i v).framed j = d.framed j) ∧ (∀ j, (d.setDom i v).inPoly j = d.inPoly j) ∧
    (∀ j, (d.setDom i v).egPoly j = d.egPoly j) ∧ (∀ j, (d.setDom i v).eng j = d.eng j) ∧
    (∀ j, (d.setDom i v).chan j = d.chan j) ∧ (∀ j, (d.setDom i v).src j = d.src j) ∧
    (∀ j, (d.setDom i v).tgt j = d.tgt j) ∧ (∀ j, (d.setDom i v).sensor j = d.sensor j) ∧
    (∀ j, (d.setDom i v).supply j = d.supply j) ∧ (∀ j, (d.setDom i v).auxMon j = d.auxMon j) ∧
    (∀ j, (d.setDom i v).member j = d.member j) ∧ (∀ j, (d.setDom i v).bcell j = d.bcell j) :=
  ⟨fun _ => rfl, fun _ => rfl, fun _ => rfl, fun _ => rfl, fun _ => rfl, fun _ => rfl, fun _ => rfl, fun _ => rfl,
   fun _ => rfl, fun _ => rfl, fun _ => rfl, fun _ => rfl, fun _ => rfl, fun _ => rfl, fun _ => rfl, fun _ => rfl,
   fun _ => rfl, fun _ => rfl, fun _ => rfl, fun _ => rfl, fun _ => rfl, fun _ => rfl, fun _ => rfl, fun _ => rfl,
   fun _ => rfl, fun _ => rfl, fun _ => rfl, fun _ => rfl, fun _ => rfl, fun _ => rfl, fun _ => rfl, fun _ => rfl,
   fun _ => rfl, fun _ => rfl⟩

@[simp] theorem Dev.setSensor_sensor (d : Dev) (i j : Nat) (v : Sensor) :
    (d.setSensor i v).sensor j = if j = i then v else d.sensor j := Tbl.get_set _ _ _ _ _
@[simp] theorem Dev.setSensor_frame (d : Dev) (i : Nat) (v : Sensor) :
    (d.setSensor i v).now = d.now ∧ (d.setSensor i v).fresh = d.fresh ∧ (d.setSensor i v).boot = d.boot ∧
    (d.setSensor i v).regs = d.regs ∧ (d.setSensor i v).past = d.past ∧ (d.setSensor i v).mem = d.mem ∧
    (d.setSensor i v).bad = d.bad ∧ (d.setSensor i v).cmd = d.cmd ∧ (d.setSensor i v).tb = d.tb ∧
    (d.setSensor i v).rf = d.rf ∧ (d.setSensor i v).blk = d.blk ∧ (d.setSensor i v).carr = d.carr ∧
    (d.setSensor i v).beam = d.beam ∧ (d.setSensor i v).pp = d.pp ∧ (d.setSensor i v).cal = d.cal ∧
    (d.setSensor i v).link = d.link ∧ (d.setSensor i v).ve = d.ve ∧ (d.setSensor i v).fills = d.fills ∧
    (d.setSensor i v).dma = d.dma ∧ (d.setSensor i v).hub = d.hub ∧ (d.setSensor i v).jtag = d.jtag ∧
    (d.setSensor i v).lat = d.lat ∧ (∀ r, (d.setSensor i v).reg r = d.reg r) ∧
    (∀ r a b, (d.setSensor i v).f r a b = d.f r a b) ∧ (∀ r a, (d.setSensor i v).fb r a = d.fb r a) ∧
    (d.setSensor i v).powered = d.powered :=
  ⟨rfl, rfl, rfl, rfl, rfl, rfl, rfl, rfl, rfl, rfl, rfl, rfl, rfl, rfl, rfl, rfl, rfl, rfl, rfl, rfl, rfl, rfl,
   fun _ => rfl, fun _ _ _ => rfl, fun _ _ => rfl, rfl⟩
@[simp] theorem Dev.setSensor_units (d : Dev) (i : Nat) (v : Sensor) :
    (∀ j, (d.setSensor i v).syn j = d.syn j) ∧ (∀ j, (d.setSensor i v).res j = d.res j) ∧
    (∀ j, (d.setSensor i v).tx j = d.tx j) ∧ (∀ j, (d.setSensor i v).rx j = d.rx j) ∧
    (∀ j, (d.setSensor i v).bursts j = d.bursts j) ∧ (∀ j, (d.setSensor i v).paPin j = d.paPin j) ∧
    (∀ j, (d.setSensor i v).divp j = d.divp j) ∧ (∀ j, (d.setSensor i v).block j = d.block j) ∧
    (∀ j, (d.setSensor i v).carrier j = d.carrier j) ∧ (∀ j, (d.setSensor i v).ctx j = d.ctx j) ∧
    (∀ j, (d.setSensor i v).path j = d.path j) ∧ (∀ j, (d.setSensor i v).calq j = d.calq j) ∧
    (∀ j, (d.setSensor i v).grp j = d.grp j) ∧ (∀ j, (d.setSensor i v).latch j = d.latch j) ∧
    (∀ j, (d.setSensor i v).slack j = d.slack j) ∧ (∀ j, (d.setSensor i v).slackLow j = d.slackLow j) ∧
    (∀ j, (d.setSensor i v).fabV j = d.fabV j) ∧ (∀ j, (d.setSensor i v).lg j = d.lg j) ∧
    (∀ j, (d.setSensor i v).lane j = d.lane j) ∧ (∀ j, (d.setSensor i v).egress j = d.egress j) ∧
    (∀ j, (d.setSensor i v).wire j = d.wire j) ∧ (∀ j, (d.setSensor i v).hiCount j = d.hiCount j) ∧
    (∀ j, (d.setSensor i v).framed j = d.framed j) ∧ (∀ j, (d.setSensor i v).inPoly j = d.inPoly j) ∧
    (∀ j, (d.setSensor i v).egPoly j = d.egPoly j) ∧ (∀ j, (d.setSensor i v).eng j = d.eng j) ∧
    (∀ j, (d.setSensor i v).chan j = d.chan j) ∧ (∀ j, (d.setSensor i v).src j = d.src j) ∧
    (∀ j, (d.setSensor i v).tgt j = d.tgt j) ∧ (∀ j, (d.setSensor i v).dom j = d.dom j) ∧
    (∀ j, (d.setSensor i v).supply j = d.supply j) ∧ (∀ j, (d.setSensor i v).auxMon j = d.auxMon j) ∧
    (∀ j, (d.setSensor i v).member j = d.member j) ∧ (∀ j, (d.setSensor i v).bcell j = d.bcell j) :=
  ⟨fun _ => rfl, fun _ => rfl, fun _ => rfl, fun _ => rfl, fun _ => rfl, fun _ => rfl, fun _ => rfl, fun _ => rfl,
   fun _ => rfl, fun _ => rfl, fun _ => rfl, fun _ => rfl, fun _ => rfl, fun _ => rfl, fun _ => rfl, fun _ => rfl,
   fun _ => rfl, fun _ => rfl, fun _ => rfl, fun _ => rfl, fun _ => rfl, fun _ => rfl, fun _ => rfl, fun _ => rfl,
   fun _ => rfl, fun _ => rfl, fun _ => rfl, fun _ => rfl, fun _ => rfl, fun _ => rfl, fun _ => rfl, fun _ => rfl,
   fun _ => rfl, fun _ => rfl⟩

@[simp] theorem Dev.setSupply_supply (d : Dev) (i j : Nat) (v : Supply) :
    (d.setSupply i v).supply j = if j = i then v else d.supply j := Tbl.get_set _ _ _ _ _
@[simp] theorem Dev.setSupply_frame (d : Dev) (i : Nat) (v : Supply) :
    (d.setSupply i v).now = d.now ∧ (d.setSupply i v).fresh = d.fresh ∧ (d.setSupply i v).boot = d.boot ∧
    (d.setSupply i v).regs = d.regs ∧ (d.setSupply i v).past = d.past ∧ (d.setSupply i v).mem = d.mem ∧
    (d.setSupply i v).bad = d.bad ∧ (d.setSupply i v).cmd = d.cmd ∧ (d.setSupply i v).tb = d.tb ∧
    (d.setSupply i v).rf = d.rf ∧ (d.setSupply i v).blk = d.blk ∧ (d.setSupply i v).carr = d.carr ∧
    (d.setSupply i v).beam = d.beam ∧ (d.setSupply i v).pp = d.pp ∧ (d.setSupply i v).cal = d.cal ∧
    (d.setSupply i v).link = d.link ∧ (d.setSupply i v).ve = d.ve ∧ (d.setSupply i v).fills = d.fills ∧
    (d.setSupply i v).dma = d.dma ∧ (d.setSupply i v).hub = d.hub ∧ (d.setSupply i v).jtag = d.jtag ∧
    (d.setSupply i v).lat = d.lat ∧ (∀ r, (d.setSupply i v).reg r = d.reg r) ∧
    (∀ r a b, (d.setSupply i v).f r a b = d.f r a b) ∧ (∀ r a, (d.setSupply i v).fb r a = d.fb r a) ∧
    (d.setSupply i v).powered = d.powered :=
  ⟨rfl, rfl, rfl, rfl, rfl, rfl, rfl, rfl, rfl, rfl, rfl, rfl, rfl, rfl, rfl, rfl, rfl, rfl, rfl, rfl, rfl, rfl,
   fun _ => rfl, fun _ _ _ => rfl, fun _ _ => rfl, rfl⟩
@[simp] theorem Dev.setSupply_units (d : Dev) (i : Nat) (v : Supply) :
    (∀ j, (d.setSupply i v).syn j = d.syn j) ∧ (∀ j, (d.setSupply i v).res j = d.res j) ∧
    (∀ j, (d.setSupply i v).tx j = d.tx j) ∧ (∀ j, (d.setSupply i v).rx j = d.rx j) ∧
    (∀ j, (d.setSupply i v).bursts j = d.bursts j) ∧ (∀ j, (d.setSupply i v).paPin j = d.paPin j) ∧
    (∀ j, (d.setSupply i v).divp j = d.divp j) ∧ (∀ j, (d.setSupply i v).block j = d.block j) ∧
    (∀ j, (d.setSupply i v).carrier j = d.carrier j) ∧ (∀ j, (d.setSupply i v).ctx j = d.ctx j) ∧
    (∀ j, (d.setSupply i v).path j = d.path j) ∧ (∀ j, (d.setSupply i v).calq j = d.calq j) ∧
    (∀ j, (d.setSupply i v).grp j = d.grp j) ∧ (∀ j, (d.setSupply i v).latch j = d.latch j) ∧
    (∀ j, (d.setSupply i v).slack j = d.slack j) ∧ (∀ j, (d.setSupply i v).slackLow j = d.slackLow j) ∧
    (∀ j, (d.setSupply i v).fabV j = d.fabV j) ∧ (∀ j, (d.setSupply i v).lg j = d.lg j) ∧
    (∀ j, (d.setSupply i v).lane j = d.lane j) ∧ (∀ j, (d.setSupply i v).egress j = d.egress j) ∧
    (∀ j, (d.setSupply i v).wire j = d.wire j) ∧ (∀ j, (d.setSupply i v).hiCount j = d.hiCount j) ∧
    (∀ j, (d.setSupply i v).framed j = d.framed j) ∧ (∀ j, (d.setSupply i v).inPoly j = d.inPoly j) ∧
    (∀ j, (d.setSupply i v).egPoly j = d.egPoly j) ∧ (∀ j, (d.setSupply i v).eng j = d.eng j) ∧
    (∀ j, (d.setSupply i v).chan j = d.chan j) ∧ (∀ j, (d.setSupply i v).src j = d.src j) ∧
    (∀ j, (d.setSupply i v).tgt j = d.tgt j) ∧ (∀ j, (d.setSupply i v).dom j = d.dom j) ∧
    (∀ j, (d.setSupply i v).sensor j = d.sensor j) ∧ (∀ j, (d.setSupply i v).auxMon j = d.auxMon j) ∧
    (∀ j, (d.setSupply i v).member j = d.member j) ∧ (∀ j, (d.setSupply i v).bcell j = d.bcell j) :=
  ⟨fun _ => rfl, fun _ => rfl, fun _ => rfl, fun _ => rfl, fun _ => rfl, fun _ => rfl, fun _ => rfl, fun _ => rfl,
   fun _ => rfl, fun _ => rfl, fun _ => rfl, fun _ => rfl, fun _ => rfl, fun _ => rfl, fun _ => rfl, fun _ => rfl,
   fun _ => rfl, fun _ => rfl, fun _ => rfl, fun _ => rfl, fun _ => rfl, fun _ => rfl, fun _ => rfl, fun _ => rfl,
   fun _ => rfl, fun _ => rfl, fun _ => rfl, fun _ => rfl, fun _ => rfl, fun _ => rfl, fun _ => rfl, fun _ => rfl,
   fun _ => rfl, fun _ => rfl⟩

@[simp] theorem Dev.setAuxMon_auxMon (d : Dev) (i j : Nat) (v : Aux) :
    (d.setAuxMon i v).auxMon j = if j = i then v else d.auxMon j := Tbl.get_set _ _ _ _ _
@[simp] theorem Dev.setAuxMon_frame (d : Dev) (i : Nat) (v : Aux) :
    (d.setAuxMon i v).now = d.now ∧ (d.setAuxMon i v).fresh = d.fresh ∧ (d.setAuxMon i v).boot = d.boot ∧
    (d.setAuxMon i v).regs = d.regs ∧ (d.setAuxMon i v).past = d.past ∧ (d.setAuxMon i v).mem = d.mem ∧
    (d.setAuxMon i v).bad = d.bad ∧ (d.setAuxMon i v).cmd = d.cmd ∧ (d.setAuxMon i v).tb = d.tb ∧
    (d.setAuxMon i v).rf = d.rf ∧ (d.setAuxMon i v).blk = d.blk ∧ (d.setAuxMon i v).carr = d.carr ∧
    (d.setAuxMon i v).beam = d.beam ∧ (d.setAuxMon i v).pp = d.pp ∧ (d.setAuxMon i v).cal = d.cal ∧
    (d.setAuxMon i v).link = d.link ∧ (d.setAuxMon i v).ve = d.ve ∧ (d.setAuxMon i v).fills = d.fills ∧
    (d.setAuxMon i v).dma = d.dma ∧ (d.setAuxMon i v).hub = d.hub ∧ (d.setAuxMon i v).jtag = d.jtag ∧
    (d.setAuxMon i v).lat = d.lat ∧ (∀ r, (d.setAuxMon i v).reg r = d.reg r) ∧
    (∀ r a b, (d.setAuxMon i v).f r a b = d.f r a b) ∧ (∀ r a, (d.setAuxMon i v).fb r a = d.fb r a) ∧
    (d.setAuxMon i v).powered = d.powered :=
  ⟨rfl, rfl, rfl, rfl, rfl, rfl, rfl, rfl, rfl, rfl, rfl, rfl, rfl, rfl, rfl, rfl, rfl, rfl, rfl, rfl, rfl, rfl,
   fun _ => rfl, fun _ _ _ => rfl, fun _ _ => rfl, rfl⟩
@[simp] theorem Dev.setAuxMon_units (d : Dev) (i : Nat) (v : Aux) :
    (∀ j, (d.setAuxMon i v).syn j = d.syn j) ∧ (∀ j, (d.setAuxMon i v).res j = d.res j) ∧
    (∀ j, (d.setAuxMon i v).tx j = d.tx j) ∧ (∀ j, (d.setAuxMon i v).rx j = d.rx j) ∧
    (∀ j, (d.setAuxMon i v).bursts j = d.bursts j) ∧ (∀ j, (d.setAuxMon i v).paPin j = d.paPin j) ∧
    (∀ j, (d.setAuxMon i v).divp j = d.divp j) ∧ (∀ j, (d.setAuxMon i v).block j = d.block j) ∧
    (∀ j, (d.setAuxMon i v).carrier j = d.carrier j) ∧ (∀ j, (d.setAuxMon i v).ctx j = d.ctx j) ∧
    (∀ j, (d.setAuxMon i v).path j = d.path j) ∧ (∀ j, (d.setAuxMon i v).calq j = d.calq j) ∧
    (∀ j, (d.setAuxMon i v).grp j = d.grp j) ∧ (∀ j, (d.setAuxMon i v).latch j = d.latch j) ∧
    (∀ j, (d.setAuxMon i v).slack j = d.slack j) ∧ (∀ j, (d.setAuxMon i v).slackLow j = d.slackLow j) ∧
    (∀ j, (d.setAuxMon i v).fabV j = d.fabV j) ∧ (∀ j, (d.setAuxMon i v).lg j = d.lg j) ∧
    (∀ j, (d.setAuxMon i v).lane j = d.lane j) ∧ (∀ j, (d.setAuxMon i v).egress j = d.egress j) ∧
    (∀ j, (d.setAuxMon i v).wire j = d.wire j) ∧ (∀ j, (d.setAuxMon i v).hiCount j = d.hiCount j) ∧
    (∀ j, (d.setAuxMon i v).framed j = d.framed j) ∧ (∀ j, (d.setAuxMon i v).inPoly j = d.inPoly j) ∧
    (∀ j, (d.setAuxMon i v).egPoly j = d.egPoly j) ∧ (∀ j, (d.setAuxMon i v).eng j = d.eng j) ∧
    (∀ j, (d.setAuxMon i v).chan j = d.chan j) ∧ (∀ j, (d.setAuxMon i v).src j = d.src j) ∧
    (∀ j, (d.setAuxMon i v).tgt j = d.tgt j) ∧ (∀ j, (d.setAuxMon i v).dom j = d.dom j) ∧
    (∀ j, (d.setAuxMon i v).sensor j = d.sensor j) ∧ (∀ j, (d.setAuxMon i v).supply j = d.supply j) ∧
    (∀ j, (d.setAuxMon i v).member j = d.member j) ∧ (∀ j, (d.setAuxMon i v).bcell j = d.bcell j) :=
  ⟨fun _ => rfl, fun _ => rfl, fun _ => rfl, fun _ => rfl, fun _ => rfl, fun _ => rfl, fun _ => rfl, fun _ => rfl,
   fun _ => rfl, fun _ => rfl, fun _ => rfl, fun _ => rfl, fun _ => rfl, fun _ => rfl, fun _ => rfl, fun _ => rfl,
   fun _ => rfl, fun _ => rfl, fun _ => rfl, fun _ => rfl, fun _ => rfl, fun _ => rfl, fun _ => rfl, fun _ => rfl,
   fun _ => rfl, fun _ => rfl, fun _ => rfl, fun _ => rfl, fun _ => rfl, fun _ => rfl, fun _ => rfl, fun _ => rfl,
   fun _ => rfl, fun _ => rfl⟩

@[simp] theorem Dev.setMember_member (d : Dev) (i j : Nat) (v : Member) :
    (d.setMember i v).member j = if j = i then v else d.member j := Tbl.get_set _ _ _ _ _
@[simp] theorem Dev.setMember_frame (d : Dev) (i : Nat) (v : Member) :
    (d.setMember i v).now = d.now ∧ (d.setMember i v).fresh = d.fresh ∧ (d.setMember i v).boot = d.boot ∧
    (d.setMember i v).regs = d.regs ∧ (d.setMember i v).past = d.past ∧ (d.setMember i v).mem = d.mem ∧
    (d.setMember i v).bad = d.bad ∧ (d.setMember i v).cmd = d.cmd ∧ (d.setMember i v).tb = d.tb ∧
    (d.setMember i v).rf = d.rf ∧ (d.setMember i v).blk = d.blk ∧ (d.setMember i v).carr = d.carr ∧
    (d.setMember i v).beam = d.beam ∧ (d.setMember i v).pp = d.pp ∧ (d.setMember i v).cal = d.cal ∧
    (d.setMember i v).link = d.link ∧ (d.setMember i v).ve = d.ve ∧ (d.setMember i v).fills = d.fills ∧
    (d.setMember i v).dma = d.dma ∧ (d.setMember i v).hub = d.hub ∧ (d.setMember i v).pwr = d.pwr ∧
    (d.setMember i v).jtag = d.jtag ∧ (∀ r, (d.setMember i v).reg r = d.reg r) ∧
    (∀ r a b, (d.setMember i v).f r a b = d.f r a b) ∧ (∀ r a, (d.setMember i v).fb r a = d.fb r a) ∧
    (d.setMember i v).powered = d.powered :=
  ⟨rfl, rfl, rfl, rfl, rfl, rfl, rfl, rfl, rfl, rfl, rfl, rfl, rfl, rfl, rfl, rfl, rfl, rfl, rfl, rfl, rfl, rfl,
   fun _ => rfl, fun _ _ _ => rfl, fun _ _ => rfl, rfl⟩
@[simp] theorem Dev.setMember_units (d : Dev) (i : Nat) (v : Member) :
    (∀ j, (d.setMember i v).syn j = d.syn j) ∧ (∀ j, (d.setMember i v).res j = d.res j) ∧
    (∀ j, (d.setMember i v).tx j = d.tx j) ∧ (∀ j, (d.setMember i v).rx j = d.rx j) ∧
    (∀ j, (d.setMember i v).bursts j = d.bursts j) ∧ (∀ j, (d.setMember i v).paPin j = d.paPin j) ∧
    (∀ j, (d.setMember i v).divp j = d.divp j) ∧ (∀ j, (d.setMember i v).block j = d.block j) ∧
    (∀ j, (d.setMember i v).carrier j = d.carrier j) ∧ (∀ j, (d.setMember i v).ctx j = d.ctx j) ∧
    (∀ j, (d.setMember i v).path j = d.path j) ∧ (∀ j, (d.setMember i v).calq j = d.calq j) ∧
    (∀ j, (d.setMember i v).grp j = d.grp j) ∧ (∀ j, (d.setMember i v).latch j = d.latch j) ∧
    (∀ j, (d.setMember i v).slack j = d.slack j) ∧ (∀ j, (d.setMember i v).slackLow j = d.slackLow j) ∧
    (∀ j, (d.setMember i v).fabV j = d.fabV j) ∧ (∀ j, (d.setMember i v).lg j = d.lg j) ∧
    (∀ j, (d.setMember i v).lane j = d.lane j) ∧ (∀ j, (d.setMember i v).egress j = d.egress j) ∧
    (∀ j, (d.setMember i v).wire j = d.wire j) ∧ (∀ j, (d.setMember i v).hiCount j = d.hiCount j) ∧
    (∀ j, (d.setMember i v).framed j = d.framed j) ∧ (∀ j, (d.setMember i v).inPoly j = d.inPoly j) ∧
    (∀ j, (d.setMember i v).egPoly j = d.egPoly j) ∧ (∀ j, (d.setMember i v).eng j = d.eng j) ∧
    (∀ j, (d.setMember i v).chan j = d.chan j) ∧ (∀ j, (d.setMember i v).src j = d.src j) ∧
    (∀ j, (d.setMember i v).tgt j = d.tgt j) ∧ (∀ j, (d.setMember i v).dom j = d.dom j) ∧
    (∀ j, (d.setMember i v).sensor j = d.sensor j) ∧ (∀ j, (d.setMember i v).supply j = d.supply j) ∧
    (∀ j, (d.setMember i v).auxMon j = d.auxMon j) ∧ (∀ j, (d.setMember i v).bcell j = d.bcell j) :=
  ⟨fun _ => rfl, fun _ => rfl, fun _ => rfl, fun _ => rfl, fun _ => rfl, fun _ => rfl, fun _ => rfl, fun _ => rfl,
   fun _ => rfl, fun _ => rfl, fun _ => rfl, fun _ => rfl, fun _ => rfl, fun _ => rfl, fun _ => rfl, fun _ => rfl,
   fun _ => rfl, fun _ => rfl, fun _ => rfl, fun _ => rfl, fun _ => rfl, fun _ => rfl, fun _ => rfl, fun _ => rfl,
   fun _ => rfl, fun _ => rfl, fun _ => rfl, fun _ => rfl, fun _ => rfl, fun _ => rfl, fun _ => rfl, fun _ => rfl,
   fun _ => rfl, fun _ => rfl⟩

@[simp] theorem Dev.setBcell_bcell (d : Dev) (i j : Nat) (v : Bool) :
    (d.setBcell i v).bcell j = if j = i then v else d.bcell j := Tbl.get_set _ _ _ _ _
@[simp] theorem Dev.setBcell_frame (d : Dev) (i : Nat) (v : Bool) :
    (d.setBcell i v).now = d.now ∧ (d.setBcell i v).fresh = d.fresh ∧ (d.setBcell i v).boot = d.boot ∧
    (d.setBcell i v).regs = d.regs ∧ (d.setBcell i v).past = d.past ∧ (d.setBcell i v).mem = d.mem ∧
    (d.setBcell i v).bad = d.bad ∧ (d.setBcell i v).cmd = d.cmd ∧ (d.setBcell i v).tb = d.tb ∧
    (d.setBcell i v).rf = d.rf ∧ (d.setBcell i v).blk = d.blk ∧ (d.setBcell i v).carr = d.carr ∧
    (d.setBcell i v).beam = d.beam ∧ (d.setBcell i v).pp = d.pp ∧ (d.setBcell i v).cal = d.cal ∧
    (d.setBcell i v).link = d.link ∧ (d.setBcell i v).ve = d.ve ∧ (d.setBcell i v).fills = d.fills ∧
    (d.setBcell i v).dma = d.dma ∧ (d.setBcell i v).hub = d.hub ∧ (d.setBcell i v).pwr = d.pwr ∧
    (d.setBcell i v).lat = d.lat ∧ (∀ r, (d.setBcell i v).reg r = d.reg r) ∧
    (∀ r a b, (d.setBcell i v).f r a b = d.f r a b) ∧ (∀ r a, (d.setBcell i v).fb r a = d.fb r a) ∧
    (d.setBcell i v).powered = d.powered :=
  ⟨rfl, rfl, rfl, rfl, rfl, rfl, rfl, rfl, rfl, rfl, rfl, rfl, rfl, rfl, rfl, rfl, rfl, rfl, rfl, rfl, rfl, rfl,
   fun _ => rfl, fun _ _ _ => rfl, fun _ _ => rfl, rfl⟩
@[simp] theorem Dev.setBcell_units (d : Dev) (i : Nat) (v : Bool) :
    (∀ j, (d.setBcell i v).syn j = d.syn j) ∧ (∀ j, (d.setBcell i v).res j = d.res j) ∧
    (∀ j, (d.setBcell i v).tx j = d.tx j) ∧ (∀ j, (d.setBcell i v).rx j = d.rx j) ∧
    (∀ j, (d.setBcell i v).bursts j = d.bursts j) ∧ (∀ j, (d.setBcell i v).paPin j = d.paPin j) ∧
    (∀ j, (d.setBcell i v).divp j = d.divp j) ∧ (∀ j, (d.setBcell i v).block j = d.block j) ∧
    (∀ j, (d.setBcell i v).carrier j = d.carrier j) ∧ (∀ j, (d.setBcell i v).ctx j = d.ctx j) ∧
    (∀ j, (d.setBcell i v).path j = d.path j) ∧ (∀ j, (d.setBcell i v).calq j = d.calq j) ∧
    (∀ j, (d.setBcell i v).grp j = d.grp j) ∧ (∀ j, (d.setBcell i v).latch j = d.latch j) ∧
    (∀ j, (d.setBcell i v).slack j = d.slack j) ∧ (∀ j, (d.setBcell i v).slackLow j = d.slackLow j) ∧
    (∀ j, (d.setBcell i v).fabV j = d.fabV j) ∧ (∀ j, (d.setBcell i v).lg j = d.lg j) ∧
    (∀ j, (d.setBcell i v).lane j = d.lane j) ∧ (∀ j, (d.setBcell i v).egress j = d.egress j) ∧
    (∀ j, (d.setBcell i v).wire j = d.wire j) ∧ (∀ j, (d.setBcell i v).hiCount j = d.hiCount j) ∧
    (∀ j, (d.setBcell i v).framed j = d.framed j) ∧ (∀ j, (d.setBcell i v).inPoly j = d.inPoly j) ∧
    (∀ j, (d.setBcell i v).egPoly j = d.egPoly j) ∧ (∀ j, (d.setBcell i v).eng j = d.eng j) ∧
    (∀ j, (d.setBcell i v).chan j = d.chan j) ∧ (∀ j, (d.setBcell i v).src j = d.src j) ∧
    (∀ j, (d.setBcell i v).tgt j = d.tgt j) ∧ (∀ j, (d.setBcell i v).dom j = d.dom j) ∧
    (∀ j, (d.setBcell i v).sensor j = d.sensor j) ∧ (∀ j, (d.setBcell i v).supply j = d.supply j) ∧
    (∀ j, (d.setBcell i v).auxMon j = d.auxMon j) ∧ (∀ j, (d.setBcell i v).member j = d.member j) :=
  ⟨fun _ => rfl, fun _ => rfl, fun _ => rfl, fun _ => rfl, fun _ => rfl, fun _ => rfl, fun _ => rfl, fun _ => rfl,
   fun _ => rfl, fun _ => rfl, fun _ => rfl, fun _ => rfl, fun _ => rfl, fun _ => rfl, fun _ => rfl, fun _ => rfl,
   fun _ => rfl, fun _ => rfl, fun _ => rfl, fun _ => rfl, fun _ => rfl, fun _ => rfl, fun _ => rfl, fun _ => rfl,
   fun _ => rfl, fun _ => rfl, fun _ => rfl, fun _ => rfl, fun _ => rfl, fun _ => rfl, fun _ => rfl, fun _ => rfl,
   fun _ => rfl, fun _ => rfl⟩

@[simp] theorem Dev.goTo_frame (d : Dev) (t : Nat) :
    (d.goTo t).fresh = d.fresh ∧ (d.goTo t).boot = d.boot ∧ (d.goTo t).regs = d.regs ∧ (d.goTo t).past = d.past ∧
    (d.goTo t).mem = d.mem ∧ (d.goTo t).bad = d.bad ∧ (d.goTo t).cmd = d.cmd ∧ (d.goTo t).tb = d.tb ∧
    (d.goTo t).rf = d.rf ∧ (d.goTo t).blk = d.blk ∧ (d.goTo t).carr = d.carr ∧ (d.goTo t).beam = d.beam ∧
    (d.goTo t).pp = d.pp ∧ (d.goTo t).cal = d.cal ∧ (d.goTo t).link = d.link ∧ (d.goTo t).ve = d.ve ∧
    (d.goTo t).fills = d.fills ∧ (d.goTo t).dma = d.dma ∧ (d.goTo t).hub = d.hub ∧ (d.goTo t).pwr = d.pwr ∧
    (d.goTo t).jtag = d.jtag ∧ (d.goTo t).lat = d.lat ∧ (∀ r, (d.goTo t).reg r = d.reg r) ∧
    (∀ r a b, (d.goTo t).f r a b = d.f r a b) ∧ (∀ r a, (d.goTo t).fb r a = d.fb r a) ∧
    (d.goTo t).powered = d.powered :=
  ⟨rfl, rfl, rfl, rfl, rfl, rfl, rfl, rfl, rfl, rfl, rfl, rfl, rfl, rfl, rfl, rfl, rfl, rfl, rfl, rfl, rfl, rfl,
   fun _ => rfl, fun _ _ _ => rfl, fun _ _ => rfl, rfl⟩
@[simp] theorem Dev.goTo_units (d : Dev) (t : Nat) :
    (∀ j, (d.goTo t).syn j = d.syn j) ∧ (∀ j, (d.goTo t).res j = d.res j) ∧ (∀ j, (d.goTo t).tx j = d.tx j) ∧
    (∀ j, (d.goTo t).rx j = d.rx j) ∧ (∀ j, (d.goTo t).bursts j = d.bursts j) ∧
    (∀ j, (d.goTo t).paPin j = d.paPin j) ∧ (∀ j, (d.goTo t).divp j = d.divp j) ∧
    (∀ j, (d.goTo t).block j = d.block j) ∧ (∀ j, (d.goTo t).carrier j = d.carrier j) ∧
    (∀ j, (d.goTo t).ctx j = d.ctx j) ∧ (∀ j, (d.goTo t).path j = d.path j) ∧ (∀ j, (d.goTo t).calq j = d.calq j) ∧
    (∀ j, (d.goTo t).grp j = d.grp j) ∧ (∀ j, (d.goTo t).latch j = d.latch j) ∧
    (∀ j, (d.goTo t).slack j = d.slack j) ∧ (∀ j, (d.goTo t).slackLow j = d.slackLow j) ∧
    (∀ j, (d.goTo t).fabV j = d.fabV j) ∧ (∀ j, (d.goTo t).lg j = d.lg j) ∧ (∀ j, (d.goTo t).lane j = d.lane j) ∧
    (∀ j, (d.goTo t).egress j = d.egress j) ∧ (∀ j, (d.goTo t).wire j = d.wire j) ∧
    (∀ j, (d.goTo t).hiCount j = d.hiCount j) ∧ (∀ j, (d.goTo t).framed j = d.framed j) ∧
    (∀ j, (d.goTo t).inPoly j = d.inPoly j) ∧ (∀ j, (d.goTo t).egPoly j = d.egPoly j) ∧
    (∀ j, (d.goTo t).eng j = d.eng j) ∧ (∀ j, (d.goTo t).chan j = d.chan j) ∧ (∀ j, (d.goTo t).src j = d.src j) ∧
    (∀ j, (d.goTo t).tgt j = d.tgt j) ∧ (∀ j, (d.goTo t).dom j = d.dom j) ∧ (∀ j, (d.goTo t).sensor j = d.sensor j) ∧
    (∀ j, (d.goTo t).supply j = d.supply j) ∧ (∀ j, (d.goTo t).auxMon j = d.auxMon j) ∧
    (∀ j, (d.goTo t).member j = d.member j) ∧ (∀ j, (d.goTo t).bcell j = d.bcell j) :=
  ⟨fun _ => rfl, fun _ => rfl, fun _ => rfl, fun _ => rfl, fun _ => rfl, fun _ => rfl, fun _ => rfl, fun _ => rfl,
   fun _ => rfl, fun _ => rfl, fun _ => rfl, fun _ => rfl, fun _ => rfl, fun _ => rfl, fun _ => rfl, fun _ => rfl,
   fun _ => rfl, fun _ => rfl, fun _ => rfl, fun _ => rfl, fun _ => rfl, fun _ => rfl, fun _ => rfl, fun _ => rfl,
   fun _ => rfl, fun _ => rfl, fun _ => rfl, fun _ => rfl, fun _ => rfl, fun _ => rfl, fun _ => rfl, fun _ => rfl,
   fun _ => rfl, fun _ => rfl, fun _ => rfl⟩
@[simp] theorem Dev.goTo_now (d : Dev) (t : Nat) : (d.goTo t).now = max d.now t := rfl

@[simp] theorem Dev.used_frame (d : Dev) :
    (d.used).now = d.now ∧ (d.used).boot = d.boot ∧ (d.used).regs = d.regs ∧ (d.used).past = d.past ∧
    (d.used).mem = d.mem ∧ (d.used).bad = d.bad ∧ (d.used).cmd = d.cmd ∧ (d.used).tb = d.tb ∧ (d.used).rf = d.rf ∧
    (d.used).blk = d.blk ∧ (d.used).carr = d.carr ∧ (d.used).beam = d.beam ∧ (d.used).pp = d.pp ∧
    (d.used).cal = d.cal ∧ (d.used).link = d.link ∧ (d.used).ve = d.ve ∧ (d.used).fills = d.fills ∧
    (d.used).dma = d.dma ∧ (d.used).hub = d.hub ∧ (d.used).pwr = d.pwr ∧ (d.used).jtag = d.jtag ∧
    (d.used).lat = d.lat ∧ (∀ r, (d.used).reg r = d.reg r) ∧ (∀ r a b, (d.used).f r a b = d.f r a b) ∧
    (∀ r a, (d.used).fb r a = d.fb r a) ∧ (d.used).powered = d.powered :=
  ⟨rfl, rfl, rfl, rfl, rfl, rfl, rfl, rfl, rfl, rfl, rfl, rfl, rfl, rfl, rfl, rfl, rfl, rfl, rfl, rfl, rfl, rfl,
   fun _ => rfl, fun _ _ _ => rfl, fun _ _ => rfl, rfl⟩
@[simp] theorem Dev.used_units (d : Dev) :
    (∀ j, (d.used).syn j = d.syn j) ∧ (∀ j, (d.used).res j = d.res j) ∧ (∀ j, (d.used).tx j = d.tx j) ∧
    (∀ j, (d.used).rx j = d.rx j) ∧ (∀ j, (d.used).bursts j = d.bursts j) ∧ (∀ j, (d.used).paPin j = d.paPin j) ∧
    (∀ j, (d.used).divp j = d.divp j) ∧ (∀ j, (d.used).block j = d.block j) ∧
    (∀ j, (d.used).carrier j = d.carrier j) ∧ (∀ j, (d.used).ctx j = d.ctx j) ∧ (∀ j, (d.used).path j = d.path j) ∧
    (∀ j, (d.used).calq j = d.calq j) ∧ (∀ j, (d.used).grp j = d.grp j) ∧ (∀ j, (d.used).latch j = d.latch j) ∧
    (∀ j, (d.used).slack j = d.slack j) ∧ (∀ j, (d.used).slackLow j = d.slackLow j) ∧
    (∀ j, (d.used).fabV j = d.fabV j) ∧ (∀ j, (d.used).lg j = d.lg j) ∧ (∀ j, (d.used).lane j = d.lane j) ∧
    (∀ j, (d.used).egress j = d.egress j) ∧ (∀ j, (d.used).wire j = d.wire j) ∧
    (∀ j, (d.used).hiCount j = d.hiCount j) ∧ (∀ j, (d.used).framed j = d.framed j) ∧
    (∀ j, (d.used).inPoly j = d.inPoly j) ∧ (∀ j, (d.used).egPoly j = d.egPoly j) ∧ (∀ j, (d.used).eng j = d.eng j) ∧
    (∀ j, (d.used).chan j = d.chan j) ∧ (∀ j, (d.used).src j = d.src j) ∧ (∀ j, (d.used).tgt j = d.tgt j) ∧
    (∀ j, (d.used).dom j = d.dom j) ∧ (∀ j, (d.used).sensor j = d.sensor j) ∧ (∀ j, (d.used).supply j = d.supply j) ∧
    (∀ j, (d.used).auxMon j = d.auxMon j) ∧ (∀ j, (d.used).member j = d.member j) ∧
    (∀ j, (d.used).bcell j = d.bcell j) :=
  ⟨fun _ => rfl, fun _ => rfl, fun _ => rfl, fun _ => rfl, fun _ => rfl, fun _ => rfl, fun _ => rfl, fun _ => rfl,
   fun _ => rfl, fun _ => rfl, fun _ => rfl, fun _ => rfl, fun _ => rfl, fun _ => rfl, fun _ => rfl, fun _ => rfl,
   fun _ => rfl, fun _ => rfl, fun _ => rfl, fun _ => rfl, fun _ => rfl, fun _ => rfl, fun _ => rfl, fun _ => rfl,
   fun _ => rfl, fun _ => rfl, fun _ => rfl, fun _ => rfl, fun _ => rfl, fun _ => rfl, fun _ => rfl, fun _ => rfl,
   fun _ => rfl, fun _ => rfl, fun _ => rfl⟩

@[simp] theorem Dev.setReg_frame (d : Dev) (r : Reg) (w : Word) :
    (d.setReg r w).now = d.now ∧ (d.setReg r w).fresh = d.fresh ∧ (d.setReg r w).boot = d.boot ∧
    (d.setReg r w).past = d.past ∧ (d.setReg r w).mem = d.mem ∧ (d.setReg r w).bad = d.bad ∧
    (d.setReg r w).cmd = d.cmd ∧ (d.setReg r w).tb = d.tb ∧ (d.setReg r w).rf = d.rf ∧ (d.setReg r w).blk = d.blk ∧
    (d.setReg r w).carr = d.carr ∧ (d.setReg r w).beam = d.beam ∧ (d.setReg r w).pp = d.pp ∧
    (d.setReg r w).cal = d.cal ∧ (d.setReg r w).link = d.link ∧ (d.setReg r w).ve = d.ve ∧
    (d.setReg r w).fills = d.fills ∧ (d.setReg r w).dma = d.dma ∧ (d.setReg r w).hub = d.hub ∧
    (d.setReg r w).pwr = d.pwr ∧ (d.setReg r w).jtag = d.jtag ∧ (d.setReg r w).lat = d.lat ∧
    (d.setReg r w).powered = d.powered :=
  ⟨rfl, rfl, rfl, rfl, rfl, rfl, rfl, rfl, rfl, rfl, rfl, rfl, rfl, rfl, rfl, rfl, rfl, rfl, rfl, rfl, rfl, rfl, rfl⟩
@[simp] theorem Dev.setReg_units (d : Dev) (r : Reg) (w : Word) :
    (∀ j, (d.setReg r w).syn j = d.syn j) ∧ (∀ j, (d.setReg r w).res j = d.res j) ∧
    (∀ j, (d.setReg r w).tx j = d.tx j) ∧ (∀ j, (d.setReg r w).rx j = d.rx j) ∧
    (∀ j, (d.setReg r w).bursts j = d.bursts j) ∧ (∀ j, (d.setReg r w).paPin j = d.paPin j) ∧
    (∀ j, (d.setReg r w).divp j = d.divp j) ∧ (∀ j, (d.setReg r w).block j = d.block j) ∧
    (∀ j, (d.setReg r w).carrier j = d.carrier j) ∧ (∀ j, (d.setReg r w).ctx j = d.ctx j) ∧
    (∀ j, (d.setReg r w).path j = d.path j) ∧ (∀ j, (d.setReg r w).calq j = d.calq j) ∧
    (∀ j, (d.setReg r w).grp j = d.grp j) ∧ (∀ j, (d.setReg r w).latch j = d.latch j) ∧
    (∀ j, (d.setReg r w).slack j = d.slack j) ∧ (∀ j, (d.setReg r w).slackLow j = d.slackLow j) ∧
    (∀ j, (d.setReg r w).fabV j = d.fabV j) ∧ (∀ j, (d.setReg r w).lg j = d.lg j) ∧
    (∀ j, (d.setReg r w).lane j = d.lane j) ∧ (∀ j, (d.setReg r w).egress j = d.egress j) ∧
    (∀ j, (d.setReg r w).wire j = d.wire j) ∧ (∀ j, (d.setReg r w).hiCount j = d.hiCount j) ∧
    (∀ j, (d.setReg r w).framed j = d.framed j) ∧ (∀ j, (d.setReg r w).inPoly j = d.inPoly j) ∧
    (∀ j, (d.setReg r w).egPoly j = d.egPoly j) ∧ (∀ j, (d.setReg r w).eng j = d.eng j) ∧
    (∀ j, (d.setReg r w).chan j = d.chan j) ∧ (∀ j, (d.setReg r w).src j = d.src j) ∧
    (∀ j, (d.setReg r w).tgt j = d.tgt j) ∧ (∀ j, (d.setReg r w).dom j = d.dom j) ∧
    (∀ j, (d.setReg r w).sensor j = d.sensor j) ∧ (∀ j, (d.setReg r w).supply j = d.supply j) ∧
    (∀ j, (d.setReg r w).auxMon j = d.auxMon j) ∧ (∀ j, (d.setReg r w).member j = d.member j) ∧
    (∀ j, (d.setReg r w).bcell j = d.bcell j) :=
  ⟨fun _ => rfl, fun _ => rfl, fun _ => rfl, fun _ => rfl, fun _ => rfl, fun _ => rfl, fun _ => rfl, fun _ => rfl,
   fun _ => rfl, fun _ => rfl, fun _ => rfl, fun _ => rfl, fun _ => rfl, fun _ => rfl, fun _ => rfl, fun _ => rfl,
   fun _ => rfl, fun _ => rfl, fun _ => rfl, fun _ => rfl, fun _ => rfl, fun _ => rfl, fun _ => rfl, fun _ => rfl,
   fun _ => rfl, fun _ => rfl, fun _ => rfl, fun _ => rfl, fun _ => rfl, fun _ => rfl, fun _ => rfl, fun _ => rfl,
   fun _ => rfl, fun _ => rfl, fun _ => rfl⟩

@[simp] theorem Dev.setBits_frame (d : Dev) (r : Reg) (m v : Nat) :
    (d.setBits r m v).now = d.now ∧ (d.setBits r m v).fresh = d.fresh ∧ (d.setBits r m v).boot = d.boot ∧
    (d.setBits r m v).past = d.past ∧ (d.setBits r m v).mem = d.mem ∧ (d.setBits r m v).bad = d.bad ∧
    (d.setBits r m v).cmd = d.cmd ∧ (d.setBits r m v).tb = d.tb ∧ (d.setBits r m v).rf = d.rf ∧
    (d.setBits r m v).blk = d.blk ∧ (d.setBits r m v).carr = d.carr ∧ (d.setBits r m v).beam = d.beam ∧
    (d.setBits r m v).pp = d.pp ∧ (d.setBits r m v).cal = d.cal ∧ (d.setBits r m v).link = d.link ∧
    (d.setBits r m v).ve = d.ve ∧ (d.setBits r m v).fills = d.fills ∧ (d.setBits r m v).dma = d.dma ∧
    (d.setBits r m v).hub = d.hub ∧ (d.setBits r m v).pwr = d.pwr ∧ (d.setBits r m v).jtag = d.jtag ∧
    (d.setBits r m v).lat = d.lat ∧ (d.setBits r m v).powered = d.powered :=
  ⟨rfl, rfl, rfl, rfl, rfl, rfl, rfl, rfl, rfl, rfl, rfl, rfl, rfl, rfl, rfl, rfl, rfl, rfl, rfl, rfl, rfl, rfl, rfl⟩
@[simp] theorem Dev.setBits_units (d : Dev) (r : Reg) (m v : Nat) :
    (∀ j, (d.setBits r m v).syn j = d.syn j) ∧ (∀ j, (d.setBits r m v).res j = d.res j) ∧
    (∀ j, (d.setBits r m v).tx j = d.tx j) ∧ (∀ j, (d.setBits r m v).rx j = d.rx j) ∧
    (∀ j, (d.setBits r m v).bursts j = d.bursts j) ∧ (∀ j, (d.setBits r m v).paPin j = d.paPin j) ∧
    (∀ j, (d.setBits r m v).divp j = d.divp j) ∧ (∀ j, (d.setBits r m v).block j = d.block j) ∧
    (∀ j, (d.setBits r m v).carrier j = d.carrier j) ∧ (∀ j, (d.setBits r m v).ctx j = d.ctx j) ∧
    (∀ j, (d.setBits r m v).path j = d.path j) ∧ (∀ j, (d.setBits r m v).calq j = d.calq j) ∧
    (∀ j, (d.setBits r m v).grp j = d.grp j) ∧ (∀ j, (d.setBits r m v).latch j = d.latch j) ∧
    (∀ j, (d.setBits r m v).slack j = d.slack j) ∧ (∀ j, (d.setBits r m v).slackLow j = d.slackLow j) ∧
    (∀ j, (d.setBits r m v).fabV j = d.fabV j) ∧ (∀ j, (d.setBits r m v).lg j = d.lg j) ∧
    (∀ j, (d.setBits r m v).lane j = d.lane j) ∧ (∀ j, (d.setBits r m v).egress j = d.egress j) ∧
    (∀ j, (d.setBits r m v).wire j = d.wire j) ∧ (∀ j, (d.setBits r m v).hiCount j = d.hiCount j) ∧
    (∀ j, (d.setBits r m v).framed j = d.framed j) ∧ (∀ j, (d.setBits r m v).inPoly j = d.inPoly j) ∧
    (∀ j, (d.setBits r m v).egPoly j = d.egPoly j) ∧ (∀ j, (d.setBits r m v).eng j = d.eng j) ∧
    (∀ j, (d.setBits r m v).chan j = d.chan j) ∧ (∀ j, (d.setBits r m v).src j = d.src j) ∧
    (∀ j, (d.setBits r m v).tgt j = d.tgt j) ∧ (∀ j, (d.setBits r m v).dom j = d.dom j) ∧
    (∀ j, (d.setBits r m v).sensor j = d.sensor j) ∧ (∀ j, (d.setBits r m v).supply j = d.supply j) ∧
    (∀ j, (d.setBits r m v).auxMon j = d.auxMon j) ∧ (∀ j, (d.setBits r m v).member j = d.member j) ∧
    (∀ j, (d.setBits r m v).bcell j = d.bcell j) :=
  ⟨fun _ => rfl, fun _ => rfl, fun _ => rfl, fun _ => rfl, fun _ => rfl, fun _ => rfl, fun _ => rfl, fun _ => rfl,
   fun _ => rfl, fun _ => rfl, fun _ => rfl, fun _ => rfl, fun _ => rfl, fun _ => rfl, fun _ => rfl, fun _ => rfl,
   fun _ => rfl, fun _ => rfl, fun _ => rfl, fun _ => rfl, fun _ => rfl, fun _ => rfl, fun _ => rfl, fun _ => rfl,
   fun _ => rfl, fun _ => rfl, fun _ => rfl, fun _ => rfl, fun _ => rfl, fun _ => rfl, fun _ => rfl, fun _ => rfl,
   fun _ => rfl, fun _ => rfl, fun _ => rfl⟩

@[simp] theorem Dev.storeWords_frame (d : Dev) (a : Nat) (l : List Word) :
    (d.storeWords a l).now = d.now ∧ (d.storeWords a l).fresh = d.fresh ∧ (d.storeWords a l).boot = d.boot ∧
    (d.storeWords a l).regs = d.regs ∧ (d.storeWords a l).past = d.past ∧ (d.storeWords a l).cmd = d.cmd ∧
    (d.storeWords a l).tb = d.tb ∧ (d.storeWords a l).rf = d.rf ∧ (d.storeWords a l).blk = d.blk ∧
    (d.storeWords a l).carr = d.carr ∧ (d.storeWords a l).beam = d.beam ∧ (d.storeWords a l).pp = d.pp ∧
    (d.storeWords a l).cal = d.cal ∧ (d.storeWords a l).link = d.link ∧ (d.storeWords a l).ve = d.ve ∧
    (d.storeWords a l).fills = d.fills ∧ (d.storeWords a l).dma = d.dma ∧ (d.storeWords a l).hub = d.hub ∧
    (d.storeWords a l).pwr = d.pwr ∧ (d.storeWords a l).jtag = d.jtag ∧ (d.storeWords a l).lat = d.lat ∧
    (∀ r, (d.storeWords a l).reg r = d.reg r) ∧ (∀ r a b, (d.storeWords a l).f r a b = d.f r a b) ∧
    (∀ r a, (d.storeWords a l).fb r a = d.fb r a) ∧ (d.storeWords a l).powered = d.powered :=
  ⟨rfl, rfl, rfl, rfl, rfl, rfl, rfl, rfl, rfl, rfl, rfl, rfl, rfl, rfl, rfl, rfl, rfl, rfl, rfl, rfl, rfl,
   fun _ => rfl, fun _ _ _ => rfl, fun _ _ => rfl, rfl⟩
@[simp] theorem Dev.storeWords_units (d : Dev) (a : Nat) (l : List Word) :
    (∀ j, (d.storeWords a l).syn j = d.syn j) ∧ (∀ j, (d.storeWords a l).res j = d.res j) ∧
    (∀ j, (d.storeWords a l).tx j = d.tx j) ∧ (∀ j, (d.storeWords a l).rx j = d.rx j) ∧
    (∀ j, (d.storeWords a l).bursts j = d.bursts j) ∧ (∀ j, (d.storeWords a l).paPin j = d.paPin j) ∧
    (∀ j, (d.storeWords a l).divp j = d.divp j) ∧ (∀ j, (d.storeWords a l).block j = d.block j) ∧
    (∀ j, (d.storeWords a l).carrier j = d.carrier j) ∧ (∀ j, (d.storeWords a l).ctx j = d.ctx j) ∧
    (∀ j, (d.storeWords a l).path j = d.path j) ∧ (∀ j, (d.storeWords a l).calq j = d.calq j) ∧
    (∀ j, (d.storeWords a l).grp j = d.grp j) ∧ (∀ j, (d.storeWords a l).latch j = d.latch j) ∧
    (∀ j, (d.storeWords a l).slack j = d.slack j) ∧ (∀ j, (d.storeWords a l).slackLow j = d.slackLow j) ∧
    (∀ j, (d.storeWords a l).fabV j = d.fabV j) ∧ (∀ j, (d.storeWords a l).lg j = d.lg j) ∧
    (∀ j, (d.storeWords a l).lane j = d.lane j) ∧ (∀ j, (d.storeWords a l).egress j = d.egress j) ∧
    (∀ j, (d.storeWords a l).wire j = d.wire j) ∧ (∀ j, (d.storeWords a l).hiCount j = d.hiCount j) ∧
    (∀ j, (d.storeWords a l).framed j = d.framed j) ∧ (∀ j, (d.storeWords a l).inPoly j = d.inPoly j) ∧
    (∀ j, (d.storeWords a l).egPoly j = d.egPoly j) ∧ (∀ j, (d.storeWords a l).eng j = d.eng j) ∧
    (∀ j, (d.storeWords a l).chan j = d.chan j) ∧ (∀ j, (d.storeWords a l).src j = d.src j) ∧
    (∀ j, (d.storeWords a l).tgt j = d.tgt j) ∧ (∀ j, (d.storeWords a l).dom j = d.dom j) ∧
    (∀ j, (d.storeWords a l).sensor j = d.sensor j) ∧ (∀ j, (d.storeWords a l).supply j = d.supply j) ∧
    (∀ j, (d.storeWords a l).auxMon j = d.auxMon j) ∧ (∀ j, (d.storeWords a l).member j = d.member j) ∧
    (∀ j, (d.storeWords a l).bcell j = d.bcell j) :=
  ⟨fun _ => rfl, fun _ => rfl, fun _ => rfl, fun _ => rfl, fun _ => rfl, fun _ => rfl, fun _ => rfl, fun _ => rfl,
   fun _ => rfl, fun _ => rfl, fun _ => rfl, fun _ => rfl, fun _ => rfl, fun _ => rfl, fun _ => rfl, fun _ => rfl,
   fun _ => rfl, fun _ => rfl, fun _ => rfl, fun _ => rfl, fun _ => rfl, fun _ => rfl, fun _ => rfl, fun _ => rfl,
   fun _ => rfl, fun _ => rfl, fun _ => rfl, fun _ => rfl, fun _ => rfl, fun _ => rfl, fun _ => rfl, fun _ => rfl,
   fun _ => rfl, fun _ => rfl, fun _ => rfl⟩

@[simp] theorem Dev.storeBytes_frame (d : Dev) (a : Nat) (l : List Byte) :
    (d.storeBytes a l).now = d.now ∧ (d.storeBytes a l).fresh = d.fresh ∧ (d.storeBytes a l).boot = d.boot ∧
    (d.storeBytes a l).regs = d.regs ∧ (d.storeBytes a l).past = d.past ∧ (d.storeBytes a l).bad = d.bad ∧
    (d.storeBytes a l).cmd = d.cmd ∧ (d.storeBytes a l).tb = d.tb ∧ (d.storeBytes a l).rf = d.rf ∧
    (d.storeBytes a l).blk = d.blk ∧ (d.storeBytes a l).carr = d.carr ∧ (d.storeBytes a l).beam = d.beam ∧
    (d.storeBytes a l).pp = d.pp ∧ (d.storeBytes a l).cal = d.cal ∧ (d.storeBytes a l).link = d.link ∧
    (d.storeBytes a l).ve = d.ve ∧ (d.storeBytes a l).fills = d.fills ∧ (d.storeBytes a l).dma = d.dma ∧
    (d.storeBytes a l).hub = d.hub ∧ (d.storeBytes a l).pwr = d.pwr ∧ (d.storeBytes a l).jtag = d.jtag ∧
    (d.storeBytes a l).lat = d.lat ∧ (∀ r, (d.storeBytes a l).reg r = d.reg r) ∧
    (∀ r a b, (d.storeBytes a l).f r a b = d.f r a b) ∧ (∀ r a, (d.storeBytes a l).fb r a = d.fb r a) ∧
    (d.storeBytes a l).powered = d.powered :=
  ⟨rfl, rfl, rfl, rfl, rfl, rfl, rfl, rfl, rfl, rfl, rfl, rfl, rfl, rfl, rfl, rfl, rfl, rfl, rfl, rfl, rfl, rfl,
   fun _ => rfl, fun _ _ _ => rfl, fun _ _ => rfl, rfl⟩
@[simp] theorem Dev.storeBytes_units (d : Dev) (a : Nat) (l : List Byte) :
    (∀ j, (d.storeBytes a l).syn j = d.syn j) ∧ (∀ j, (d.storeBytes a l).res j = d.res j) ∧
    (∀ j, (d.storeBytes a l).tx j = d.tx j) ∧ (∀ j, (d.storeBytes a l).rx j = d.rx j) ∧
    (∀ j, (d.storeBytes a l).bursts j = d.bursts j) ∧ (∀ j, (d.storeBytes a l).paPin j = d.paPin j) ∧
    (∀ j, (d.storeBytes a l).divp j = d.divp j) ∧ (∀ j, (d.storeBytes a l).block j = d.block j) ∧
    (∀ j, (d.storeBytes a l).carrier j = d.carrier j) ∧ (∀ j, (d.storeBytes a l).ctx j = d.ctx j) ∧
    (∀ j, (d.storeBytes a l).path j = d.path j) ∧ (∀ j, (d.storeBytes a l).calq j = d.calq j) ∧
    (∀ j, (d.storeBytes a l).grp j = d.grp j) ∧ (∀ j, (d.storeBytes a l).latch j = d.latch j) ∧
    (∀ j, (d.storeBytes a l).slack j = d.slack j) ∧ (∀ j, (d.storeBytes a l).slackLow j = d.slackLow j) ∧
    (∀ j, (d.storeBytes a l).fabV j = d.fabV j) ∧ (∀ j, (d.storeBytes a l).lg j = d.lg j) ∧
    (∀ j, (d.storeBytes a l).lane j = d.lane j) ∧ (∀ j, (d.storeBytes a l).egress j = d.egress j) ∧
    (∀ j, (d.storeBytes a l).wire j = d.wire j) ∧ (∀ j, (d.storeBytes a l).hiCount j = d.hiCount j) ∧
    (∀ j, (d.storeBytes a l).framed j = d.framed j) ∧ (∀ j, (d.storeBytes a l).inPoly j = d.inPoly j) ∧
    (∀ j, (d.storeBytes a l).egPoly j = d.egPoly j) ∧ (∀ j, (d.storeBytes a l).eng j = d.eng j) ∧
    (∀ j, (d.storeBytes a l).chan j = d.chan j) ∧ (∀ j, (d.storeBytes a l).src j = d.src j) ∧
    (∀ j, (d.storeBytes a l).tgt j = d.tgt j) ∧ (∀ j, (d.storeBytes a l).dom j = d.dom j) ∧
    (∀ j, (d.storeBytes a l).sensor j = d.sensor j) ∧ (∀ j, (d.storeBytes a l).supply j = d.supply j) ∧
    (∀ j, (d.storeBytes a l).auxMon j = d.auxMon j) ∧ (∀ j, (d.storeBytes a l).member j = d.member j) ∧
    (∀ j, (d.storeBytes a l).bcell j = d.bcell j) :=
  ⟨fun _ => rfl, fun _ => rfl, fun _ => rfl, fun _ => rfl, fun _ => rfl, fun _ => rfl, fun _ => rfl, fun _ => rfl,
   fun _ => rfl, fun _ => rfl, fun _ => rfl, fun _ => rfl, fun _ => rfl, fun _ => rfl, fun _ => rfl, fun _ => rfl,
   fun _ => rfl, fun _ => rfl, fun _ => rfl, fun _ => rfl, fun _ => rfl, fun _ => rfl, fun _ => rfl, fun _ => rfl,
   fun _ => rfl, fun _ => rfl, fun _ => rfl, fun _ => rfl, fun _ => rfl, fun _ => rfl, fun _ => rfl, fun _ => rfl,
   fun _ => rfl, fun _ => rfl, fun _ => rfl⟩

end Sys2Proof.Machine
end

