-- ==== Sys2Proof/Laws/Hub.lean ====
section
/-! SUPPORT. What the event hub and the replies leave as it was. A firing touches the hub and the EVL bits of
    engines; a
reply touches the flights, the egress queues and the JTAG queue. -/

namespace Sys2Proof.Machine

/-- A fold keeps what each of its steps keeps. -/
theorem foldl_keep {β γ : Type} (P : Dev → γ) (f : Dev → β → Dev) (h : ∀ d b,
    P (f d b) = P d) (l : List β) (d : Dev) :
    P (l.foldl f d) = P d := by
  induction l generalizing d with
  | nil => rfl
  | cons b l ih => rw [List.foldl_cons, ih, h]

/-- What a fold of steps keeps of an invariant. -/
theorem foldl_inv {β : Type} (P : Dev → Prop) (f : Dev → β → Dev) (h : ∀ d b, P d → P (f d b)) (l : List β) (d : Dev)
    (hd : P d) : P (l.foldl f d) := by
  induction l generalizing d with
  | nil => exact hd
  | cons b l ih => exact ih _ (h _ _ hd)

/-- Everything but the hub and the engines. -/
def Dev.exceptHub (d : Dev) : Dev := { d with hub := {}, ve := [] }

/-- Everything but the flights, the link and the JTAG path. -/
def Dev.exceptReply (d : Dev) : Dev := { d with cmd := { d.cmd with flight := [] }, link := {}, jtag := {} }

theorem Dev.reline_keep (d : Dev) (t : Nat) : (d.reline t).exceptHub = d.exceptHub := by
  simp only [Dev.reline]; (repeat' split) <;> rfl
theorem Dev.relines_keep (d : Dev) : d.relines.exceptHub = d.exceptHub :=
  foldl_keep Dev.exceptHub Dev.reline Dev.reline_keep _ d
theorem Dev.fire_keep (d : Dev) (s : Nat) (r : Rec) : (d.fire s r).exceptHub = d.exceptHub := by
  unfold Dev.fire; split
  · rw [Dev.relines_keep]; rfl
  · rfl

/-- An engine after a re-evaluation: only EVL may have changed, and only from 0 to 1. -/
theorem Dev.reline_eng (d : Dev) (t e : Nat) :
    ((d.reline t).eng e) = d.eng e ∨ ((d.reline t).eng e) = { d.eng e with evl := true } := by
  simp only [Dev.reline]
  split
  · split
    · rw [Dev.setEng_eng]; split
      · subst_vars; right; simp
      · left; simp
    · left; simp
  · left; simp

theorem Dev.of_exceptHub {e d : Dev} (h : e.exceptHub = d.exceptHub) :
    e.now = d.now ∧ e.fresh = d.fresh ∧ e.boot = d.boot ∧ e.regs = d.regs ∧ e.past = d.past ∧ e.mem = d.mem ∧
    e.bad = d.bad ∧ e.cmd = d.cmd ∧ e.tb = d.tb ∧ e.rf = d.rf ∧ e.blk = d.blk ∧ e.carr = d.carr ∧ e.beam = d.beam ∧
    e.pp = d.pp ∧ e.cal = d.cal ∧ e.link = d.link ∧ e.fills = d.fills ∧ e.dma = d.dma ∧ e.pwr = d.pwr ∧
    e.jtag = d.jtag ∧ e.lat = d.lat ∧ (∀ x, e.reg x = d.reg x) ∧ (∀ x hi lo, e.f x hi lo = d.f x hi lo) ∧
    (∀ x m, e.fb x m = d.fb x m) ∧ e.powered = d.powered := by
  cases e; cases d; simp only [Dev.exceptHub, Dev.mk.injEq] at h
  simp [Dev.reg, Dev.f, Dev.fb, Dev.powered, h]

theorem Dev.of_exceptReply {e d : Dev} (h : e.exceptReply = d.exceptReply) :
    e.now = d.now ∧ e.fresh = d.fresh ∧ e.boot = d.boot ∧ e.regs = d.regs ∧ e.past = d.past ∧ e.mem = d.mem ∧
    e.bad = d.bad ∧ e.tb = d.tb ∧ e.rf = d.rf ∧ e.blk = d.blk ∧ e.carr = d.carr ∧ e.beam = d.beam ∧ e.pp = d.pp ∧
    e.cal = d.cal ∧ e.ve = d.ve ∧ e.fills = d.fills ∧ e.dma = d.dma ∧ e.hub = d.hub ∧ e.pwr = d.pwr ∧ e.lat = d.lat ∧
    (∀ x, e.reg x = d.reg x) ∧ (∀ x hi lo, e.f x hi lo = d.f x hi lo) ∧ (∀ x m, e.fb x m = d.fb x m) ∧
    e.powered = d.powered := by
  cases e; cases d; simp only [Dev.exceptReply, Dev.mk.injEq] at h
  simp [Dev.reg, Dev.f, Dev.fb, Dev.powered, h]

@[simp] theorem Dev.relines_frame (d : Dev) :
    (d.relines).now = d.now ∧ (d.relines).fresh = d.fresh ∧ (d.relines).boot = d.boot ∧ (d.relines).regs = d.regs ∧
    (d.relines).past = d.past ∧ (d.relines).mem = d.mem ∧ (d.relines).bad = d.bad ∧ (d.relines).cmd = d.cmd ∧
    (d.relines).tb = d.tb ∧ (d.relines).rf = d.rf ∧ (d.relines).blk = d.blk ∧ (d.relines).carr = d.carr ∧
    (d.relines).beam = d.beam ∧ (d.relines).pp = d.pp ∧ (d.relines).cal = d.cal ∧ (d.relines).link = d.link ∧
    (d.relines).fills = d.fills ∧ (d.relines).dma = d.dma ∧ (d.relines).pwr = d.pwr ∧ (d.relines).jtag = d.jtag ∧
    (d.relines).lat = d.lat ∧ (∀ x, (d.relines).reg x = d.reg x) ∧ (∀ x hi lo, (d.relines).f x hi lo = d.f x hi lo) ∧
    (∀ x m, (d.relines).fb x m = d.fb x m) ∧ (d.relines).powered = d.powered :=
  Dev.of_exceptHub (Dev.relines_keep d)

@[simp] theorem Dev.fire_frame (d : Dev) (s : Nat) (r : Rec) :
    (d.fire s r).now = d.now ∧ (d.fire s r).fresh = d.fresh ∧ (d.fire s r).boot = d.boot ∧
    (d.fire s r).regs = d.regs ∧ (d.fire s r).past = d.past ∧ (d.fire s r).mem = d.mem ∧ (d.fire s r).bad = d.bad ∧
    (d.fire s r).cmd = d.cmd ∧ (d.fire s r).tb = d.tb ∧ (d.fire s r).rf = d.rf ∧ (d.fire s r).blk = d.blk ∧
    (d.fire s r).carr = d.carr ∧ (d.fire s r).beam = d.beam ∧ (d.fire s r).pp = d.pp ∧ (d.fire s r).cal = d.cal ∧
    (d.fire s r).link = d.link ∧ (d.fire s r).fills = d.fills ∧ (d.fire s r).dma = d.dma ∧ (d.fire s r).pwr = d.pwr ∧
    (d.fire s r).jtag = d.jtag ∧ (d.fire s r).lat = d.lat ∧ (∀ x, (d.fire s r).reg x = d.reg x) ∧
    (∀ x hi lo, (d.fire s r).f x hi lo = d.f x hi lo) ∧ (∀ x m, (d.fire s r).fb x m = d.fb x m) ∧
    (d.fire s r).powered = d.powered :=
  Dev.of_exceptHub (Dev.fire_keep d s r)

theorem Dev.faultAt_keep (d : Dev) (c q : Nat) (l : BitVec 16) (n : Nat) (ts : BitVec 48) :
    (d.faultAt c q l n ts).exceptHub = d.exceptHub := Dev.fire_keep _ _ _
theorem Dev.fault_keep (d : Dev) (c q : Nat) (l : BitVec 16) (n : Nat) :
    (d.fault c q l n).exceptHub = d.exceptHub := Dev.fire_keep _ _ _
theorem Dev.event_keep (d : Dev) (s : Nat) (l : BitVec 16) (n : Nat) :
    (d.event s l n).exceptHub = d.exceptHub := Dev.fire_keep _ _ _

@[simp] theorem Dev.faultAt_frame (d : Dev) (c q : Nat) (l : BitVec 16) (n : Nat) (ts : BitVec 48) :
    (d.faultAt c q l n ts).now = d.now ∧ (d.faultAt c q l n ts).fresh = d.fresh ∧
    (d.faultAt c q l n ts).boot = d.boot ∧ (d.faultAt c q l n ts).regs = d.regs ∧
    (d.faultAt c q l n ts).past = d.past ∧ (d.faultAt c q l n ts).mem = d.mem ∧ (d.faultAt c q l n ts).bad = d.bad ∧
    (d.faultAt c q l n ts).cmd = d.cmd ∧ (d.faultAt c q l n ts).tb = d.tb ∧ (d.faultAt c q l n ts).rf = d.rf ∧
    (d.faultAt c q l n ts).blk = d.blk ∧ (d.faultAt c q l n ts).carr = d.carr ∧
    (d.faultAt c q l n ts).beam = d.beam ∧ (d.faultAt c q l n ts).pp = d.pp ∧ (d.faultAt c q l n ts).cal = d.cal ∧
    (d.faultAt c q l n ts).link = d.link ∧ (d.faultAt c q l n ts).fills = d.fills ∧
    (d.faultAt c q l n ts).dma = d.dma ∧ (d.faultAt c q l n ts).pwr = d.pwr ∧ (d.faultAt c q l n ts).jtag = d.jtag ∧
    (d.faultAt c q l n ts).lat = d.lat ∧ (∀ x, (d.faultAt c q l n ts).reg x = d.reg x) ∧
    (∀ x hi lo, (d.faultAt c q l n ts).f x hi lo = d.f x hi lo) ∧ (∀ x m, (d.faultAt c q l n ts).fb x m = d.fb x m) ∧
    (d.faultAt c q l n ts).powered = d.powered :=
  Dev.of_exceptHub (Dev.faultAt_keep d c q l n ts)

@[simp] theorem Dev.fault_frame (d : Dev) (c q : Nat) (l : BitVec 16) (n : Nat) :
    (d.fault c q l n).now = d.now ∧ (d.fault c q l n).fresh = d.fresh ∧ (d.fault c q l n).boot = d.boot ∧
    (d.fault c q l n).regs = d.regs ∧ (d.fault c q l n).past = d.past ∧ (d.fault c q l n).mem = d.mem ∧
    (d.fault c q l n).bad = d.bad ∧ (d.fault c q l n).cmd = d.cmd ∧ (d.fault c q l n).tb = d.tb ∧
    (d.fault c q l n).rf = d.rf ∧ (d.fault c q l n).blk = d.blk ∧ (d.fault c q l n).carr = d.carr ∧
    (d.fault c q l n).beam = d.beam ∧ (d.fault c q l n).pp = d.pp ∧ (d.fault c q l n).cal = d.cal ∧
    (d.fault c q l n).link = d.link ∧ (d.fault c q l n).fills = d.fills ∧ (d.fault c q l n).dma = d.dma ∧
    (d.fault c q l n).pwr = d.pwr ∧ (d.fault c q l n).jtag = d.jtag ∧ (d.fault c q l n).lat = d.lat ∧
    (∀ x, (d.fault c q l n).reg x = d.reg x) ∧ (∀ x hi lo, (d.fault c q l n).f x hi lo = d.f x hi lo) ∧
    (∀ x m, (d.fault c q l n).fb x m = d.fb x m) ∧ (d.fault c q l n).powered = d.powered :=
  Dev.of_exceptHub (Dev.fault_keep d c q l n)

@[simp] theorem Dev.event_frame (d : Dev) (s : Nat) (l : BitVec 16) (n : Nat) :
    (d.event s l n).now = d.now ∧ (d.event s l n).fresh = d.fresh ∧ (d.event s l n).boot = d.boot ∧
    (d.event s l n).regs = d.regs ∧ (d.event s l n).past = d.past ∧ (d.event s l n).mem = d.mem ∧
    (d.event s l n).bad = d.bad ∧ (d.event s l n).cmd = d.cmd ∧ (d.event s l n).tb = d.tb ∧
    (d.event s l n).rf = d.rf ∧ (d.event s l n).blk = d.blk ∧ (d.event s l n).carr = d.carr ∧
    (d.event s l n).beam = d.beam ∧ (d.event s l n).pp = d.pp ∧ (d.event s l n).cal = d.cal ∧
    (d.event s l n).link = d.link ∧ (d.event s l n).fills = d.fills ∧ (d.event s l n).dma = d.dma ∧
    (d.event s l n).pwr = d.pwr ∧ (d.event s l n).jtag = d.jtag ∧ (d.event s l n).lat = d.lat ∧
    (∀ x, (d.event s l n).reg x = d.reg x) ∧ (∀ x hi lo, (d.event s l n).f x hi lo = d.f x hi lo) ∧
    (∀ x m, (d.event s l n).fb x m = d.fb x m) ∧ (d.event s l n).powered = d.powered :=
  Dev.of_exceptHub (Dev.event_keep d s l n)

/-! ## Replies -/

theorem Dev.route_keep (d : Dev) (p : Path) (r : Reply) : (d.route p r).exceptReply = d.exceptReply := by
  unfold Dev.route; split
  · rfl
  · rfl
  · split <;> rfl
theorem Dev.finalAt_keep (d : Dev) (o : Nat) (h : Hdr) (r : Res) (ts : BitVec 48) :
    (d.finalAt o h r ts).exceptReply = d.exceptReply := by
  unfold Dev.finalAt; split
  · rfl
  · exact Dev.route_keep _ _ _
theorem Dev.final_keep (d : Dev) (o : Nat) (h : Hdr) (r : Res) : (d.final o h r).exceptReply = d.exceptReply :=
  Dev.finalAt_keep _ _ _ _ _
theorem Dev.updFlight_keep (d : Dev) (t : BitVec 8) (f : Flight → Flight) :
    (d.updFlight t f).exceptReply = d.exceptReply := rfl
theorem Dev.land_keep (d : Dev) (t : BitVec 8) : (d.land t).exceptReply = d.exceptReply := rfl
theorem Dev.launch_keep (d : Dev) (o : Nat) (h : Hdr) (ps : List Word) (l : List Nat) :
    (d.launch o h ps l).exceptReply = d.exceptReply := rfl
theorem Dev.noteAt_keep (d : Dev) (t : BitVec 8) (n : Nat) (ts : BitVec 48) :
    (d.noteAt t n ts).exceptReply = d.exceptReply := by
  unfold Dev.noteAt; repeat' split
  all_goals first | rfl | rw [Dev.route_keep, Dev.updFlight_keep]
theorem Dev.note_keep (d : Dev) (t : BitVec 8) (n : Nat) : (d.note t n).exceptReply = d.exceptReply :=
  Dev.noteAt_keep _ _ _ _
theorem Dev.finishPartAt_keep (d : Dev) (t : BitVec 8) (u : Nat) (r : Res) (ts : BitVec 48) :
    (d.finishPartAt t u r ts).exceptReply = d.exceptReply := by
  unfold Dev.finishPartAt; split
  · rfl
  · dsimp only; split
    · rw [Dev.finalAt_keep, Dev.land_keep]
    · rfl
theorem Dev.finishPart_keep (d : Dev) (t : BitVec 8) (u : Nat) (r : Res) :
    (d.finishPart t u r).exceptReply = d.exceptReply := Dev.finishPartAt_keep _ _ _ _ _
theorem Dev.finishAll_keep (d : Dev) (t : BitVec 8) (r : Res) : (d.finishAll t r).exceptReply = d.exceptReply := by
  unfold Dev.finishAll; split
  · rfl
  · exact foldl_keep Dev.exceptReply _ (fun _ _ => Dev.finishPart_keep _ _ _ _) _ _

@[simp] theorem Dev.route_frame (d : Dev) (p : Path) (r : Reply) :
    (d.route p r).now = d.now ∧ (d.route p r).fresh = d.fresh ∧ (d.route p r).boot = d.boot ∧
    (d.route p r).regs = d.regs ∧ (d.route p r).past = d.past ∧ (d.route p r).mem = d.mem ∧
    (d.route p r).bad = d.bad ∧ (d.route p r).tb = d.tb ∧ (d.route p r).rf = d.rf ∧ (d.route p r).blk = d.blk ∧
    (d.route p r).carr = d.carr ∧ (d.route p r).beam = d.beam ∧ (d.route p r).pp = d.pp ∧ (d.route p r).cal = d.cal ∧
    (d.route p r).ve = d.ve ∧ (d.route p r).fills = d.fills ∧ (d.route p r).dma = d.dma ∧ (d.route p r).hub = d.hub ∧
    (d.route p r).pwr = d.pwr ∧ (d.route p r).lat = d.lat ∧ (∀ x, (d.route p r).reg x = d.reg x) ∧
    (∀ x hi lo, (d.route p r).f x hi lo = d.f x hi lo) ∧ (∀ x m, (d.route p r).fb x m = d.fb x m) ∧
    (d.route p r).powered = d.powered :=
  Dev.of_exceptReply (Dev.route_keep d p r)

@[simp] theorem Dev.finalAt_frame (d : Dev) (o : Nat) (h : Hdr) (r : Res) (ts : BitVec 48) :
    (d.finalAt o h r ts).now = d.now ∧ (d.finalAt o h r ts).fresh = d.fresh ∧ (d.finalAt o h r ts).boot = d.boot ∧
    (d.finalAt o h r ts).regs = d.regs ∧ (d.finalAt o h r ts).past = d.past ∧ (d.finalAt o h r ts).mem = d.mem ∧
    (d.finalAt o h r ts).bad = d.bad ∧ (d.finalAt o h r ts).tb = d.tb ∧ (d.finalAt o h r ts).rf = d.rf ∧
    (d.finalAt o h r ts).blk = d.blk ∧ (d.finalAt o h r ts).carr = d.carr ∧ (d.finalAt o h r ts).beam = d.beam ∧
    (d.finalAt o h r ts).pp = d.pp ∧ (d.finalAt o h r ts).cal = d.cal ∧ (d.finalAt o h r ts).ve = d.ve ∧
    (d.finalAt o h r ts).fills = d.fills ∧ (d.finalAt o h r ts).dma = d.dma ∧ (d.finalAt o h r ts).hub = d.hub ∧
    (d.finalAt o h r ts).pwr = d.pwr ∧ (d.finalAt o h r ts).lat = d.lat ∧
    (∀ x, (d.finalAt o h r ts).reg x = d.reg x) ∧ (∀ x hi lo, (d.finalAt o h r ts).f x hi lo = d.f x hi lo) ∧
    (∀ x m, (d.finalAt o h r ts).fb x m = d.fb x m) ∧ (d.finalAt o h r ts).powered = d.powered :=
  Dev.of_exceptReply (Dev.finalAt_keep d o h r ts)

@[simp] theorem Dev.final_frame (d : Dev) (o : Nat) (h : Hdr) (r : Res) :
    (d.final o h r).now = d.now ∧ (d.final o h r).fresh = d.fresh ∧ (d.final o h r).boot = d.boot ∧
    (d.final o h r).regs = d.regs ∧ (d.final o h r).past = d.past ∧ (d.final o h r).mem = d.mem ∧
    (d.final o h r).bad = d.bad ∧ (d.final o h r).tb = d.tb ∧ (d.final o h r).rf = d.rf ∧
    (d.final o h r).blk = d.blk ∧ (d.final o h r).carr = d.carr ∧ (d.final o h r).beam = d.beam ∧
    (d.final o h r).pp = d.pp ∧ (d.final o h r).cal = d.cal ∧ (d.final o h r).ve = d.ve ∧
    (d.final o h r).fills = d.fills ∧ (d.final o h r).dma = d.dma ∧ (d.final o h r).hub = d.hub ∧
    (d.final o h r).pwr = d.pwr ∧ (d.final o h r).lat = d.lat ∧ (∀ x, (d.final o h r).reg x = d.reg x) ∧
    (∀ x hi lo, (d.final o h r).f x hi lo = d.f x hi lo) ∧ (∀ x m, (d.final o h r).fb x m = d.fb x m) ∧
    (d.final o h r).powered = d.powered :=
  Dev.of_exceptReply (Dev.final_keep d o h r)

@[simp] theorem Dev.updFlight_frame (d : Dev) (t : BitVec 8) (f : Flight → Flight) :
    (d.updFlight t f).now = d.now ∧ (d.updFlight t f).fresh = d.fresh ∧ (d.updFlight t f).boot = d.boot ∧
    (d.updFlight t f).regs = d.regs ∧ (d.updFlight t f).past = d.past ∧ (d.updFlight t f).mem = d.mem ∧
    (d.updFlight t f).bad = d.bad ∧ (d.updFlight t f).tb = d.tb ∧ (d.updFlight t f).rf = d.rf ∧
    (d.updFlight t f).blk = d.blk ∧ (d.updFlight t f).carr = d.carr ∧ (d.updFlight t f).beam = d.beam ∧
    (d.updFlight t f).pp = d.pp ∧ (d.updFlight t f).cal = d.cal ∧ (d.updFlight t f).ve = d.ve ∧
    (d.updFlight t f).fills = d.fills ∧ (d.updFlight t f).dma = d.dma ∧ (d.updFlight t f).hub = d.hub ∧
    (d.updFlight t f).pwr = d.pwr ∧ (d.updFlight t f).lat = d.lat ∧ (∀ x, (d.updFlight t f).reg x = d.reg x) ∧
    (∀ x hi lo, (d.updFlight t f).f x hi lo = d.f x hi lo) ∧ (∀ x m, (d.updFlight t f).fb x m = d.fb x m) ∧
    (d.updFlight t f).powered = d.powered :=
  Dev.of_exceptReply (Dev.updFlight_keep d t f)

@[simp] theorem Dev.land_frame (d : Dev) (t : BitVec 8) :
    (d.land t).now = d.now ∧ (d.land t).fresh = d.fresh ∧ (d.land t).boot = d.boot ∧ (d.land t).regs = d.regs ∧
    (d.land t).past = d.past ∧ (d.land t).mem = d.mem ∧ (d.land t).bad = d.bad ∧ (d.land t).tb = d.tb ∧
    (d.land t).rf = d.rf ∧ (d.land t).blk = d.blk ∧ (d.land t).carr = d.carr ∧ (d.land t).beam = d.beam ∧
    (d.land t).pp = d.pp ∧ (d.land t).cal = d.cal ∧ (d.land t).ve = d.ve ∧ (d.land t).fills = d.fills ∧
    (d.land t).dma = d.dma ∧ (d.land t).hub = d.hub ∧ (d.land t).pwr = d.pwr ∧ (d.land t).lat = d.lat ∧
    (∀ x, (d.land t).reg x = d.reg x) ∧ (∀ x hi lo, (d.land t).f x hi lo = d.f x hi lo) ∧
    (∀ x m, (d.land t).fb x m = d.fb x m) ∧ (d.land t).powered = d.powered :=
  Dev.of_exceptReply (Dev.land_keep d t)

@[simp] theorem Dev.launch_frame (d : Dev) (o : Nat) (h : Hdr) (ps : List Word) (l : List Nat) :
    (d.launch o h ps l).now = d.now ∧ (d.launch o h ps l).fresh = d.fresh ∧ (d.launch o h ps l).boot = d.boot ∧
    (d.launch o h ps l).regs = d.regs ∧ (d.launch o h ps l).past = d.past ∧ (d.launch o h ps l).mem = d.mem ∧
    (d.launch o h ps l).bad = d.bad ∧ (d.launch o h ps l).tb = d.tb ∧ (d.launch o h ps l).rf = d.rf ∧
    (d.launch o h ps l).blk = d.blk ∧ (d.launch o h ps l).carr = d.carr ∧ (d.launch o h ps l).beam = d.beam ∧
    (d.launch o h ps l).pp = d.pp ∧ (d.launch o h ps l).cal = d.cal ∧ (d.launch o h ps l).ve = d.ve ∧
    (d.launch o h ps l).fills = d.fills ∧ (d.launch o h ps l).dma = d.dma ∧ (d.launch o h ps l).hub = d.hub ∧
    (d.launch o h ps l).pwr = d.pwr ∧ (d.launch o h ps l).lat = d.lat ∧ (∀ x, (d.launch o h ps l).reg x = d.reg x) ∧
    (∀ x hi lo, (d.launch o h ps l).f x hi lo = d.f x hi lo) ∧ (∀ x m, (d.launch o h ps l).fb x m = d.fb x m) ∧
    (d.launch o h ps l).powered = d.powered :=
  Dev.of_exceptReply (Dev.launch_keep d o h ps l)

@[simp] theorem Dev.note_frame (d : Dev) (t : BitVec 8) (n : Nat) :
    (d.note t n).now = d.now ∧ (d.note t n).fresh = d.fresh ∧ (d.note t n).boot = d.boot ∧
    (d.note t n).regs = d.regs ∧ (d.note t n).past = d.past ∧ (d.note t n).mem = d.mem ∧ (d.note t n).bad = d.bad ∧
    (d.note t n).tb = d.tb ∧ (d.note t n).rf = d.rf ∧ (d.note t n).blk = d.blk ∧ (d.note t n).carr = d.carr ∧
    (d.note t n).beam = d.beam ∧ (d.note t n).pp = d.pp ∧ (d.note t n).cal = d.cal ∧ (d.note t n).ve = d.ve ∧
    (d.note t n).fills = d.fills ∧ (d.note t n).dma = d.dma ∧ (d.note t n).hub = d.hub ∧ (d.note t n).pwr = d.pwr ∧
    (d.note t n).lat = d.lat ∧ (∀ x, (d.note t n).reg x = d.reg x) ∧
    (∀ x hi lo, (d.note t n).f x hi lo = d.f x hi lo) ∧ (∀ x m, (d.note t n).fb x m = d.fb x m) ∧
    (d.note t n).powered = d.powered :=
  Dev.of_exceptReply (Dev.note_keep d t n)

@[simp] theorem Dev.finishPartAt_frame (d : Dev) (t : BitVec 8) (u : Nat) (r : Res) (ts : BitVec 48) :
    (d.finishPartAt t u r ts).now = d.now ∧ (d.finishPartAt t u r ts).fresh = d.fresh ∧
    (d.finishPartAt t u r ts).boot = d.boot ∧ (d.finishPartAt t u r ts).regs = d.regs ∧
    (d.finishPartAt t u r ts).past = d.past ∧ (d.finishPartAt t u r ts).mem = d.mem ∧
    (d.finishPartAt t u r ts).bad = d.bad ∧ (d.finishPartAt t u r ts).tb = d.tb ∧
    (d.finishPartAt t u r ts).rf = d.rf ∧ (d.finishPartAt t u r ts).blk = d.blk ∧
    (d.finishPartAt t u r ts).carr = d.carr ∧ (d.finishPartAt t u r ts).beam = d.beam ∧
    (d.finishPartAt t u r ts).pp = d.pp ∧ (d.finishPartAt t u r ts).cal = d.cal ∧
    (d.finishPartAt t u r ts).ve = d.ve ∧ (d.finishPartAt t u r ts).fills = d.fills ∧
    (d.finishPartAt t u r ts).dma = d.dma ∧ (d.finishPartAt t u r ts).hub = d.hub ∧
    (d.finishPartAt t u r ts).pwr = d.pwr ∧ (d.finishPartAt t u r ts).lat = d.lat ∧
    (∀ x, (d.finishPartAt t u r ts).reg x = d.reg x) ∧
    (∀ x hi lo, (d.finishPartAt t u r ts).f x hi lo = d.f x hi lo) ∧
    (∀ x m, (d.finishPartAt t u r ts).fb x m = d.fb x m) ∧ (d.finishPartAt t u r ts).powered = d.powered :=
  Dev.of_exceptReply (Dev.finishPartAt_keep d t u r ts)

@[simp] theorem Dev.finishPart_frame (d : Dev) (t : BitVec 8) (u : Nat) (r : Res) :
    (d.finishPart t u r).now = d.now ∧ (d.finishPart t u r).fresh = d.fresh ∧ (d.finishPart t u r).boot = d.boot ∧
    (d.finishPart t u r).regs = d.regs ∧ (d.finishPart t u r).past = d.past ∧ (d.finishPart t u r).mem = d.mem ∧
    (d.finishPart t u r).bad = d.bad ∧ (d.finishPart t u r).tb = d.tb ∧ (d.finishPart t u r).rf = d.rf ∧
    (d.finishPart t u r).blk = d.blk ∧ (d.finishPart t u r).carr = d.carr ∧ (d.finishPart t u r).beam = d.beam ∧
    (d.finishPart t u r).pp = d.pp ∧ (d.finishPart t u r).cal = d.cal ∧ (d.finishPart t u r).ve = d.ve ∧
    (d.finishPart t u r).fills = d.fills ∧ (d.finishPart t u r).dma = d.dma ∧ (d.finishPart t u r).hub = d.hub ∧
    (d.finishPart t u r).pwr = d.pwr ∧ (d.finishPart t u r).lat = d.lat ∧
    (∀ x, (d.finishPart t u r).reg x = d.reg x) ∧ (∀ x hi lo, (d.finishPart t u r).f x hi lo = d.f x hi lo) ∧
    (∀ x m, (d.finishPart t u r).fb x m = d.fb x m) ∧ (d.finishPart t u r).powered = d.powered :=
  Dev.of_exceptReply (Dev.finishPart_keep d t u r)

@[simp] theorem Dev.finishAll_frame (d : Dev) (t : BitVec 8) (r : Res) :
    (d.finishAll t r).now = d.now ∧ (d.finishAll t r).fresh = d.fresh ∧ (d.finishAll t r).boot = d.boot ∧
    (d.finishAll t r).regs = d.regs ∧ (d.finishAll t r).past = d.past ∧ (d.finishAll t r).mem = d.mem ∧
    (d.finishAll t r).bad = d.bad ∧ (d.finishAll t r).tb = d.tb ∧ (d.finishAll t r).rf = d.rf ∧
    (d.finishAll t r).blk = d.blk ∧ (d.finishAll t r).carr = d.carr ∧ (d.finishAll t r).beam = d.beam ∧
    (d.finishAll t r).pp = d.pp ∧ (d.finishAll t r).cal = d.cal ∧ (d.finishAll t r).ve = d.ve ∧
    (d.finishAll t r).fills = d.fills ∧ (d.finishAll t r).dma = d.dma ∧ (d.finishAll t r).hub = d.hub ∧
    (d.finishAll t r).pwr = d.pwr ∧ (d.finishAll t r).lat = d.lat ∧ (∀ x, (d.finishAll t r).reg x = d.reg x) ∧
    (∀ x hi lo, (d.finishAll t r).f x hi lo = d.f x hi lo) ∧ (∀ x m, (d.finishAll t r).fb x m = d.fb x m) ∧
    (d.finishAll t r).powered = d.powered :=
  Dev.of_exceptReply (Dev.finishAll_keep d t r)

end Sys2Proof.Machine
end

