-- ==== Sys2Proof/Machine/Coding.lean ====
section
/-! DEFINITION. What a group sends on its lanes, as functions of the state: commas, pointer words, scrambling, striping
and symbols (R244–R249, R253, R269). No command depends on them. -/

namespace Sys2Proof.Machine

/-- 48 bits with their CRC-16/CCITT in bits 63:48 (R248, R269). -/
def crc16Word (v : Nat) : BitVec 64 := BitVec.ofNat 64 (v % 2 ^ 48 + 2 ^ 48 * crcOf 3 (natBytes 6 (v % 2 ^ 48)))

/-- CTRL of a lane's comma (Tables 10.4 and 10.5); none while the transmitter holds electrical idle. -/
def Dev.ctrlSent (d : Dev) (g n : Nat) : Option Nat :=
  let x := d.lg g
  let training := if d.readyMask g = d.lanes g then 2 else 1
  match x.st with
  | .off | .listen => none
  | .train => if x.txsleep then none else some training
  | .run =>
    if x.waking then some (if d.now < x.trainAt + us 2 then 1 else training)
    else match x.sleepAt with
      | some t =>
        if d.now < t then some (if nbit x.txmask n then 0 else training)
        else if d.now < t + sbTicks x.rate 1 then some 3 else none
      | none => some (if nbit x.txmask n then 0 else training)
  | .rate =>
    match x.newRate with
    | some r => if d.now < x.rateAt + sbTicks x.rate 16 then some (4 + r) else none
    | none => none

/-- The comma payload that lane `n` of group `g` sends (Table 10.3). -/
def Dev.commaSent (d : Dev) (g n : Nat) : Option (BitVec 64) :=
  (d.ctrlSent g n).map fun c =>
    crc16Word (n + 16 * d.chipNo + 256 * d.seqNow g + 4096 * c + 2 ^ 16 * (d.lg g).txmask + 2 ^ 32 * d.rxok g)

/-- The pointer word for the first header at word `first` of a superblock (R269). -/
def pointerWord (first : Nat) : BitVec 64 := crc16Word (first % 1024)

/-- A superblock of a group with `m` lanes: after the rest of a packet begun before it, packets one after the other, then idle words
of zeros; word 0 is the pointer word, which no packet counts (R269, R270). -/
def superblock (m : Nat) (rest : List (BitVec 64)) (pkts : List (List (BitVec 64))) : List (BitVec 64) :=
  let room := 63 * m - 1
  let body := (rest ++ pkts.flatten).take room
  pointerWord (if !pkts.isEmpty && decide (rest.length < room) then rest.length + 1 else 0) ::
    (body ++ List.replicate (room - body.length) 0)

/-- The words of a superblock's packets that do not fit it, with which the next one begins. -/
def superblockRest (m : Nat) (rest : List (BitVec 64)) (pkts : List (List (BitVec 64))) : List (BitVec 64) :=
  (rest ++ pkts.flatten).drop (63 * m - 1)

/-- The next `n` packets of a group, in the order in which the egress arbiter chooses them. -/
def Dev.nextPackets (d : Dev) (g : Nat) : Nat → List (List (BitVec 64))
  | 0 => []
  | n + 1 =>
    let e := d.sendNext g
    match e.wire g with
    | some s => s.words :: (e.setWire g none).nextPackets g n
    | none => []

/-- The superblock that a group in RUN fills with what waits now. -/
def Dev.superblockSent (d : Dev) (g : Nat) : List (BitVec 64) :=
  let m := popcount 16 (d.lg g).txmask
  superblock m [] (d.nextPackets g (63 * m))

/-! ## Scrambling (R247) -/

/-- The scrambler's state after the comma of a superblock. -/
def scrambleSeed (seq lane : Nat) : BitVec 31 :=
  (0x7FFFFF00 : BitVec 31) ||| BitVec.ofNat 31 (16 * (seq % 16)) ||| BitVec.ofNat 31 (lane % 16)

/-- The bit that x^31 + x^28 + 1 feeds back, which is also the output (PRESUMED, log entry 38). -/
def scrambleBit (s : BitVec 31) : Bool := s.getLsbD 30 != s.getLsbD 27

def scrambleNext (s : BitVec 31) : BitVec 31 := (s <<< 1) ||| (if scrambleBit s then 1 else 0)

/-- The state after `n` bits, and the 64 bits that follow from a state, the first as bit 0. -/
def scrambleSkip (s : BitVec 31) : Nat → BitVec 31
  | 0 => s
  | n + 1 => scrambleSkip (scrambleNext s) n
def scrambleWord (s : BitVec 31) : BitVec 64 :=
  BitVec.ofNat 64 ((List.range 64).foldl (fun v i => v + b2n (scrambleBit (scrambleSkip s i)) * 2 ^ i) 0)

/-- The payload of data block `j` (1 to 63) of a superblock, scrambled; the same function descrambles it. -/
def scramble (seq lane j : Nat) (w : BitVec 64) : BitVec 64 :=
  w ^^^ scrambleWord (scrambleSkip (scrambleSeed seq lane) (64 * (j - 1)))

/-! ## Blocks, striping and symbols (R244–R246, R249) -/

/-- The 66 bits of a block, in the order in which they are sent. -/
def blockBits (comma : Bool) (w : BitVec 64) : List Bool :=
  [!comma, comma] ++ (List.range 64).map fun i => w.getLsbD i

/-- The lane and the data block that carry word `k` of a superblock over the lanes of a TXMASK (R249). -/
def stripe (txmask k : Nat) : Option (Nat × Nat) :=
  let l := bitList 16 txmask
  (l[k % l.length]?).map fun n => (n, 1 + k / l.length)

/-- The payload of data block `j` of lane `n` before scrambling: the word of the superblock that R249 puts there; TRAIN data are
zeros (Table 10.4). -/
def Dev.laneData (d : Dev) (g n j : Nat) : BitVec 64 :=
  let words := d.superblockSent g
  match (List.range words.length).find? fun k => stripe (d.lg g).txmask k == some (n, j) with
  | some k => words.getD k 0
  | none => 0

/-- The PAM4 level of a pair of bits, the first sent first (R244). -/
def pam4 : Bool → Bool → Int
  | false, false => -3
  | false, true => -1
  | true, true => 1
  | true, false => 3

/-- Lines of PAM4 symbols from bits in sending order. -/
def pam4Symbols : List Bool → List Int
  | a :: b :: rest => pam4 a b :: pam4Symbols rest
  | _ => []

end Sys2Proof.Machine
end

