-- ==== Sys2Proof/Tests/Slice0.lean ====
section
/-! SUPPORT. Tests of the author: terms that are refused, states that meet the hypotheses of the statements, and values
taken from the tables and examples of the spec. -/

namespace Sys2Proof.Tests

open Sys2Proof.Machine

-- One proof after the other: parallel proofs of this file would take too many threads.
set_option Elab.async false

/-! ## Small states -/

/-- A chip after boot, outside RUN. -/
def up : Dev := { State.reset.dev with boot := { phase := .up } }

/-- The same in RUN at tick 0 of frame 0. -/
def run : Dev := { up with tb := { st := .run } }

/-- A state with an empty queue. -/
def st (d : Dev) : State := { pending := [], dev := d }

/-- The command header of tests: an empty group 5, CG_VALID 1, immediate, a reply asked for, on VC0. -/
def hdr (target : BitVec 16) : Hdr :=
  { tag := 0x17, target := target, group := 5, btable := 0, bnd := 0, cg := true, rr := true, bts := 0, path := .vc0 }

/-- The block that a command leaves. -/
def after (i : Instr) (d : Dev) : Dev :=
  match exec i (st d) with
  | .next s => s.dev
  | _ => up

/-- The command answers a next state. -/
def goes (i : Instr) (d : Dev) : Bool :=
  match exec i (st d) with
  | .next _ => true
  | _ => false

/-- The command is refused as ill formed. -/
def refusedTerm (i : Instr) : Bool :=
  match exec i (st up) with
  | .refused .illFormed => true
  | _ => false


/-! ## States that meet the hypotheses of the statements, clause by clause -/

/-- Engine 0 runs with `a` in s1. -/
def eng (a : Word) : Dev := up.setEng 0 { st := .running, s := [(1, a)] }

/-- A record of a source. -/
def rec1 : Rec := { cause := 1, loc := 2, detail := 3, ts := 4 }

/-- Source 5 is enabled and pending, routed to targets 0 and 16, with priority 1. -/
def hub1 : Dev := { up with hub := { src := [(5, { en := true, q := [rec1] })] } }.setReg (.srcCfg 5) 0x01010001

theorem witness_queue_tick :
    (Instr.frameEdge).wf = true ∧
    State.reset.dev.firstDue = none ∧
    (let d : Dev := State.reset.dev
     d.hub.held = [] ∧ d.link.bulk = [] ∧ d.tb.workAt ≤ d.now ∧ d.cmd.modify = none ∧
     (d.setTb { d.tb with workAt := 1 }).now < (d.setTb { d.tb with workAt := 1 }).tb.workAt) ∧
    ({ up with boot := { phase := .fabrics } } : Dev).firstDue = some .restart := by decide +kernel

/-- A bulk read of one word. -/
def bulkJob1 : BulkJob := { write := false, grp := 0, addr := 0x800000, xid := 0, ack := false, n := 1, data := [] }

theorem witness_queue_work :
    (let d : Dev := { State.reset.dev with hub := { held := [(0, 1)] } }; d.firstDue = none ∧ d.hub.held ≠ []) ∧
    (let d : Dev := { State.reset.dev with link := { bulk := [bulkJob1] } }
     d.firstDue = none ∧ d.hub.held = [] ∧ d.link.bulk ≠ []) ∧
    (let d : Dev := ({ State.reset.dev with tb := { workAt := 1 } } : Dev).setModify (some (1, 0))
     d.firstDue = none ∧ d.hub.held = [] ∧ d.link.bulk = [] ∧ d.now < d.tb.workAt ∧ d.cmd.modify ≠ none) := by decide +kernel

theorem witness_step_next : ∃ t, step { pending := [.frameEdge], dev := up } = .next t ∧ Machine.Inv t :=
  ⟨{ pending := [], dev := up }, rfl, by unfold Machine.Inv; decide +kernel⟩

theorem witness_eng_runs :
    CanRun (eng 0) 0 ∧
    CanRun (up.setEng 15 { st := .running, pc := 0xFFFC }) 15 := by
  unfold CanRun
  decide +kernel

theorem witness_eng_local_4 :
    (let d := eng 0xF0000000; CanRun d 0 ∧ InLocal (accessAddr d 0 1 0) 4 ∧ d.badAt (localAddr 0 (wordOf (accessAddr d 0 1 0))) 1 = false) ∧
    (let d := eng 0xF003FFFC; CanRun d 0 ∧ InLocal (accessAddr d 0 1 0) 4 ∧ d.badAt (localAddr 0 (wordOf (accessAddr d 0 1 0))) 1 = false) := by
  unfold CanRun InLocal
  decide +kernel

theorem witness_eng_data_4 :
    (let d := eng 0xF0010000; CanRun d 0 ∧ InData (accessAddr d 0 1 0) 4) ∧
    (let d := eng 0xF003FFFC; CanRun d 0 ∧ InData (accessAddr d 0 1 0) 4) := by
  unfold CanRun InData
  decide +kernel

theorem witness_eng_local_2 :
    (let d := eng 0xF0000000; CanRun d 0 ∧ InLocal (accessAddr d 0 1 0) 2 ∧ d.badAt (localAddr 0 (wordOf (accessAddr d 0 1 0))) 1 = false) ∧
    (let d := eng 0xF003FFFE; CanRun d 0 ∧ InLocal (accessAddr d 0 1 0) 2 ∧ d.badAt (localAddr 0 (wordOf (accessAddr d 0 1 0))) 1 = false) := by
  unfold CanRun InLocal
  decide +kernel

theorem witness_eng_data_2 :
    (let d := eng 0xF0010000; CanRun d 0 ∧ InData (accessAddr d 0 1 0) 2) ∧
    (let d := eng 0xF003FFFE; CanRun d 0 ∧ InData (accessAddr d 0 1 0) 2) := by
  unfold CanRun InData
  decide +kernel

theorem witness_eng_local_1 :
    (let d := eng 0xF0000000; CanRun d 0 ∧ InLocal (accessAddr d 0 1 0) 1 ∧ d.badAt (localAddr 0 (wordOf (accessAddr d 0 1 0))) 1 = false) ∧
    (let d := eng 0xF003FFFF; CanRun d 0 ∧ InLocal (accessAddr d 0 1 0) 1 ∧ d.badAt (localAddr 0 (wordOf (accessAddr d 0 1 0))) 1 = false) := by
  unfold CanRun InLocal
  decide +kernel

theorem witness_eng_data_1 :
    (let d := eng 0xF0010000; CanRun d 0 ∧ InData (accessAddr d 0 1 0) 1) ∧
    (let d := eng 0xF003FFFF; CanRun d 0 ∧ InData (accessAddr d 0 1 0) 1) := by
  unfold CanRun InData
  decide +kernel

theorem witness_eng_local_64 :
    (let d := eng 0xF0000000; CanRun d 0 ∧ InLocal (accessAddr d 0 1 0) 64 ∧ d.badAt (localAddr 0 (wordOf (accessAddr d 0 1 0))) 16 = false) ∧
    (let d := eng 0xF003FFC0; CanRun d 0 ∧ InLocal (accessAddr d 0 1 0) 64 ∧ d.badAt (localAddr 0 (wordOf (accessAddr d 0 1 0))) 16 = false) := by
  unfold CanRun InLocal
  decide +kernel

theorem witness_eng_data_64 :
    (let d := eng 0xF0010000; CanRun d 0 ∧ InData (accessAddr d 0 1 0) 64) ∧
    (let d := eng 0xF003FFC0; CanRun d 0 ∧ InData (accessAddr d 0 1 0) 64) := by
  unfold CanRun InData
  decide +kernel

/-- Engine 0 runs with the address of chip memory in s1 and its line in the cache. -/
def cached : Dev :=
  up.setEng 0 { st := .running, s := [(1, 0x00800000)], cache := [{ base := 0x00800000, bytes := List.replicate 64 7 }] }

theorem witness_eng_shared :
    (let d := cached; CanRun d 0 ∧ InShared 0 (accessAddr d 0 1 0) 64 ∧ InShared 0 (accessAddr d 0 1 0) 4 ∧ InShared 0 (accessAddr d 0 1 0) 2 ∧
    InShared 0 (accessAddr d 0 1 0) 1 ∧ (d.eng 0).cached 0x00800000 = some { base := 0x00800000, bytes := List.replicate 64 7 }) ∧
    (let d := eng 0x00FFFFC0; CanRun d 0 ∧ InShared 0 (accessAddr d 0 1 0) 64 ∧ (d.eng 0).cached 0x00FFFFC0 = none ∧
    ((d.eng 0).wbuf.any fun w => w.base == 0x00FFFFC0) = false ∧ d.badAt 0x00FFFFC0 16 = false ∧
    (Memory.readBytes d.mem 0x00FFFFC0 64).length = 64) ∧
    (let d := eng 0x00FFFFFC; CanRun d 0 ∧ InShared 0 (accessAddr d 0 1 0) 4) ∧
    (let d := eng 0x00FFFFFF; CanRun d 0 ∧ InShared 0 (accessAddr d 0 1 0) 1) := by
  unfold CanRun InShared
  decide +kernel

theorem witness_eng_register :
    (let d := eng 0x00020008; CanRun d 0 ∧ accessAddr d 0 1 0 % 4 = 0 ∧ viewAt 0 (accessAddr d 0 1 0) = .register 0x00020008) := by
  unfold CanRun
  decide +kernel

theorem witness_eng_jalr :
    (let d := eng 0xFFFC; CanRun d 0 ∧ accessAddr d 0 1 0 % 4 = 0) := by
  unfold CanRun
  decide +kernel

/-- Engine 0 runs with EVL set. -/
def evl0 : Dev := up.setEng 0 { st := .running, evl := true, wbuf := [{ base := 0x00800000, bytes := [(0, 1)] }] }

/-- Engine 0 waits in WFE with EVL set. -/
def wfe0 : Dev := up.setEng 0 { st := .waiting, wait := .wfe, evl := true }

theorem witness_eng_control :
    (CanRun evl0 0 ∧ ((evl0.eng 0).evl || (evl0.tgt 0).line) = true) ∧
    (CanRun (eng 0) 0 ∧ (((eng 0).eng 0).evl || ((eng 0).tgt 0).line) = false) ∧
    ((wfe0.eng 0).st = .waiting ∧ (wfe0.eng 0).wait = .wfe ∧ ((wfe0.eng 0).evl || (wfe0.tgt 0).line) = true) ∧
    (hub1.tgt 0).line = false ∧
    ((hub1.reline 0).tgt 0).line = true ∧
    (evl0.eng 0).wbuf = [{ base := 0x00800000, bytes := [(0, 1)] }] := by
  unfold CanRun
  decide +kernel

theorem witness_eng_faults_1 :
    (let d := eng 2; CanRun d 0 ∧ accessAddr d 0 1 0 % 4 ≠ 0) ∧
    (let d := eng 0xF0000000; CanRun d 0 ∧ 0xF0000000 ≤ accessAddr d 0 1 0) ∧
    (let d := eng 0xF000FFFC; CanRun d 0 ∧ accessAddr d 0 1 0 < 0xF0010000) ∧
    (let d := eng 0xF0040000; CanRun d 0 ∧ 0xF0040000 ≤ accessAddr d 0 1 0) ∧
    (let d := eng 0xF007FFFC; CanRun d 0 ∧ accessAddr d 0 1 0 < 0xF0080000) ∧
    decodeVe 0 0xFFFFFFFF = none := by
  unfold CanRun
  decide +kernel

theorem witness_eng_faults_2 :
    ((up.setEng 0 { st := .running, pc := 0x10000 }).eng 0).pc = 0x10000 ∧
    ((up.setEng 0 { st := .running, pc := 0xFFFFFFFC }).eng 0).pc < 2 ^ 32 := by decide +kernel

theorem witness_eng_encoding :
    encodeVe (.veHalt 3) = some 0xFC000005 := by decide +kernel

theorem witness_register_rows_1 :
    up.powered = true ∧
    placeAt 0x00020008 = .reg .frameNext ∧
    plainReg .frameNext = true ∧
    (Reg.frameNext).stFields = [] ∧
    placeAt 0x00030004 = .reg (.srcCfg 1) ∧
    plainReg (.srcCfg 511) = true := by decide +kernel

theorem witness_register_rows_2 :
    liveBits (.srcCfg 1) = 0 ∧
    (up.grp 15).st ≠ .accepted ∧
    up.frozen (.srcCfg 1) = false ∧
    ({ up with tb := { st := .idle } } : Dev).tb.st = .idle ∧
    run.placed = false ∧
    (run.setBursts 0 [{ start := 9000, len := 16, tag := 1 }]).placed = true := by decide +kernel

theorem witness_register_rows_3 :
    (run.setBursts 0 [{ start := 9000, len := 16, tag := 1 }]).tb.st = .run := by decide +kernel

theorem witness_ts_check :
    run.running = true ∧
    up.cuBound 0 = false ∧
    (((up.setChan 32 { st := .run }).setReg (.cuCfg 3) (0x200000)).cuBound 3) = true := by decide +kernel

theorem witness_linear_order :
    run.ahead 1 = some 1 ∧
    run.ahead (BitVec.ofNat 48 (2 ^ 22 * 2 ^ 25 - 2 ^ 25 + 19660799)) = some (2 ^ 22 * 19660800 - 1) ∧
    run.ahead (BitVec.ofNat 48 (2 ^ 22 * 2 ^ 25)) = none ∧
    run.ahead 0 = none := by decide +kernel

theorem witness_hub_signals_1 :
    (hub1.src 5).q = [rec1] ∧
    (up.src 511).q = [] ∧
    (({ up with hub := { src := [(511, { en := true })] } } : Dev).src 511).en = true ∧
    hub1.best 0 = 5 ∧
    (hub1.tgt 0).claims.length < 4 ∧
    up.best 19 = 0 := by decide +kernel

theorem witness_hub_signals_2 :
    hub1.deliverable 16 5 = true ∧
    up.sourceRec 1 { cause := 0x0408, loc := 0, detail := 0, ts := 0 } = true ∧
    up.sourceRec 511 rec1 = false ∧ up.sourceRec 1 rec1 = false := by decide +kernel

/-- The same on a chip whose group H is in RUN, with an edge of host channel 0. -/
def hub2 : Dev := { hub1 with link := { lg := [(0, { st := .run })] } }.setTgt 16 { edge := true }

/-- Source 5 is active with owner 0. -/
def hub3 : Dev := { up with hub := { src := [(5, { en := true, act := true, owner := 0, q := [rec1] })] } }

theorem witness_hub_claims_1 :
    (hub1.src 5).q = rec1 :: [] ∧
    hub1.best 0 ≠ 0 ∧
    (hub1.tgt 0).claims.length < 4 ∧
    up.best 16 = 0 ∧
    (hub2.tgt 16).edge = true ∧
    hub2.best 16 = 5 := by decide +kernel

theorem witness_hub_claims_2 :
    hub2.hostSide = true ∧
    hub2.groupRun 0 = true ∧
    (up.tgt 19).edge = false ∧
    (hub1.setReg .latCfg 2).eventWay = .wait ∧
    (hub3.src 5).act = true ∧
    (hub3.src 5).owner = 0 := by decide +kernel

theorem witness_hub_claims_3 :
    (hub3.src 5).q.length < 8 ∧
    (up.src 511).act = false := by decide +kernel

/-- Channel 0 with COUNT 8 and legal addresses, in a given state. -/
def chan (x : Dma) : Dev := (((up.setReg (.dmaR 0 0) 0x800000).setReg (.dmaR 0 1) 0x800100).setReg (.dmaR 0 2) 8).setChan 0 x

theorem witness_dma_1 :
    ((chan {}).chan 0).st = .idle ∧
    (chan {}).dmaConfigBad 0 = false ∧
    (chan {}).dmaCount 0 = 8 ∧
    ((chan { st := .halted }).chan 0).st = .halted ∧
    ((chan {}).setReg (.dmaR 0 0) 2).dmaConfigBad 0 = true ∧
    (((chan { st := .halted }).setReg (.dmaR 0 0) 2).chan 0).st = .halted ∧
    up.dmaCount 47 = 0 := by decide +kernel

theorem witness_dma_2 :
    ((chan { st := .run, left := 1 }).chan 0).left ≠ 0 ∧
    ((chan { st := .paced }).chan 0).st = .paced ∧
    ((chan { st := .run }).chan 0).left = 0 ∧
    dmaUnit 47 = 4 ∧
    dmaUnit 0 = 0 ∧
    ((chan { st := .paced }).setReg (.dmaR 0 4) 0x08000000).dmaQid 0 = 1 := by decide +kernel

/-- Domain 0 asleep. -/
def asleep0 : Dev := up.setDom 0 { st := .asleep }

theorem witness_power_requests_1 :
    (up.dom 0).st = .awake ∧
    up.projectAll.sleepOk 0 = true ∧
    (up.dom 135).st = .awake ∧
    ({ up with link := { lg := [(0, { st := .run })] } } : Dev).projectAll.sleepOk 132 = true ∧
    up.projectAll.sleepOk 135 = false ∧
    up.sleepRuns 0 = false := by decide +kernel

theorem witness_power_requests_2 :
    up.wakeDue 0 = false ∧
    (asleep0.dom 0).st = .asleep ∧
    asleep0.wakeDue 0 = false ∧
    (({ up.setDom 5 { st := .requested, held := true } with pwr := { (up.setDom 5 { st := .requested, held := true }).pwr with sleeps := [{ d := 5 }] } } : Dev).dom 5).st = .requested ∧
    up.ladder = 0 ∧
    up.pwr.cur = none := by decide +kernel

theorem witness_power_requests_3 :
    up.pwr.thermal = [] ∧ up.ladder < 7 ∧
    (let d : Dev := { up with pwr := { cur := some { kind := .thermal, req := { d := 0 }, ends := 9 } } }
     d.ladder < 7 ∧ d.pwr.cur ≠ none) ∧
    (let d : Dev := { up with pwr := { step := 3 } }
     1 ≤ d.ladder ∧ 1 ≠ d.f .plMin 2 0 ∧ d.pwr.cur = none ∧ d.pwr.thermal = [] ∧ 0 = d.f .plMin 2 0) ∧
    (let d : Dev := { asleep0 with pwr := { asleep0.pwr with wakes := [{ d := 0 }], sleeps := [{ d := 0 }] } }
     d.wakeDue 0 = true ∧ ∃ r ∈ d.pwr.sleeps, r.d = 0) ∧
    135 < (136 : BitVec 9).toNat ∧ (135 : BitVec 9).toNat ≤ 135 := by decide +kernel

/-- A TX window from tick 100,000 on. -/
def win : Win := { start := 100000, stop := 120000, activeEnd := 121000 }

/-- TX cell 0 in a given state. -/
def tx (x : TxCell) : Dev := run.setTx 0 x

/-- RX cell 64 in a given state. -/
def rx (x : RxCell) : Dev := run.setRx 0 x

/-- Synthesiser 0 READY, cell 0 with one window of 20,000 ticks from tick 100,000 of each frame. -/
def tab (c : Nat) : Dev :=
  (((run.setReg (.winCtrl c) 0x5001).setReg (.winStart c 0) 100000).setReg (.winLen c 0) 20000).setSyn 0 { st := .ready }

theorem witness_timebase_1 :
    up.boot.phase = .up ∧
    up.tb.st = .noRef ∧
    run.tb.st ≠ .noRef ∧
    ({ up with tb := { st := .armed } } : Dev).tb.tick0At = none ∧
    ({ up with tb := { st := .armed, tick0At := some 64, frame0 := 0x7FFFFF } } : Dev).tb.frame0 < 2 ^ 23 ∧
    ({ up with tb := { st := .armed, tick0At := some 64 } } : Dev).tb.tick0At.isSome = true := by decide +kernel

theorem witness_timebase_2 :
    (run.now - run.tb.t0) % 19660800 = 0 ∧
    ({ run with now := 1 } : Dev).now % 19660800 ≠ 0 ∧
    up.running = false ∧
    ({ run with tb := { st := .run, syncOut := true } } : Dev).tb.syncOut = true ∧
    up.tb.syncOut = false := by decide +kernel

theorem witness_monitors_1 :
    (0 : Int) < 65536 ∧
    up.pwr.conv < 40 ∧
    ({ up with pwr := { conv := 40 } } : Dev).pwr.conv = 40 ∧
    up.sensorBad 0 = false ∧
    ({ up with pwr := { sens := [(0, { temp := -3000 })] } } : Dev).sensorBad 0 = true ∧
    (up.src 177).q = [] := by decide +kernel

theorem witness_monitors_2 :
    ({ up with pwr := { hot := 1, conv := 40 } } : Dev).pwr.hot = 1 := by decide +kernel

/-- Quadrant 0 has a relock of synthesiser 0 waiting. -/
def relocks : Dev := (run.setSyn 0 { st := .wait }).setRes 0 { waiting := [{ syn := 0, kind := .commanded }] }

/-- Its operation runs, in kind `k`. -/
def working (k : OpKind) : Dev := (run.setSyn 0 { st := .bandcal }).setRes 0 { run := some { syn := 0, kind := k } }

/-- Synthesiser 0 in a given state. -/
def syn (x : Syn) : Dev := run.setSyn 0 x

theorem witness_synthesisers_1 :
    (relocks.res 0).run = none ∧
    (relocks.res 0).waiting = { syn := 0, kind := .commanded } :: [] ∧
    ((run.setRes 3 { waiting := [{ syn := 7, kind := .measure }] }).res 3).waiting = { syn := 7, kind := .measure } :: [] ∧
    ((working .commanded).res 0).run = some { syn := 0, kind := .commanded } ∧
    ((working .commanded).syn 0).drop = false ∧
    (up.res 3).waiting = [] := by decide +kernel

theorem witness_synthesisers_2 :
    ((syn { st := .settle }).syn 0).again = false ∧
    ((syn { st := .settle, recovery := true }).syn 0).recovery = true ∧
    ((syn { st := .settle, recovery := true, again := true }).syn 0).again = true ∧
    ((syn { st := .settle, again := true }).syn 0).recovery = false ∧
    (up.syn 7).st ≠ .settle ∧
    ((syn { st := .phase }).syn 0).st = .phase ∧
    ((syn { st := .ready }).syn 0).st = .ready ∧
    (0 : Nat) ∈ (syn { st := .ready }).txOf 0 := by decide +kernel

theorem witness_synthesisers_3 :
    (up.syn 7).st ≠ .ready := by decide +kernel

theorem witness_phase_tracking_1 :
    ((working .measure).res 0).run = some { syn := 0, kind := .measure } ∧
    (((working .measure).setSyn 0 { st := .phase }).syn 0).st = .phase ∧
    (((working .measure).setSyn 0 { st := .ready }).syn 0).st = .ready ∧
    ((syn { st := .phase, applyAt := some 9 }).syn 0).applyAt = some 9 ∧
    ((syn { st := .ready, trackDue := some 9 }).syn 0).trackDue = some 9 ∧
    ((syn { st := .ready, tracking := true, corr := 65535, target := 90 }).syn 0).corr < 65536 := by decide +kernel

theorem witness_phase_tracking_2 :
    (90 + 65536 - 65535) % 65536 ≤ 91 := by decide +kernel

theorem witness_transmit_1 :
    ((tab 0).tx 0).seq = .gap ∧
    (tab 0).txSelected 0 = true ∧
    ((tab 0).nextWin 0 0).isSome = true ∧
    ((tx { seq := .prep, cur := some win }).tx 0).cur = some win ∧
    ((tab 0).loReady 0) = true ∧
    run.loReady 0 = false := by decide +kernel

theorem witness_transmit_2 :
    ((tx { seq := .on, cur := some win }).tx 0).seq = .on ∧
    ((tx { seq := .dark, cur := some win }).tx 0).seq = .dark ∧
    ((tx { seq := .tail }).tx 0).seq = .tail ∧
    (run.tx 63).seq ≠ .prep := by decide +kernel

/-- Cell 0 waits in the rise queue, 2,048 ticks before its window. -/
def queued : Dev :=
  let d := (tab 0).setTx 0 { seq := .queued, cur := some win }
  { d with now := 97952, rf := { d.rf with paQueue := [(97952, 0)] } }

theorem witness_pa_rises_1 :
    queued.rf.paQueue = (97952, 0) :: [] ∧
    (queued.tx 0).cur = some win ∧
    queued.riseTick < win.start ∧
    queued.feStep ≠ 0 ∧
    run.rf.paQueue = [] ∧
    ({ queued with now := 100000 } : Dev).riseTick ≥ win.start := by decide +kernel

theorem witness_pa_rises_2 :
    (queued.setReg .feBudget 0).feStep = 0 ∧
    (queued.tx 0).seq = .queued ∧
    (run.tx 63).seq ≠ .queued ∧
    ({ win with burst := some 1 } : Win).burst.isSome = true := by decide +kernel

theorem witness_converters_1 :
    ((tx { cur := some win }).tx 0).dac = .off ∧
    ((tx { dac := .starting }).tx 0).dac = .starting ∧
    ((tx { dac := .powered }).tx 0).dac = .powered ∧
    (tx { seq := .gap, dac := .powered }).now ≤ ((tx { dac := .powered }).tx 0).paFell + run.trLag ∧
    (tx { dac := .powered }).dacSoon 0 197 = false ∧
    ((tab 0).setTx 0 { dac := .powered, paFell := 97303 }).dacSoon 0 97500 = true ∧
    (tab 0).domDown 0 = false ∧ (tab 0).txSelected 0 = true ∧ ((tab 0).nextWin 0 0).isSome = true ∧ ((tab 0).tx 0).cur = none ∧
    asleep0.domDown 0 = true ∧
    ((rx { adc := .run, on := true, ovrTold := true }).rx 0).adc = .run := by decide +kernel

theorem witness_converters_2 :
    (1 : Nat) ∈ ((rx { adc := .run }).setRx 1 { adc := .run }).neighbours 0 ∧
    (run.rx 63).adc = .off ∧
    ((rx { ovr := true, nbr := true }).rx 0).ovr = true ∧
    (run.rx 63).nbr = false := by decide +kernel

theorem witness_receive_windows_1 :
    ((tab 64).rx 0).cur = none ∧
    ((tab 64).nextWin 64 0).isSome = true ∧
    ((rx { cur := some win }).rx 0).cur.isSome = true ∧
    ((rx { adc := .starting }).rx 0).adc = .starting ∧
    ((rx { cur := some win }).rx 0).on = false ∧
    ((rx { on := true, cur := some win }).rx 0).on = true := by decide +kernel

theorem witness_receive_windows_2 :
    ((run.setReg (.convCfg 64) 1).keep (run.tableCell 64)) = true ∧
    run.keep (run.tableCell 64) = false ∧
    (({ run with now := 120000 } : Dev).rxSoon 0 120000) = false ∧
    ((run.setBursts 127 [{ start := 9, len := 16, tag := 1, begun := true }]).bursts 127) = [{ start := 9, len := 16, tag := 1, begun := true }] ∧
    ((run.setBursts 63 [{ start := 9, len := 16, tag := 1, late := true }]).bursts 63) = [{ start := 9, len := 16, tag := 1, late := true }] ∧
    (run.bursts 0) = [] := by decide +kernel

/-- RX path 0 in CAL, and the same with a step that holds it. -/
def calRx : Dev := rx { adc := .cal }
def calHeld : Dev := calRx.setCalq 0 { steps := [{ unit := .cell 64, kind := 1, idx := 0, start := 0, bg := false, running := true }] }

theorem witness_converters_cal :
    (calRx.rx 0).adc = .cal ∧
    ((calRx.calq 0).steps.find? fun z => z.running && calIndex z.unit == 64 && !calOrx z.kind) = none ∧
    ((calHeld.calq 0).steps.find? fun z => z.running && calIndex z.unit == 64 && !calOrx z.kind).isSome = true ∧
    ((calRx.src 49).en = true ∧ (calRx.src 49).q.length < 8) := by decide +kernel

/-- A diversity pair whose correlator may decide: DELAY 1 and LIMIT 65,535 of carrier 0, in a window that has begun. -/
def divides : Dev :=
  ((((run.setReg (.divCtrl 0) 0x80000001).setReg (.divDet 0) 0xFFFF8008).setReg (.carrCfg 64 0) 0x86000000).setRx 0
    { on := true, cur := some { start := 0, stop := 20000, activeEnd := 20000 } })

theorem witness_receive_more :
    (let d := (rx { adc := .starting }).setRx 1 { tail := 3942 }
     ∃ i : Fin 4, 4 * (0 / 4) + i.val ≠ 0 ∧ max d.now ((d.rx 0).adcAt + 3933) < (d.rx (4 * (0 / 4) + i.val)).tail) ∧
    (let d := rx { adc := .starting }
     ¬ ∃ i : Fin 4, 4 * (0 / 4) + i.val ≠ 0 ∧ max d.now ((d.rx 0).adcAt + 3933) < (d.rx (4 * (0 / 4) + i.val)).tail) ∧
    (run.setBursts 127 [{ start := 9, len := 16, tag := 1 }]).bursts 127 = [{ start := 9, len := 16, tag := 1 }] ∧
    (run.setBursts 64 [{ start := 9, len := 16, tag := 1, late := true, replied := true }]).bursts 64 =
      [{ start := 9, len := 16, tag := 1, late := true, replied := true }] ∧
    ({ run with now := 120000 } : Dev).rxSoon 0 120000 = false ∧ ((tab 64).rxSoon 0 95000) = true ∧
    divides.paired 0 = true ∧ (divides.rx 0).on = true ∧ (divides.divp 0).detected = false ∧ divides.divMay 0 = true := by
  decide +kernel

theorem witness_receive_windows_3 :
    (run.setReg (.divCtrl 0) 0x80000040).paired 0 = true ∧
    ((run.setRx 0 { on := true }).rx 0).on = true ∧
    run.f (.divDet 0) 15 8 = 128 := by decide +kernel

/-- Block 0 in a given state. -/
def blk (x : Blk) : Dev := run.setBlock 0 x

/-- A class 2 job of the observation receiver for path 1 of the block. -/
def job : OrxJob := { who := .mismatch 7, cls := 2, pos := 1, src := 1, since := 0 }

/-- A class 3 job of a capture for path 2. -/
def capJob : OrxJob := { who := .capture 1, cls := 3, pos := 2, src := 2, since := 0 }

/-- Slots 1 and 2 of block 0 hold triggered captures. -/
def two : Dev := blk { slots := [(1, { cap := some { w0 := 0x80010010, t := 9000, first := 0, count := 1, goAt := 0 } }),
                                 (2, { cap := some { w0 := 0x80010010, t := 9000, first := 1, count := 1, goAt := 0 } })] }

theorem witness_block_requests :
    job ∈ ((blk { orxQ := [job] }).block 0).orxQ ∧
    2 ≤ job.cls ∧ job.since + 2 * 1966080 * (job.raised + 1) ≤ 3932160 ∧
    (run.block 15).orxQ = [] := by decide +kernel

theorem witness_arbiters_1 :
    ((blk { orx := .starting }).block 0).orx = .starting ∧
    ((blk { orx := .idle, orxQ := [job] }).block 0).orxQ = [job] ∧
    ((blk { orx := .idle, orxQ := [capJob, job] }).block 0).orxQ = [capJob, job] ∧ job.cls < capJob.cls ∧
    two.jobReady 0 capJob = true ∧ two.jobReady 0 { capJob with who := .capture 2, cls := 1 } = true ∧
    ((blk { orx := .busy, orxJob := some job, mis := [{ tag := 7, path := 1, n := 256, since := 0 }] }).block 0).orxJob = some job ∧
    ((blk { orxQ := [job] }).block 0).orxQ.any (fun j => j.who == .mismatch 7) = true := by decide +kernel

theorem witness_arbiters_2 :
    (run.block 15).orxJob = none ∧
    (blk { orx := .busy, stop := true, orxJob := some job }).powered = true ∧ ((blk { stop := true, orxJob := some job }).block 0).stop = true ∧
    (let d := blk { orx := .busy, orxJob := some capJob, slots := [(1, { result := 1, cap := some { w0 := 0x80010010, t := 9008, first := 0, count := 1, goAt := 0, granted := some 9000, t0 := some 9008 } })] }
     (d.block 0).orxJob = some capJob ∧ capJob.who = .capture 1 ∧ ((d.slot 0 1).cap.map fun c => c.t0) = some (some 9008) ∧ (d.block 0).stop = false) ∧
    (∀ c : Fin 16, ((run.block c).orxQ.any fun j => j.who == .mismatch 7) = false) := by decide +kernel

theorem witness_rffe_1 :
    run.rffeRes 0 1 ≠ 1 ∧
    run.fe33 = false ∧
    ((blk { rffeRes := [(1, 1)] }).rffeRes 0 1) = 1 ∧
    (run.block 0).rffeJob = none ∧
    ((blk { rffeQ := [{ who := .slot 1, word := 0, cls := 2, pos := 0, since := 0 }] }).block 0).rffeQ = [{ who := .slot 1, word := 0, cls := 2, pos := 0, since := 0 }] ∧
    ((blk { rffeJob := some { who := .slot 1, word := 0, cls := 2, pos := 0, since := 0 } }).block 0).rffeJob = some { who := .slot 1, word := 0, cls := 2, pos := 0, since := 0 } := by decide +kernel

theorem witness_rffe_2 :
    run.timedAt 0 0 = none ∧
    txClass 1 < 2 ∧
    txClass 0x10000008 = 2 ∧ txLegal 0x10000008 = true ∧ txRead 0x10000008 = false ∧
    txLegal 0x31000008 = true ∧ txRead 0x31000008 = true ∧
    ((tx { cur := some win }).setReg (.timed 0 0 2) 0x01000000).timedAt 0 0 = some 100000 ∧
    ((tx {}).timedFrom 0 0) ≤ 100000 := by decide +kernel

theorem witness_rffe_3 :
    (run.setReg (.feMode 0) 0).fe33 = false ∧
    run.domDown 128 = false ∧ (run.setDom 128 { st := .asleep }).domDown 128 = true ∧
    (let d := blk { rffeJob := some { who := .slot 1, word := 0x31000008, cls := 2, pos := 0, since := 0, retried := true } }
     ((d.block 0).rffeJob.map fun j => (j.retried, txRead j.word)) = some (true, true)) ∧
    (List.replicate 16 (0 : Byte)).length ≤ 16 := by decide +kernel

/-- Slot 1 of block 0 with a capture, the block's ORX on. -/
def capture (c : Cap) : Dev := blk { orx := .idle, slots := [(1, { result := 1, cap := some c })] }

/-- A triggered capture of 16 samples with the ORX, and one of the digital references only. -/
def withOrx : Cap := { w0 := 0x80010010, t := 9008, first := 7, count := 1, goAt := 0 }
def refOnly : Cap := { w0 := 0x01110010, t := 9008, first := 0, count := 1, goAt := 0 }

theorem witness_captures_1 :
    (run.slot 0 1).result ≠ 1 ∧
    (run.capCheck 0 0x01110010 9008).toOption = some 0 ∧
    (run.capCheck 0 0x01110011 9008).toBool = false ∧
    ((capture withOrx).slot 0 1).result = 1 ∧
    ((capture refOnly).slot 0 1).cap = some refOnly ∧ refOnly.t0 = none ∧ capTrig refOnly.w0 = true ∧ capOrx refOnly.w0 = false ∧
    ((capture withOrx).slot 0 1).cap = some withOrx ∧ capTrig withOrx.w0 = true ∧ capOrx withOrx.w0 = true ∧ withOrx.queued = false ∧ withOrx.granted = none := by decide +kernel

theorem witness_captures_2 :
    ((capture withOrx).block 0).orx ≠ .off ∧
    (capture { refOnly with t0 := some 9008 }).capHolds 0 1 = false ∧
    (run.slot 15 4).cap = none := by decide +kernel

/-- An untriggered capture of the digital references, and one of the ORX. -/
def untrigRef : Cap := { w0 := 0x01100010, t := 0, first := 0, count := 1, goAt := 99000 }
def untrigOrx : Cap := { w0 := 0x80000010, t := 0, first := 0, count := 1, goAt := 99000 }

/-- TX cell 0 is ON in a window from tick 100,000 to 120,000, at tick `now`. -/
def onAir (now : Nat) : Dev := ({ run with now := now } : Dev).setTx 0 { seq := .on, cur := some win }

theorem witness_captures_3 :
    capTrig untrigRef.w0 = false ∧ capOrx untrigRef.w0 = false ∧ untrigRef.t0 = none ∧ untrigRef.granted = none ∧
    (let d := onAir 100000
     d.capT0 untrigRef.w0 none ≤ untrigRef.goAt + 39321600 ∧
     d.onWith (capPath 0 untrigRef.w0) (d.capT0 untrigRef.w0 none) (capL untrigRef.w0) = true) ∧
    (let d := onAir 119990
     d.onWith (capPath 0 untrigRef.w0) (d.capT0 untrigRef.w0 none) (capL untrigRef.w0) = false) ∧
    capTrig untrigOrx.w0 = false ∧ capOrx untrigOrx.w0 = true ∧
    ({ withOrx with granted := some 9000 } : Cap).granted.isSome = true ∧ ({ withOrx with queued := true } : Cap).queued = true ∧
    ({ untrigRef with t0 := some 100000 } : Cap).t0.isSome = true := by decide +kernel

theorem witness_captures_4 :
    (let d := blk { orx := .off, slots := [(1, { result := 1, cap := some withOrx })] }
     (d.block 0).orx = .off ∧ (d.slot 0 1).cap = some withOrx) ∧
    (let d := blk { orx := .busy, orxJob := some { capJob with who := .capture 1 }, slots := [(1, { result := 1, cap := some { withOrx with t0 := some 9008 } })] }
     d.capHolds 0 1 = true) ∧
    (run.slot 0 1).cap = none := by decide +kernel

/-- Group 5 is ACCEPTED with LO_SEL of cell 0 staged. -/
def accepted : Dev :=
  { up with cmd := { groups := [(5, { st := .accepted, tag := some 0x17 })],
                     staged := [{ addr := (Reg.cellLo 0).addr, lo := 0, width := 1, grp := 5, val := 1 }] } }

theorem witness_commit_application :
    (accepted.grp 5).st = .accepted ∧
    (accepted.grp 271).st ≠ .accepted ∧
    accepted.fieldsIn 5 = 1 := by decide +kernel

/-- Context 0 transmits carrier 0 of path 0 at 30.72 MS/s, RAW, on a chip in RUN with group H in RUN. -/
def sends : Dev :=
  ({ run with link := { lg := [(0, { st := .run })] } }.setReg (.ctxCfg 0) 0xD0000000).setReg (.carrCfg 0 0) 0x86000000

/-- A SAMPLE packet of one block. -/
def pkt (ts : BitVec 48) : SamplePkt :=
  { ctx := 0, ts := ts, nblk := 1, comp := 0, codes := [0], exps := [0], mants := List.replicate 16 (5, -5) }

/-- The same as a chord of two members, with the context in the chord. -/
def chord : Dev :=
  (({ sends with link := { lg := [(0, { st := .run }), (1, { st := .run })] } } : Dev).setReg .latCfg 0x112).setReg (.ctxCfg 0) 0xD8000000

/-- A CHORD packet of one block of its one context. -/
def cpkt (ts : BitVec 48) : ChordPkt :=
  { sender := 0, tx := true, rate := 6, ts := ts, nblk := 1, k := 1, desc := [(0, 0)], mants := List.replicate 16 (5, -5) }

/-- RX context 64, RAW on path 0, has blocks that wait. -/
def streams : Dev :=
  ({ run with link := { lg := [(0, { st := .run })] } }.setReg (.ctxCfg 64) 0x90000000).setCtx 64
    { out := [{ at_ := 64, code := 0, vals := [] }], own := [{ at_ := 64, code := 0, vals := [] }], doneTo := 9000 }

theorem witness_sample_packets_1 :
    Instr.wf (.txSamplePacket (pkt 0)) = true ∧
    sends.ctxPeriod 0 = 64 ∧
    sends.ctxOn 0 = true ∧ sends.ctxTx 0 = true ∧ sends.ctxComp 0 = 0 ∧
    sends.txLead = 5899 ∧
    tsValid 5952 = true ∧ sends.ahead 5952 = some 5952 ∧
    5952 + (16 * 1 - 1) * 64 ≤ sends.txLead + 10485 := by decide +kernel

theorem witness_sample_packets_2 :
    sends.hostSide = true ∧ sends.groupRun 0 = true ∧
    (0 : Nat) ∉ sends.pwr.shed ∧
    (cpkt 0).wf = true ∧
    chord.groupRun 1 = true ∧ chord.chordSet true 6 (chord.intervalOf 6 (chord.tickOf 9024)) = [0] ∧
    chord.running = true ∧ tsValid 9024 = true ∧
    chord.now + chord.txLead ≤ chord.tickOf 9024 := by decide +kernel

theorem witness_sample_packets_3 :
    streams.ctxChord 64 = false ∧ streams.hostSide = true ∧
    streams.groupRun 0 = true ∧ streams.blockShed 64 64 = false ∧
    (run.ctx 127).out = [] := by decide +kernel

/-- A member at tick 20,000 whose RX context 64 is in the chord, in a given state. -/
def sums (c : Ctx) : Dev :=
  (((({ run with now := 20000, link := { lg := [(0, { st := .run }), (1, { st := .run })] } } : Dev).setReg .latCfg 0x112).setReg
    (.ctxCfg 64) 0x98000000).setReg (.carrCfg 64 0) 0x86000000).setCtx 64 c

theorem witness_sample_packets_4 :
    (sums {}).running = true ∧ (sums {}).ctxChord 64 = true ∧ (sums {}).ctxTx 64 = false ∧ (sums {}).hostSide = false ∧
    (sums {}).sumsOwed 64 = some 0 ∧ (sums {}).ctxRate 64 = 6 ∧ (sums {}).groupRun 1 = true ∧
    (∀ y ∈ (sums {}).chordSet false 6 0, (sums {}).intervalDone y 6 0 = true) ∧
    (∃ y ∈ (sums { own := [{ at_ := 0, code := 0, vals := [] }] }).chordSet false 6 0,
      (sums { own := [{ at_ := 0, code := 0, vals := [] }] }).intervalDone y 6 0 = false) := by decide +kernel

theorem witness_sample_packets_5 :
    ({ sums {} with now := 10 } : Dev).sumsOwed 64 = none ∧
    (let d := run.setCtx 64 { out := [{ at_ := 64, code := 0, vals := [] }] }
     (d.ctx 64).out ≠ [] ∧ d.intervalDone 64 ((d.cfgAt 64).ctxRate 64) (d.intervalOf ((d.cfgAt 64).ctxRate 64) 64) = true) ∧
    streams.intervalDone 64 (streams.ctxRate 64) (streams.intervalOf (streams.ctxRate 64) 64) = false ∧
    (cpkt 9024).k = 1 ∧ (cpkt 9024).nblk = 1 ∧ (cpkt 9024).tx = true ∧
    ({ cpkt 9024 with k := 2 } : ChordPkt).k ≠ (chord.chordSet true 6 (chord.intervalOf 6 (chord.tickOf 9024))).length ∧
    tsValid (2 ^ 25 - 1) = false := by decide +kernel

/-- A head in RUN with TX context 0 in the chord. -/
def headTx : Dev :=
  (({ sends with link := { lg := [(0, { st := .run }), (2, { st := .run })] } } : Dev).setReg .latCfg 0x101).setReg (.ctxCfg 0) 0xD8000000

theorem witness_chord_departs :
    headTx.chordDepart 0 = some 8192 ∧ headTx.firstStored 0 = none ∧ headTx.groupRun 2 = true ∧
    (let d : Dev := { headTx with beam := { ingress := [{ ctx := 0, at_ := 6000, i := 5, q := -5, again := true }] } }
     (d.firstStored 0).map (fun y => (y.at_, y.again)) = some (6000, true) ∧ d.chordDepart 0 = some 8192 ∧ d.role = 1) ∧
    (let d : Dev := { headTx with beam := { ingress := [{ ctx := 0, at_ := 9000, i := 5, q := -5 }] } }
     ∀ y, d.firstStored 0 = some y → 8192 ≤ y.at_) ∧
    run.firstStored 0 = none ∧ run.chordDepart 0 = none := by
  refine ⟨by decide +kernel, by decide +kernel, by decide +kernel, by decide +kernel, ?_, by decide +kernel, by decide +kernel⟩
  intro d y h
  have e : d.firstStored 0 = some { ctx := 0, at_ := 9000, i := 5, q := -5 } := by decide +kernel
  cases e.symm.trans h
  decide

/-- Context 0 has a sample stored for tick 5,952. -/
def holds : Dev := { sends with beam := { ingress := [{ ctx := 0, at_ := 5952, i := 5, q := -5 }] } }

/-- Cell 0 is ON in a window that has begun. -/
def gate : Dev := ({ sends with now := 100000 } : Dev).setTx 0 { seq := .on, cur := some win, gateAt := 110000 }

theorem witness_ingress_1 :
    holds.firstStored 0 = some { ctx := 0, at_ := 5952, i := 5, q := -5 } ∧
    sends.role ≠ 1 ∧
    holds.chordDepart 0 = none ∧
    gate.gateTick 0 = some 110000 ∧
    (gate.goTo (110000 - 48)).missingAt 0 110000 ≠ [] ∧ (gate.tx 0).undr = false ∧
    (gate.goTo (110000 - 48)).silent 110000 ((gate.goTo (110000 - 48)).missingAt 0 110000) = false ∧
    (gate.setTx 0 { seq := .dark, cur := some win, gateAt := 110000 }).gateTick 0 = some 110000 ∧ run.gateTick 0 = none ∧
    (gate.src 48).en = true ∧ (gate.src 48).q.length < 8 := by decide +kernel

theorem witness_ingress_2 :
    (run.tx 0).cur = none := by decide +kernel

/-- A swap of context 0 to entry 7, from tick 65,536 on. -/
def swap : Swap := { tag := 0x17, points := [(0, 7)], fade := 16, shape := 0, start := 65536, btable := 0 }

/-- Context 0 in a given state. -/
def ctx (x : Ctx) : Dev := sends.setCtx 0 x

/-- Context 0 with the point of entry 7 in its live schedule. -/
def plays : Dev := ((ctx { live := [(0, 7)] }).setReg (.btCtrl 0) 0x5001).setReg (.btEntry 0 0) 0x80000000

theorem witness_beams_1 :
    ((ctx { slot := some swap }).ctx 0).slot = some swap ∧
    ((ctx { slot := some swap }).ctx 0).bound = none ∧
    ((ctx { bound := some swap }).ctx 0).bound = some swap ∧ swap.started = false ∧
    ((ctx { bound := some { swap with started := true } }).ctx 0).bound = some { swap with started := true } ∧
    sends.ctxOn 0 = true ∧
    run.ctxOn 0 = false := by decide +kernel

theorem witness_beams_2 :
    plays.running = true ∧ plays.ctxOn 0 = true ∧ (plays.ctx 0).fetch = [] ∧ (plays.ctx 0).ready = [] ∧ (plays.ctx 0).bound = none ∧ plays.nextPoint (plays.ctxTable 0 0) (plays.ctx 0).live (plays.now + 2048) = some (19660800, 7) ∧
    run.ctxOn 0 = false ∧ run.entryAt (run.ctxTable 0 0) swap.points swap.start = some 7 ∧ ([{ change := run.stampAt 0 swap.start, entry := 7, words := [1] }].find? fun r : Ready => r.change == run.stampAt 0 swap.start && r.entry == 7).isSome = true ∧
    plays.nextPoint (plays.ctxTable 0 0) (plays.ctx 0).live (max plays.now (plays.ctx 0).changed) = some (0, 7) ∧
    sends.entryAt (sends.ctxTable 0 0) [(0, 7)] 65536 = some 7 ∧
    sends.stampAt 0 65535 = 65536 ∧
    (run.ctx 127).bound = none := by decide +kernel

theorem witness_beams_3 :
    sends.running = true ∧ sends.ctxOn 0 = true ∧
    (((ctx { live := [(0, 7)] }).setReg (.btCtrl 0) 0x5001).setReg (.btEntry 0 0) 0x80000000).nextPoint 0 [(0, 7)] 2048 = some (19660800, 7) ∧
    ((ctx { fetch := [{ change := 9, entry := 4095 }] }).ctx 0).fetch = { change := 9, entry := 4095 } :: [] ∧
    sends.entryBad 0 4095 = [] ∧
    ({ sends with bad := [weightAddr true 7 0] } : Dev).entryBad 0 7 = [0] := by decide +kernel

theorem witness_beams_4 :
    plays.pointAhead 0 (max (plays.ctx 0).issued (max (plays.ctx 0).changed (plays.now + 1 - plays.ctxPeriod 0))) = some (0, 7) ∧
    plays.nextPoint (plays.ctxTable 0 0) (plays.ctx 0).live (max (plays.now + 1 - plays.ctxPeriod 0) (plays.ctx 0).changed) = some (0, 7) ∧
    sends.pointAhead 0 (max (sends.ctx 0).issued (max (sends.ctx 0).changed (sends.now + 1 - sends.ctxPeriod 0))) = none ∧
    plays.stampAt 0 0 = 0 ∧ plays.ctxQuads 0 = [0] ∧
    ([{ change := 0, entry := 7, words := [1] }] : List Ready).find? (fun r => r.change == 0 && r.entry == 7) =
      some { change := 0, entry := 7, words := [1] } ∧
    (∀ r ∈ (plays.ctx 0).ready, r.change ≠ 0 ∨ r.entry ≠ 7) := by decide +kernel

/-- RX cell 64 carries carrier 0 at 30.72 MS/s into RX context 64. -/
def carries : Dev :=
  ((rx { wins := [(1024, 9216)] }).setReg (.carrCfg 64 0) 0x86000000).setReg (.ctxCfg 64) 0x90000000

theorem witness_receive_blocks_1 :
    carries.nextBlock 0 0 = some 1024 ∧
    (carries.cfgAt 1024).rxUsers 0 0 = [64] ∧
    ((carries.carrierBlock 0 0).cfgAt 1024).ctxChord 64 = false ∧
    (carries.carrierBlock 0 0).streamReady 64 1024 = true ∧
    run.nextBlock 63 7 = none ∧
    ((streams.ctx 64).own).length = 1 := by decide +kernel

/-- The same with the context in the chord, on a chip of a lattice. -/
def carriesAs (lat : Word) : Dev := (carries.setReg .latCfg lat).setReg (.ctxCfg 64) 0x98000000

theorem witness_receive_blocks_2 :
    (run.ctx 127).own = [] ∧
    (let m := (carriesAs 0x773).carrierBlock 0 0
     (carriesAs 0x773).role = 3 ∧ m.streamReady 64 1024 = true ∧ (m.cfgAt 1024).ctxChord 64 = true ∧ ((carriesAs 0x773).ctx 64).own = []) ∧
    (let m := (carriesAs 0x712).carrierBlock 0 0
     (carriesAs 0x712).role = 2 ∧ m.streamReady 64 1024 = true ∧ (m.cfgAt 1024).ctxChord 64 = true ∧
     ∀ y ∈ (carriesAs 0x712).beam.psum, y.ctx ≠ 64 ∨ y.at_ ≠ 1024) ∧
    ((carriesAs 0x773).cfgAt 1024).rxUsers (((carriesAs 0x773).cfgAt 1024).tableCell 0) 0 = [64] ∧
    (carries.ctx 64).doneTo ≤ 1024 := by decide +kernel

/-- Path 0 in a given state. -/
def path (x : PathProc) : Dev := run.setPath 0 x

/-- A swap of the bank, pending and bound. -/
def dsw (bound : Bool) : DSwap := { bank := 1, target := 90000, tag := none, bound := bound }

/-- A bank that passes Table 8.2: one self term, k 1, m 0, coefficient 1.0. -/
def goodBank (d : Dev) : Dev := (d.storeWords (bankAddr 0 1) [1, 0, 0x1000]).storeWords (bankAddr 0 1 + 168) [0x4000]

/-- A measurement of the guard that trips EXPAND, and one that trips CLIP only. Measured powers rest on the free values of the
filters, so no state can be shown in which they come out so. -/
def expands : GuardMeas := { pz := 2 ^ 50, pu := 2 ^ 45, clip := 0, coded := true }
def clips : GuardMeas := { pz := 2 ^ 45, pu := 2 ^ 45, clip := 17, coded := true }

/-- TX cell 0 is ON in DPD mode GMP from tick 0; the interval that ends at tick 12,288 is judged. -/
def judgedDev : Dev :=
  { ((run.setPath 0 { eff := 1 }).setTx 0 { seq := .on, onFrom := 0 }) with now := 8200 }

theorem witness_predistortion_1 :
    ((path { lock := true }).path 0).lock = true ∧
    ((path {}).path 0).swap = none ∧ ((path {}).path 0).lock = false ∧
    ((path { swap := some (dsw false) }).path 0).swap = some (dsw false) ∧
    ((path { swap := some (dsw true) }).path 0).swap = some (dsw true) ∧ (dsw true).got = none ∧
    run.badAt (bankAddr 0 1) 128 = false ∧
    bankCheck 8 0 (Memory.readWords run.mem (bankAddr 0 1) 128) ≠ 0 := by decide +kernel

theorem witness_predistortion_2 :
    (run.fb (.dpdGrd 0) 31) = true ∧
    expands.pu ^ 40 * 10 ^ run.f (.dpdGrd 0) 5 0 < expands.pz ^ 40 ∧
    ¬ clips.pu ^ 40 * 10 ^ run.f (.dpdGrd 0) 5 0 < clips.pz ^ 40 ∧
    (judgedDev.path 0).eff ≠ 0 ∧ judgedDev.running = true ∧ (run.path 0).eff = 0 ∧
    run.f (.dpdGrd 0) 15 8 < clips.clip ∧
    4096 * 2 ^ 30 ≤ clips.pu * 10000 := by decide +kernel

theorem witness_predistortion_4 :
    (let d := goodBank (path { swap := some (dsw true) })
     (d.path 0).swap = some (dsw true) ∧ d.badAt (bankAddr 0 1) 128 = false ∧ d.running = true ∧
     bankCheck (d.f (.dpdGrd 0) 19 16) 0 (Memory.readWords d.mem (bankAddr 0 1) 128) = 0) ∧
    (goodBank up).running = false ∧
    (path { swap := some (dsw true), trip := some (80000, 2) }).tripsBy 0 90000 = true ∧
    (path { swap := some (dsw true) }).tripsBy 0 90000 = false ∧
    ({ path {} with bad := [bankAddr 0 1] } : Dev).badAt (bankAddr 0 1) 128 = true ∧
    judgedDev.guardEnd 0 = 12288 ∧ judgedDev.fb (.dpdGrd 0) 31 = true := by decide +kernel

theorem witness_predistortion_3 :
    ((path { trip := some (5000, 2) }).path 0).trip = some (5000, 2) ∧
    (run.path 63).trip = none := by decide +kernel

/-- The quadrant of calibration 0 in a given state. -/
def calq (x : Cal) : Dev := run.setCalq 0 x

/-- A step of cell 0, of a kind that needs the ORX, and a run over it. -/
def step1 : CalStep := { unit := .cell 0, kind := 5, idx := 0, start := 4096, bg := false }
def calRun1 : CalRun := { tag := 1, part := 0, units := [.cell 0], todo := [{ unit := .cell 0, kind := 5 }], deadline := 9000, lastEnd := some 5000 }

theorem witness_calibration_1 :
    run.calChoice 0 = none ∧
    (((calq { run := some { calRun1 with deadline := 90000000 }, tvalid := true }).setSyn 0 { st := .ready }).calChoice 0).isSome = true ∧
    (run.setReg (.calCtrl 0) 0x8000007F).bgDueAt (.cell 0) 5 = some 0 ∧
    ((tab 0).goTo 4096).calReady (.cell 0) = true ∧ ((tab 0).goTo 4096).calGap (.cell 0) 5 4096 = true ∧
    calOrx 1 = false ∧
    ((calq { steps := [step1] }).calq 0).firstStep (.cell 0) (fun z => calOrx z.kind && !z.asked && !z.running) = some step1 := by decide +kernel

theorem witness_calibration_2 :
    ((calq { steps := [step1], tvalid := true }).calq 0).inWindow = true ∧
    (∀ z ∈ (run.calq 3).steps, z.unit ≠ .cell 127) ∧
    ((calq { steps := [{ step1 with running := true }] }).calq 0).firstStep (.cell 0) (fun z => z.running) = some { step1 with running := true } ∧
    ((blk { orx := .idle }).block 0).orx ≠ .off ∧
    run.calReady (.cell 0) = false ∧
    ((calq { run := some calRun1 }).calq 0).run = some calRun1 ∧ ((calq { run := some calRun1 }).calq 0).bg = [] := by decide +kernel

theorem witness_calibration_3 :
    (run.calq 3).run = none ∧
    run.bgDueAt (.cell 127) 6 = none ∧
    ((calq { exp := [{ tag := 1, part := 0, addr := 0x800000, maxLen := 64, at_ := 9 }] }).calq 0).exp.length = 1 ∧
    ((calq { imp := some { tag := 1, part := 0, recs := [], at_ := 9 } }).calq 0).imp.isSome = true ∧
    ((calq { clr := [{ tag := 1, part := 0, units := [.cell 0], kinds := 0x7F, at_ := 9 }] }).calq 0).clr.length = 1 ∧
    (run.calq 3).exp = [] ∧ (run.calq 3).imp = none ∧ (run.calq 3).clr = [] := by decide +kernel

theorem witness_calibration_4 :
    ([{ kind := 5, unit := .cell 0, freq := 3, pts := [] }] : List CalRec).find? (fun r => r.isOf (.cell 0) 5) = some { kind := 5, unit := .cell 0, freq := 3, pts := [] } := by decide +kernel

/-- The ORX of block 0 granted for the step of cell 0 at 4,096, and a background update of it with its value. -/
def granted1 : Dev := ((tab 0).goTo 4096).setBlock 0
  { orx := .busy, orxJob := some { who := .cal (.cell 0) 4096, cls := 1, pos := 0, src := 0, since := 2048 }, orxAt := 3000 }
def val1 : CalVal := { unit := .cell 0, kind := 5, freq := 0, temp := 0, vals := [1] }
def bgU : BgUpd := { task := { unit := .cell 0, kind := 5 }, got := some (val1, 5000) }

theorem witness_calibration_5 :
    (granted1.calGranted (.cell 0) 4096 = true ∧ granted1.calReady (.cell 0) = true ∧
      granted1.calGap (.cell 0) 4 4096 = true ∧ calOrx 4 = true) ∧
    ((tab 0).goTo 4096).calGranted (.cell 0) 4096 = false ∧ (tab 0).calGap (.cell 0) 4 100000 = false ∧
    ((calq { run := some calRun1 }).calq 0).inWindow = false ∧
    (calq { bg := [bgU], tvalid := true }).calStoreAt 0 = some 7056 ∧
    (calImage 0 [] 0).length = 7 ∧
    bgU.got.isSome = true ∧
    ({ kind := 5, unit := .cell 0, freq := 3, pts := [] } : CalRec).freq ≠ val1.freq ∧
    ((calq { steps := [{ step1 with running := true, bg := true }], bg := [bgU] }).calq 0).firstStep (.cell 0) (fun z => z.running) =
      some { step1 with running := true, bg := true } ∧
    ((calq { clr := [{ tag := 1, part := 0, units := [.cell 0], kinds := 0x7F, at_ := 9 }] }).calq 0).clr ≠ [] := by decide +kernel

/-- Lane 0 of group H, in RUN, in a given state. -/
def lane (x : Lane) : Dev := { run with link := { lg := [(0, { st := .run, txmask := 0xFF })], lane := [(0, x)] } }

/-- A comma of chip 0 with RXOK and TXMASK `m`, CTRL TRAIN. -/
def comma (m : Nat) : BitVec 64 :=
  let w := 2 ^ 32 * m + 2 ^ 16 * m + 2 ^ 12
  BitVec.ofNat 64 (2 ^ 48 * crcOf 3 (natBytes 6 w) + w)

/-- Group H in a given state. -/
def lg (x : Lg) : Dev := { run with link := { lg := [(0, x)] } }

/-- A member whose group U has lane 0, about to see its signal. -/
def chordLane : Dev :=
  (({ run with link := { lane := [(0, { blk := true, comma := true })] } }.setReg .latCfg 0x712).setReg (.lgCfg 0) 0).setReg
    (.lgCfg 1) 0x80000001

theorem witness_lanes_1 :
    chordLane.groupOf 0 = some 1 ∧ (chordLane.lane 0).blk = true ∧ (chordLane.lane 0).comma = true ∧ (chordLane.lane 0).ready = false ∧ (chordLane.lane 0).wokeAt = none ∧ (chordLane.lane 0).psleep = false ∧ (chordLane.lane 0).los = true ∧
    run.groupOf 0 = some 0 ∧
    run.groupOf 15 = none ∧
    (lane {}).groupRun 0 = true ∧
    ((lane { ready := true }).lane 0).ready = true ∧ ((lane { ready := true }).lane 0).rxok = false ∧
    ((lane { lostAt := some 5 }).lane 0).lostAt = some 5 := by decide +kernel

theorem witness_lanes_2 :
    ((lane { adding := true, removing := true }).lane 0).adding = true ∧
    ((lane { removing := true }).lane 0).removing = true ∧
    ([0, 1, 2].find? fun g => ((lane { removing := true }).lg g).txmask.testBit 0) = some 0 ∧
    ((lane { wokeAt := some 5 }).lane 0).wokeAt = some 5 ∧
    ((lane { ready := true, ctle := 24 }).lane 0).ctle ≤ 24 ∧
    (comma 0xFF).toNat / 2 ^ 48 = crcOf 3 (natBytes 6 ((comma 0xFF).toNat % 2 ^ 48)) ∧ (comma 0xFF).toNat / 2 ^ 12 % 16 ≤ 6 := by decide +kernel

theorem witness_lanes_3 :
    (0 : Nat) / 2 ^ 48 ≠ crcOf 3 (natBytes 6 0) ∧
    ((lg { st := .run, txmask := 0xFF }).lg 0).masks = [] ∧
    0xFF &&& run.lanes 0 ≠ 0 ∧
    ((lg { masks := [(9, 0xFF, 1)] }).lg 0).masks = (9, 0xFF, 1) :: [] ∧
    ((lg { emptied := some 9 }).lg 0).emptied = some 9 ∧
    (run.lg 2).emptied = none := by decide +kernel

/-- The head of a lattice of eight chips, and one whose hop was up and is down. -/
def headChip : Dev := run.setReg .latCfg 0x701
def hopDown : Dev := ({ headChip with lat := { hop0Up := true } }.setReg (.lgCfg 0) 0x800000FE).setReg (.lgCfg 2) 0x80000001

/-- A comma with CTRL `c`, RXOK `r` and TXMASK 0xFF. -/
def commaOf (c r : Nat) : BitVec 64 :=
  let w := 2 ^ 32 * r + 2 ^ 16 * 0xFF + 2 ^ 12 * c
  BitVec.ofNat 64 (2 ^ 48 * crcOf 3 (natBytes 6 w) + w)

theorem witness_lanes_4 :
    hopDown.role = 1 ∧ hopDown.lat.hop0Up = true ∧ hopDown.downOk = false ∧
    ((lane { lateAt := some 5 }).lane 0).wokeAt = none ∧ ((lane { lateAt := some 5 }).lane 0).lateAt = some 5 ∧
    (lane { lateAt := some 5 }).readyMask 0 = 0 ∧ (lane { lateAt := some 5, ready := true }).readyMask 0 ≠ 0 ∧
    (lane {}).groupOf 0 = some 0 ∧
    (∀ c ∈ [3, 4, 6], (commaOf c 0xFF).toNat / 2 ^ 48 = crcOf 3 (natBytes 6 ((commaOf c 0xFF).toNat % 2 ^ 48)) ∧
      (commaOf c 0xFF).toNat / 2 ^ 12 % 16 = c) ∧
    (commaOf 2 0).toNat / 2 ^ 32 % 65536 = 0 ∧
    (lane {}).maskAhead 0 = 0xFF ∧ (lane {}).maskAhead 0 &&& 0x0F ≠ 0xFF ∧ (lane {}).maskAhead 0 &&& 0x0F ≠ 0 ∧
    ((lane {}).lg 0).txsleep = false ∧ ((lane {}).lg 0).waking = false ∧
    ((lg { txmask := 1, masks := [(9, 2, 0)] }).lg 0).masks = (9, 2, 0) :: [] ∧
    (1 : Nat) &&& 2 ||| (lg {}).lanes 0 &&& 0 &&& 2 = 0 := by decide +kernel

/-- Every lane of group H sees its partner ready, in TRAIN. -/
def ready : Dev :=
  { run with link := { lg := [(0, { st := .train, peerRxok := 0xFF, peerCtrl := 2 })],
                       lane := (List.range 8).map fun n => (n, { ready := true, los := false, blk := true, comma := true }) } }

theorem witness_groups_1 :
    ((lg { st := .listen, attemptAt := some 9 }).lg 0).attemptAt = some 9 ∧
    (lg {}).tb.st ≠ .noRef ∧
    (run.lg 2).attemptAt = none ∧
    ready.bothReady 0 = true ∧
    run.bothReady 2 = false ∧
    (ready.lg 0).st = .train := by decide +kernel

theorem witness_groups_2 :
    ready.lanes 0 &&& ready.readyMask 0 &&& (ready.lg 0).peerRxok ≠ 0 ∧
    (lg { st := .train }).lanes 0 &&& (lg { st := .train }).readyMask 0 &&& ((lg { st := .train }).lg 0).peerRxok = 0 ∧
    (run.lg 2).st ≠ .train ∧ (run.lg 2).waking = false ∧
    (lg { st := .run }).groupRun 0 = true ∧ (lg { st := .run }).readyMask 0 = 0 ∧ (lg { st := .run }).peerAsleep 0 = false ∧
    ((lg { st := .run, newRate := some 1 }).lg 0).newRate.isSome = true ∧ (lg { st := .run }).finalWaits none = false ∧
    ((lg { st := .rate, newRate := some 2 }).lg 0).newRate = some 2 := by decide +kernel

/-- Group H lost in RUN, with a packet of VC7 cut off. -/
def cutOff : Dev := (lg { st := .run }).setWire 0 (some { pkt := .bulkAck 0 0 0, words := [0x70] })

theorem witness_groups_3 :
    cutOff.groupRun 0 = true ∧ cutOff.readyMask 0 = 0 ∧ cutOff.peerAsleep 0 = false ∧ cutOff.relocks 0 = false ∧
    (cutOff.wire 0).any (fun p => p.vc == 7) = true ∧
    ((lane { psleep := true }).setReg (.lgCfg 0) 0x80000001).peerAsleep 0 = true ∧
    ((lg { st := .run, waking := true, wakeAt := 7 }).lg 0).waking = true ∧
    ((lg { st := .run, newRate := some 1, rateTag := some 0x17 }).lg 0).rateTag = some 0x17 ∧
    (lg { st := .run }).finalWaits (some 0x17) = false ∧
    ((lg { st := .listen, attemptAt := some 9, attempts := 1 }).lg 0).attempts % 2 ≠ 0 ∧
    (run.lg 2).newRate = none := by decide +kernel

/-- The header word of a COMMAND packet of VC0 with `n` words. -/
def head (n : Nat) : BitVec 64 :=
  let w := 1 + 256 * n
  BitVec.ofNat 64 (2 ^ 48 * crcOf 3 (natBytes 6 w) + w)

/-- The words of a NOP command as VC0 carries them. -/
def nopBytes : List Byte := commandBytes 0x0000 (hdr 0) 0 []
def body : List (BitVec 64) := [BitVec.ofNat 64 (bytesNat (nopBytes.take 8)), BitVec.ofNat 64 (bytesNat ((nopBytes.drop 8).take 8)),
  BitVec.ofNat 64 (bytesNat (nopBytes.drop 16))]
def check (l : List (BitVec 64)) : BitVec 64 := BitVec.ofNat 64 (crcOf (((lg { st := .run }).setFramed 0 true).inPoly 0) (bytes64 l))

theorem witness_packets_1 :
    (head 5).toNat / 2 ^ 48 = crcOf 3 (natBytes 6 ((head 5).toNat % 2 ^ 48)) ∧ (head 5).toNat % 16 = 1 ∧ (head 5).toNat / 256 % 4096 = body.length + 2 ∧
    (head 5).toNat / 16 % 8 = 0 ∧ (head 5).toNat / 2 ^ 20 % 8 = 0 ∧
    (check (head 5 :: body)).toNat % 2 ^ 32 = crcOf (((lg { st := .run }).setFramed 0 true).polySettle.inPoly 0) (bytes64 (head 5 :: body)) ∧
    (0 : Nat) / 2 ^ 48 ≠ crcOf 3 (natBytes 6 0) ∧
    ((lg { st := .run }).setFramed 0 true).framed 0 = true ∧
    run.framed 2 = false := by decide +kernel

theorem witness_packets_2 :
    (lg { st := .run }).hostSide = true ∧
    nopBytes.length = 20 ∧ bytesNat ((nopBytes.drop 16).take 4) = crcOf 0 (nopBytes.take 16) ∧
    (parseHdr .vc0 nopBytes).tag = 0x17 ∧
    up.inFlight 0x17 = false ∧
    (up.launch 0 (hdr 0) [] [0]).inFlight 0x17 = true ∧
    (∃ e ∈ handlers, e.1 = 0x0201) := by decide +kernel

theorem witness_packets_3 :
    (¬ ∃ e ∈ handlers, e.1 = 0x0F00) := by decide +kernel

/-- A hunting receiver, and a superblock whose pointer word names a packet of two words. -/
def hunts : Dev := lg { st := .run, lost := true, peerTx := 0xFF }
def pointed : List (BitVec 64) := superblock 8 [] [[head 2, 0]]

theorem witness_packets_4 :
    hunts.groupRun 0 = true ∧ (hunts.lg 0).lost = true ∧
    resumeAt 8 pointed = some [head 2, 0] ∧ popcount 16 (hunts.lg 0).peerTx = 8 ∧
    pointerFirst 1 = none ∧ pointerFirst (pointerWord 0) = some 0 ∧ (pointerWord 0).toNat % 1024 = 0 ∧
    (pointerWord 504).toNat % 1024 = 63 * 8 ∧
    up.jtag.done = none ∧ up.link.bulk = [] ∧
    (∃ e ∈ handlers, e.1 = 0x0100) ∧
    bytesNat ((nopBytes.drop 8).take 2) % 2048 = 0 ∧
    1024 < bytesNat (((commandBytes 0 (hdr 0) 0 (List.replicate 257 0)).drop 8).take 2) % 2048 := by decide +kernel

/-- Group H in RUN with a packet in VC1, one in VC0 and one in VC7. -/
def queues : Dev :=
  { run with link := { lg := [(0, { st := .run })], egress := [(0, [.lctl 1 0]), (1, [.lctl 1 1]), (7, [.bulkAck 0 0 0])] } }

theorem witness_egress_bulk_1 :
    queues.wire 0 = none ∧ queues.link.polyLater = [] ∧
    queues.hiCount 0 < 256 ∧ queues.queueOf 0 1 ≠ [] ∧
    ({ queues with link := { queues.link with hi := [(0, 256)] } } : Dev).hiCount 0 = 256 ∧
    queues.queueOf 0 0 ≠ [] ∧ queues.queueOf 0 7 ≠ [] ∧
    queues.sends 0 = true ∧ queues.nextVc 0 = some 1 ∧
    run.sends 0 = false := by decide +kernel

theorem witness_egress_bulk_2 :
    queues.bulkHere 0 = true ∧
    run.bulkHere 2 = false ∧
    queues.bulkRefusal true 0x800000 1 = none ∧
    queues.bulkRefusal true 0x800000 8184 = none ∧
    queues.bulkRefusal true 0x800002 1 ≠ none ∧
    queues.bulkRefusal false 0xFFF800 512 = none := by decide +kernel

theorem witness_egress_bulk_3 :
    queues.bulkRefusal false 0 1 ≠ none := by decide +kernel

/-- A bulk store without room for another request. -/
def fullStore : Dev :=
  { queues with link := { queues.link with bulk := [{ bulkJob1 with write := true, n := 8184, data := List.replicate 16380 0 }] } }

theorem witness_egress_bulk_4 :
    fullStore.bulkHere 0 = true ∧ fullStore.link.bulk ≠ [] ∧
    ¬ fullStore.bulkHeld + 8 * (3 + (1 + 1) / 2) ≤ 65536 ∧ ¬ fullStore.bulkHeld + 8 * (3 + (0 + 1) / 2) ≤ 65536 ∧
    queues.bulkHeld + 8 * (3 + (1 + 1) / 2) ≤ 65536 ∧
    (∀ i, i < 1 → isMemory (0x800000 + 4 * i) = true ∧
      ∀ b : Fin 16, placeAt (0x800000 + 4 * i) = .capture b → queues.region b ((0x800000 + 4 * i - capBase b) / 0x4000) ≠ 1) ∧
    queues.rangeError 0x800000 1 = none ∧
    (({ queues with bad := [0x800000] } : Dev).rangeError 0x800000 1).isSome = true ∧
    (queues.setWire 0 (some { pkt := .bulkAck 0 0 0, words := [] })).wire 0 ≠ none := by decide +kernel

/-- SVC selected, with a given port. -/
def svc (j : Jtag) : Dev := { up with jtag := { j with ir := 0x21 } }

theorem witness_jtag_1 :
    (svc {}).jtag.ir = 0x21 ∧ (svc {}).boot.phase ≠ .shutdown ∧
    ({ up with boot := { phase := .shutdown } } : Dev).boot.phase = .shutdown ∧
    (0x07 : Byte) ∉ ([0x00, 0x01, 0x02, 0x03, 0x04, 0x05, 0x06, 0x21] : List Byte) ∧
    (svc {}).inReady = true ∧
    (svc { done := some [] }).inReady = false ∧
    20 + bytesNat (((wordsBytes [0, 0, 0x400, 0]).drop 8).take 2) % 2048 = 1044 := by decide +kernel

theorem witness_jtag_2 :
    20 + bytesNat (((wordsBytes [0, 0, 0, 0, 0]).drop 8).take 2) % 2048 ≤ 4 * 5 ∧
    (svc { out := [{ kind := 1, words := [5] }] }).jtag.out = { kind := 1, words := 5 :: [] } :: [] ∧
    (svc { done := some [] }).jtag.done = some [] ∧
    up.jtag.done = none := by decide +kernel

theorem witness_jtag_3 :
    ((svc { inb := [0, 0, 0] }).jtag.inb ++ [0]).length = 4 ∧
    20 + bytesNat (((wordsBytes [0, 0, 0, 0]).drop 8).take 2) % 2048 ≤ 1044 ∧
    1044 < 20 + bytesNat (((wordsBytes [0, 0, 0x404, 0]).drop 8).take 2) % 2048 ∧
    (20 + bytesNat (((wordsBytes [0, 0, 2, 0]).drop 8).take 2) % 2048) % 4 ≠ 0 ∧
    20 + bytesNat (((wordsBytes [0, 0, 8, 0, 0, 0]).drop 8).take 2) % 2048 > 4 * 6 ∧
    (svc {}).jtag.wait = [] ∧ (svc {}).link.polyWait = [] ∧ (svc {}).jtag.out = [] := by decide +kernel

theorem witness_transfers_1 :
    ((up.setEng 0 { load := some (1, 0, 0x800000) }).eng 0).load = some (1, 0, 0x800000) ∧
    (up.eng 15).load = none ∧
    (({ up with fills := [(1, 0x800000, 64, 5)] } : Dev).fills.find? fun f => f.1 == 1) = some (1, 0x800000, 64, 5) ∧
    (∀ f ∈ up.fills, f.1 ≠ 1) ∧
    ((chan { st := .run }).chan 0).left = 0 ∧ (chan { st := .run }).dmaLink 0 = false ∧
    ((chan { st := .run, left := 2 }).chan 0).left = 2 ∧ 4 < (chan {}).dmaCount 0 := by decide +kernel

theorem witness_transfers_2 :
    (chan {}).dmaQid 0 = 0 ∧ (chan {}).dmaSrc 0 = 0x800000 ∧ (chan {}).dmaDst 0 = 0x800100 ∧
    ((chan { stalled := true }).chan 0).stalled = true ∧
    ((chan {}).setReg (.dmaR 0 0) 0x00500000).beatReadBad 0 = true ∧
    ((chan {}).setReg (.dmaR 0 3) 0x30400010).dmaStream 0 = true ∧
    0 < ((chan {}).setReg (.dmaR 0 3) 0x30400010).dmaRetries 0 ∧
    (up.chan 47).st ≠ .run := by decide +kernel

/-- A burst of channel 0 with a word already read. -/
def readWord1 (x : Dma) : Dev := chan { x with st := .run, left := 2 }

theorem witness_transfers_3 :
    ((readWord1 { word := some 5 }).chan 0).word = some 5 ∧ ((readWord1 {}).chan 0).word = none ∧
    (readWord1 {}).badAt 0x800000 1 = false ∧ (readWord1 {}).dmaReadOk 0x00500000 = false ∧
    ((chan {}).setReg (.dmaR 0 0) 0x00500000).dmaReadOk 0x00500000 = false ∧
    ((chan {}).setReg (.dmaR 0 1) 0x00500000).dmaWriteOk 0x00500000 = false ∧
    ((readWord1 { abort := true }).chan 0).abort = true ∧
    ((readWord1 {}).dmaStream 0 = false) ∧
    segOk (0xF0000000, [1]) = true ∧
    imageSegs 1 [0xF0000000, 1, 7] = some [(0xF0000000, [7])] := by decide +kernel

theorem witness_vc7_room : up.vc7Room = true ∧
    ({ up with link := { egress := [(7, [.bulkData 0 0 0 (List.replicate Config.vc7Store 0)])] } } : Dev).vc7Room = false := by
  simp [Dev.vc7Room, Dev.vc7Words, Dev.queueOf, Dev.egress, Tbl.get, up, State.reset]

theorem witness_power_boot_1 :
    up.pwr.cur = none ∧ up.pwr.thermal = [] ∧ (up.lg 0).txsleep = false ∧
    ({ asleep0 with pwr := { asleep0.pwr with wakes := [{ d := 0 }] } } : Dev).pwr.wakes = { d := 0 } :: [] ∧
    asleep0.asleep 0 = true ∧ up.asleep 0 = false ∧
    ({ up with pwr := { sleeps := [{ d := 151 }] } } : Dev).pwr.sleeps = { d := 151 } :: [] ∧ up.asleep 151 = false ∧
    ({ up with pwr := { cur := some { kind := .wake, req := { d := 0 }, ends := 9 } } } : Dev).pwr.cur.isSome = true ∧
    ({ up with pwr := { gap := true, thermal := [1] } } : Dev).pwr.thermal = 1 :: [] := by decide +kernel

theorem witness_power_boot_3 :
    (({ up with link := { lg := [(0, { txsleep := true })] } } : Dev).lg 0).txsleep = true ∧
    (up.setDom 128 { st := .asleep }).shutIn 0 = some 128 ∧ up.shutIn 0 = none ∧
    (up.dom 0).st = .awake ∧ asleep0.asleep 0 = true ∧
    ({ up with pwr := { cur := some { kind := .sleep, req := { d := 132 }, ends := 9 } } } : Dev).pwr.cur =
      some { kind := .sleep, req := { d := 132 }, ends := 9 } ∧
    (∀ p ∈ [Phase.start, Phase.fabrics, Phase.tripped, Phase.trDone, Phase.shutdown],
      ({ up with boot := { phase := p } } : Dev).boot.phase = p) := by decide +kernel

theorem witness_power_boot_2 :
    State.reset.dev.boot.phase = .held ∧
    up.boot.phase = .up ∧
    (up.src 1).en = true ∧ (up.src 1).q.length < 8 := by decide +kernel

/-- A member of a lattice of eight chips, in RUN. -/
def member : Dev := run.setReg .latCfg 0x712

theorem witness_lattice :
    headChip.role = 1 ∧ headChip.last = 7 ∧
    member.role = 2 ∧ member.running = true ∧
    (run.setReg .latCfg 0x773).role = 3 ∧
    run.role = 0 ∧
    (({ headChip with lat := { mem := [(1, { polled := true, answered := false, missed := 2 })] } } : Dev).member 1).missed = 2 ∧
    headChip.lat.hop0Fail = false := by decide +kernel

theorem witness_lattice_2 :
    1 ≤ headChip.last ∧ headChip.lat.next ≤ headChip.last ∧
    (({ headChip with lat := { mem := [(1, { hopUp := true })] } } : Dev).member 1).hopUp = true ∧
    (0 : BitVec 64).getLsbD 43 = false ∧
    headChip.running = true ∧ headChip.misaligned 1 0x0080000000000000 = headChip.misaligned 1 0x0080000000000000 ∧
    (({ headChip with lat := { mem := [(1, { polled := true, answered := false, missed := 2 })] } } : Dev).member 1).silentTold = false ∧
    ({ member with tb := { st := .idle } } : Dev).running = false := by decide +kernel

/-! ## Host commands -/

theorem witness_addressed_1 :
    Addressed (hdr 0) up 0 0 ∧
    Addressed (hdr 1024) up 1 0 ∧
    Addressed (hdr 1027) up 1 3 ∧
    Addressed (hdr 2048) up 2 0 ∧
    Addressed (hdr 2063) up 2 15 ∧
    Addressed (hdr 3072) up 3 0 := by
  unfold Addressed Settled
  decide +kernel

theorem witness_addressed_2 :
    Addressed (hdr 3199) up 3 127 ∧
    Addressed (hdr 4096) up 4 0 ∧
    Addressed (hdr 4223) up 4 127 ∧
    Addressed (hdr 5120) up 5 0 ∧
    Addressed (hdr 5151) up 5 31 ∧
    Addressed (hdr 6144) up 6 0 := by
  unfold Addressed Settled
  decide +kernel

theorem witness_addressed_3 :
    Addressed (hdr 6159) up 6 15 ∧
    Addressed (hdr 6160) up 6 16 ∧
    Addressed (hdr 6207) up 6 63 ∧
    Addressed (hdr 6208) up 6 64 ∧
    Addressed (hdr 6215) up 6 71 := by
  unfold Addressed Settled
  decide +kernel

theorem witness_staging_1 :
    (hdr 0).cg = true ∧ (up.grp 5).st ≠ .accepted ∧ up.anyFrozen (stFieldsOf 5 [whole (.cellLo 0) 1]) = false ∧
    (accepted.grp 5).st = .accepted ∧
    accepted.anyFrozen (stFieldsOf 16 [whole (.cellLo 0) 1]) = true ∧
    stFieldsOf 5 [whole (.cellLo 0) 1] ≠ [] ∧
    badBoundary { hdr 0 with cg := false, bnd := 5 } = true ∧
    badBoundary { hdr 0 with cg := false } = false := by decide +kernel

theorem witness_staging_2 :
    ((taken up 0x0302 { hdr 0xC00 with cg := false } [1] 3 0).commitCheck (stFieldsOf (privateGroup 0x17) [whole (.cellLo 0) 1]) { hdr 0xC00 with cg := false }).toOption = some none ∧
    ((taken up 0x0302 { hdr 0xC00 with cg := false, bnd := 3 } [1] 3 0).commitCheck (stFieldsOf (privateGroup 0x17) [whole (.cellLo 0) 1]) { hdr 0xC00 with cg := false, bnd := 3 }).toOption = none ∧
    bitList 8 (fld 0 7 0) = [] ∧
    fld 32 5 0 = 32 ∧
    (16 : Word).toNat + (0 : Word).toNat ≤ 16 ∧
    fld (0x03FC0000 : Word) 25 16 = 1020 := by decide +kernel

theorem witness_staging_3 :
    (0xF00000E0 : Word) &&& 0x0FFFFF1F = 0 ∧
    (0x0FFFFF1F : Word) &&& 0x0FFFFF1F ≠ 0 := by decide +kernel

theorem witness_plane_1 :
    rangeMapped 0x00030004 255 = true ∧
    placeAt 0x000A0000 = .unmapped ∧
    placeAt 2 = .unmapped ∧
    (taken up 0x0100 (hdr 0) [0, 1] 0 0).readRefusal 0 1 = none ∧
    ((taken ({ up with bad := [0x800000] }) 0x0100 (hdr 0) [0x800000, 1] 0 0).readRefusal 0x800000 1).isSome = true ∧
    (up.stageCheck (hdr 0) (rangeWrites 0x00030004 [1])).toBool = true := by decide +kernel

theorem witness_plane_2 :
    (accepted.stageCheck (hdr 0) (rangeWrites 0x00030004 [1])).toBool = false ∧
    (eng 0).imemShut (engBase 0) 1 = true ∧
    rangeArms 0x00020000 [1] = true ∧ up.armRefused = true ∧
    rangeArms 0x00020004 [1] = false ∧
    rangeStages 0x00030004 [0] = true ∧
    accepted.fieldsIn 5 ≠ 0 ∧ up.fieldsIn 5 = 0 := by decide +kernel

/-- A REG.MODIFY of chip memory that has read its word. -/
def modifying : Dev := after (.regModify (hdr 0) [0x800000, 1, 1]) up

theorem witness_plane_3 :
    modifying.cmd.modify = some (0x17, 0) ∧ (modifying.flightOf 0x17).isSome = true ∧
    ((taken ({ up with bad := [0x800000] }) 0x0102 (hdr 0) [0x800000, 1, 1] 0 0).readRefusal 0x800000 1).isSome = true ∧
    (taken up 0x0102 (hdr 0) [0x30004, 1, 1] 0 0).readRefusal 0x30004 1 = none ∧
    (hdr 0).cg = true ∧ badBoundary { hdr 0 with cg := false, bnd := 5 } = true ∧ rangeStages 0x30004 [0] = true ∧
    (let ab := taken (up.launch 0 { hdr 0 with tag := 1 } [] [0]) 0x0003 (hdr 0) [1] 0 0
     (1 : BitVec 8) ≠ (hdr 0).tag ∧ (ab.flightOf 1).isSome = true) := by decide +kernel

theorem witness_commands_1 :
    up.burstRefusal [0, 0, 16] 0 = none ∧
    (run.burstCheck [100000, 0, 16] 1 0).toOption = some 100000 ∧
    (up.burstCheck [100000, 0, 16] 1 0).toBool = false ∧
    (up.burstRefusal [1, 0, 15] 0).isSome = true ∧
    txLegal 0x10000008 = true ∧ 2 ≤ txClass 0x10000008 ∧
    (up.setReg (.feAux 0) 1).f (.feAux 0) 1 0 = 1 := by decide +kernel

theorem witness_commands_2 :
    swapRefusal { hdr 0 with cg := false } [0x01000010, 7] = none ∧
    (swapRefusal (hdr 0) [0x01000010, 7]).isSome = true ∧
    ((taken up 0x0602 { hdr 0x1000 with cg := false } [] 4 0).fixBoundary { hdr 0x1000 with cg := false }).toOption = some none ∧
    ((taken run 0x0602 { hdr 0x1000 with cg := false } [] 4 0).fixBoundary { hdr 0x1000 with cg := false }).toOption = some (some 7947) ∧
    fld (0x80000FFF : Word) 11 0 + 1 = 4096 ∧
    (path { swap := some (dsw true) }).swapBound 0 = true := by decide +kernel

theorem witness_commands_3 :
    (up.slot 0 0).result ≠ 1 ∧
    quadMem 3 + 0x300000 - 64 + max 4 64 ≤ quadMem 3 + 0x300000 := by decide +kernel

theorem witness_cal_commands_1 :
    calTasks 0x7F (quadUnits 0) ≠ [] ∧
    calTasks 0 (quadUnits 0) = [] ∧
    fld (1000 : Word) 15 0 ≤ 1000 ∧
    (up.calRunCheck 0 (quadUnits 0) (calTasks 0x7F (quadUnits 0))).isSome = true ∧
    (up.calq 0).busy = false ∧
    ((calq { run := some calRun1 }).calq 0).busy = true := by decide +kernel

theorem witness_cal_commands_2 :
    calAddrBad 0x800000 64 = false ∧
    calAddrBad 2 64 = true ∧
    (up.calq 0).inWindow = false ∧
    ((calq { tvalid := true }).calq 0).inWindow = true ∧
    (readImage 0 4 [0]).toBool = false := by decide +kernel

theorem witness_eng_dma_commands_1 :
    (up.eng 0).st = .halted ∧ (up.eng 0).load = none ∧
    ((eng 0).eng 0).st = .running ∧
    (engImage 4 [0]).toBool = false ∧
    up.asleep 128 = false ∧
    bitOf 0x80000000 31 = true ∧ (0xFFFC : Word).toNat % 4 = 0 ∧
    ((up.setEng 0 { st := .sleeping }).eng 0).st = .sleeping := by decide +kernel

theorem witness_eng_dma_commands_2 :
    (up.setDom 128 { st := .asleep }).asleep 128 = true ∧
    (0x30400F02 : Word).toNat &&& 0xD = 0 ∧
    (1 : Word).toNat &&& 0xD ≠ 0 ∧
    (chan {}).dmaCount 0 ≠ 0 ∧ (chan {}).dmaConfigBad 0 = false := by decide +kernel

theorem witness_eng_dma_commands_3 :
    (let d := up.setEng 0 { st := .sleeping }
     (d.eng 0).st = .sleeping ∧ d.wakeDue 136 = false ∧ ({ d with pwr := { wakes := [{ d := 136 }] } } : Dev).wakeDue 136 = true) ∧
    ((up.setEng 0 { load := some (1, 0, 0x800000) }).eng 0).load ≠ none ∧
    (up.setDom 128 { st := .asleep }).asleep (128 + 0 / 4) = true ∧
    ((up.setEng 0 { st := .waiting, wait := .sleep }).eng 0).wait = .sleep := by decide +kernel

theorem witness_hub_link_commands_3 :
    ((lg { st := .off }).lg 0).st = .off ∧ ((lg { st := .train }).lg 0).st ≠ .run ∧
    (up.role ≠ 1 ∧ Settled up ∧ up.inFlight 0x17 = false ∧ ({ up with tb := { st := .idle } } : Dev).tb.st = .idle) ∧
    (({ up with tb := { st := .armed } } : Dev).tb.st = .armed) ∧ (run.tb.st ≠ .idle ∧ run.tb.st ≠ .armed) ∧
    (let d : Dev := { headChip with tb := { st := .idle } }
     d.role = 1 ∧ 1 ≤ d.last ∧ d.downOk = false) ∧
    (let d : Dev := ({ hopDown with tb := { st := .idle } }).setLane 0 { blk := true, comma := true }
     d.role = 1 ∧ 1 ≤ d.last ∧ d.downOk = true) := by
  unfold Settled
  decide +kernel

theorem witness_hub_link_commands_1 :
    fld (0x0003_01FF : Word) 17 16 = 3 ∧ fld (0x000301FF : Word) 8 0 = 511 ∧
    fld (19 : Word) 4 0 ≤ 19 ∧
    (run.lg 0).st ≠ .off ∨ (run.lg 2).st = .off ∧
    ((lg { st := .run }).lg 0).st = .run ∧ run.tb.st ≠ .noRef ∧
    ((lg { st := .listen }).lg 0).st = .listen ∧
    Hdr.level (hdr 0x1FFF) = 7 ∧ Hdr.index (hdr 0x1FFF) = 0x3FF := by decide +kernel

theorem witness_hub_link_commands_2 :
    ({ up with tb := { st := .idle } } : Dev).role ≠ 1 ∧
    ({ headChip with link := { lg := [(2, { st := .train })], lane := [(8, { blk := true, comma := true })] } } : Dev).laneList 2 = [] ∧
    run.groupOf 15 = none ∧ run.groupOf 7 = some 0 := by decide +kernel

theorem witness_refusals :
    hostRow (.latArm (hdr 0) [5]) = some (0x0E03, hdr 0, [5]) ∧
    State.reset.dev.boot.phase ≠ .up ∧
    4 * (List.replicate 257 (0 : Word)).length < 2048 ∧
    Hdr.chip (hdr 0x2000) ≠ headChip.chipNo ∧ headChip.role ≠ 0 := by decide +kernel

/-! ## Ill-formed terms -/

/-- Parameters that no 11-bit LEN announces (Table 3.1), and the longest that it does. -/
theorem test_wf_params :
    paramsWf (List.replicate 512 0) = false ∧ paramsWf (List.replicate 511 0) = true := by decide +kernel

/-- Every command of the host has the check. -/
theorem test_wf_commands :
    ∀ c ∈ ([
      .nop, .idGet, .capWalk, .tagAbort, .regRead, .regWrite, .regModify, .stageRead, .commit,
      .discard, .synSet, .synGet, .cellLo, .winSet, .winBurst, .rffeXfer, .rffeTimed, .divSet,
      .divSeq, .mismatchMeas, .adcSet, .dacSet, .convGet, .orxSet, .orxGet, .chainSet, .carrSet,
      .carrGain, .chainSync, .chainGet, .ctxSet, .ctxGet, .beamSwap, .wtWrite, .wtRead, .ppSet,
      .cfrPulse, .dpdSwap, .dpdClear, .ppGet, .orxCapture, .capRelease, .calCfg, .calClass, .calRun,
      .calStop, .calClear, .calGet, .calExport, .calImport, .linkCfg, .linkGet, .linkRetrain, .laneCfg,
      .laneGet, .engLoad, .engStart, .engHalt, .engKick, .engGet, .memFill, .dmaSet, .dmaRun,
      .dmaResume, .dmaAbort, .dmaGet, .pqAdd, .evtSrc, .evtThresh, .evtArray, .evtComplete, .evtGet,
      .pwrSleep, .pwrWake, .pmCfg, .plSet, .plMin, .auxLim, .pwrGet, .hkGet, .latSet,
      .latGet, .latMembers, .latArm] : List (Hdr → List Word → Instr)),
      (c (hdr 0) (List.replicate 512 0)).wf = false ∧ (c (hdr 0) []).wf = true := by decide +kernel

/-- A command with such a list is refused by name. -/
theorem test_refused_params :
    refusedTerm (.nop (hdr 0) (List.replicate 512 0)) = true ∧ goes (.nop (hdr 0) []) up = true := by decide +kernel

/-- A SAMPLE packet of one block of `comp` 1 (8-bit mantissas, Table 11.6). -/
def small : SamplePkt :=
  { ctx := 0, ts := 0, nblk := 1, comp := 1, codes := [0], exps := [0], mants := List.replicate 16 (1, -1) }

/-- Each check of a SAMPLE packet (Table 11.5). -/
theorem test_wf_sample :
    refusedTerm (.txSamplePacket { small with nblk := 16, codes := List.replicate 16 0, exps := List.replicate 16 0,
                                              mants := List.replicate 256 (0, 0) }) = true ∧
    refusedTerm (.txSamplePacket { small with codes := [] }) = true ∧
    refusedTerm (.txSamplePacket { small with exps := [] }) = true ∧
    refusedTerm (.txSamplePacket { small with exps := [16] }) = true ∧
    refusedTerm (.txSamplePacket { small with mants := List.replicate 15 (1, -1) }) = true ∧
    refusedTerm (.txSamplePacket { small with mants := List.replicate 16 (32768, 0) }) = true ∧
    goes (.txSamplePacket small) up = true := by decide +kernel

/-- Each check of a CHORD packet (R287). -/
theorem test_wf_chord :
    refusedTerm (.chordPacket true { cpkt 0 with nblk := 16, desc := List.replicate 16 (0, 0), mants := List.replicate 256 (0, 0) }) = true ∧
    refusedTerm (.chordPacket true { cpkt 0 with k := 256, desc := List.replicate 256 (0, 0), mants := List.replicate 4096 (0, 0) }) = true ∧
    refusedTerm (.chordPacket true { cpkt 0 with desc := [] }) = true ∧
    refusedTerm (.chordPacket true { cpkt 0 with mants := [] }) = true ∧
    refusedTerm (.chordPacket true { cpkt 0 with mants := List.replicate 16 (0, -32769) }) = true ∧
    goes (.chordPacket true (cpkt 0)) up = true := by decide +kernel

/-- The checks of the other rows: RFFE data, bulk sizes (Table 11.9), conversions and packet lengths (R270). -/
theorem test_wf_rows :
    refusedTerm (.rffeJobEnd 0 true (List.replicate 17 0)) = true ∧
    refusedTerm (.bulkWr { grp := 0, addr := 0, xid := 0, ack := true } []) = true ∧
    refusedTerm (.bulkRd { grp := 0, addr := 0, xid := 0, ack := true } 0) = true ∧
    refusedTerm (.bulkRd { grp := 0, addr := 0, xid := 0, ack := true } 8185) = true ∧
    refusedTerm (.housekeepingConversion (-32769)) = true ∧ refusedTerm (.housekeepingConversion 65536) = true ∧
    refusedTerm (.packetReceived 0 []) = true := by decide +kernel

/-- The longest lists. -/
theorem test_wf_long :
    (Instr.bulkWr { grp := 0, addr := 0, xid := 0, ack := true } (List.replicate 8185 0)).wf = false ∧
    (Instr.bulkWr { grp := 0, addr := 0, xid := 0, ack := true } (List.replicate 8184 0)).wf = true ∧
    (Instr.packetReceived 0 (List.replicate 8193 0)).wf = false ∧ (Instr.packetReceived 0 (List.replicate 8192 0)).wf = true := by decide +kernel

/-! ## Engine words, written out from Tables 12.3 and 12.4 -/

/-- Format R. -/
theorem test_word_r :
    decodeVe 3 0b000000_00001_00010_00011_00000000000 = some (.veAdd 3 1 2 3) ∧
    decodeVe 3 0b000000_00001_00010_00011_00000000001 = some (.veSub 3 1 2 3) ∧
    decodeVe 3 0b000000_00001_00010_00011_00000000010 = some (.veAnd 3 1 2 3) ∧
    decodeVe 3 0b000000_00001_00010_00011_00000000011 = some (.veOr 3 1 2 3) ∧
    decodeVe 3 0b000000_00001_00010_00011_00000000100 = some (.veXor 3 1 2 3) ∧
    decodeVe 3 0b000000_00001_00010_00011_00000000101 = some (.veSll 3 1 2 3) ∧
    decodeVe 3 0b000000_00001_00010_00011_00000000110 = some (.veSrl 3 1 2 3) ∧
    decodeVe 3 0b000000_00001_00010_00011_00000000111 = some (.veSra 3 1 2 3) ∧
    decodeVe 3 0b000000_00001_00010_00011_00000001000 = some (.veSlt 3 1 2 3) ∧
    decodeVe 3 0b000000_00001_00010_00011_00000001001 = some (.veSltu 3 1 2 3) ∧
    decodeVe 3 0b000000_00001_00010_00011_00000001010 = some (.veMul 3 1 2 3) ∧
    decodeVe 3 0b000000_00001_00010_00011_00000001011 = some (.veMulh 3 1 2 3) ∧
    decodeVe 3 0b000000_00001_00010_00011_00000001100 = none := by decide +kernel

/-- Format I without memory; LUI has rs1 = 0, shifts have imm bits 15:5 = 0. -/
theorem test_word_i :
    decodeVe 3 0b000001_00001_00010_1111111111111110 = some (.veAddi 3 1 2 0xFFFE) ∧
    decodeVe 3 0b000010_00001_00010_1111111111111110 = some (.veAndi 3 1 2 0xFFFE) ∧
    decodeVe 3 0b000011_00001_00010_1111111111111110 = some (.veOri 3 1 2 0xFFFE) ∧
    decodeVe 3 0b000100_00001_00010_1111111111111110 = some (.veXori 3 1 2 0xFFFE) ∧
    decodeVe 3 0b000101_00001_00000_1000000000000001 = some (.veLui 3 1 0x8001) ∧
    decodeVe 3 0b000101_00001_00010_1111111111111110 = none ∧
    decodeVe 3 0b000110_00001_00010_0000000000011111 = some (.veSlli 3 1 2 31) ∧
    decodeVe 3 0b000111_00001_00010_0000000000011111 = some (.veSrli 3 1 2 31) ∧
    decodeVe 3 0b001000_00001_00010_0000000000011111 = some (.veSrai 3 1 2 31) ∧
    decodeVe 3 0b000110_00001_00010_0000000000100000 = none := by decide +kernel

/-- Loads, stores and flow. -/
theorem test_word_memory :
    decodeVe 3 0b010000_00001_00010_1111111111111110 = some (.veLw 3 1 2 0xFFFE) ∧
    decodeVe 3 0b010001_00001_00010_1111111111111110 = some (.veLh 3 1 2 0xFFFE) ∧
    decodeVe 3 0b010010_00001_00010_1111111111111110 = some (.veLhu 3 1 2 0xFFFE) ∧
    decodeVe 3 0b010011_00001_00010_1111111111111110 = some (.veLb 3 1 2 0xFFFE) ∧
    decodeVe 3 0b010100_00001_00010_1111111111111110 = some (.veLbu 3 1 2 0xFFFE) ∧
    decodeVe 3 0b011000_00001_00010_1111111111111110 = some (.veSw 3 1 2 0xFFFE) ∧
    decodeVe 3 0b011001_00001_00010_1111111111111110 = some (.veSh 3 1 2 0xFFFE) ∧
    decodeVe 3 0b011010_00001_00010_1111111111111110 = some (.veSb 3 1 2 0xFFFE) ∧
    decodeVe 3 0b100000_00001_00010_1111111111111110 = some (.veBeq 3 1 2 0xFFFE) ∧
    decodeVe 3 0b100001_00001_00010_1111111111111110 = some (.veBne 3 1 2 0xFFFE) ∧
    decodeVe 3 0b100010_00001_00010_1111111111111110 = some (.veBlt 3 1 2 0xFFFE) ∧
    decodeVe 3 0b100011_00001_00010_1111111111111110 = some (.veBge 3 1 2 0xFFFE) ∧
    decodeVe 3 0b100100_00001_00010_1111111111111110 = some (.veBltu 3 1 2 0xFFFE) ∧
    decodeVe 3 0b100101_00001_00010_1111111111111110 = some (.veBgeu 3 1 2 0xFFFE) ∧
    decodeVe 3 0b101000_10000000000000000000000001 = some (.veJal 3 0x2000001) ∧
    decodeVe 3 0b101001_00001_00010_1111111111111110 = some (.veJalr 3 1 2 0xFFFE) ∧
    decodeVe 3 0b110000_1111_0_00010_0000000001000000 = some (.veVld 3 15 2 64) ∧
    decodeVe 3 0b110001_1111_0_00010_0000000001000000 = some (.veVst 3 15 2 64) ∧
    decodeVe 3 0b110000_1111_1_00010_0000000001000000 = none ∧
    decodeVe 3 0b001001_00001_00010_0000000000000000 = none := by decide +kernel

/-- Formats V, X and Y. -/
theorem test_word_vector :
    decodeVe 3 0b110010_0001_0010_0011_00000_000000001 = some (.veVadd 3 1 2 3) ∧
    decodeVe 3 0b110010_0001_0010_0011_00000_000000010 = some (.veVsub 3 1 2 3) ∧
    decodeVe 3 0b110010_0001_0010_0011_10001_000000011 = some (.veVmul 3 1 2 3 17) ∧
    decodeVe 3 0b110010_0001_0010_0011_10001_000000100 = some (.veVmulc 3 1 2 3 17) ∧
    decodeVe 3 0b110010_0001_0010_0000_10001_000000101 = some (.veVmag2 3 1 2 17) ∧
    decodeVe 3 0b110010_0001_0010_0000_10001_000000110 = some (.veVshr 3 1 2 17) ∧
    decodeVe 3 0b110010_0001_0010_0000_10001_000000111 = some (.veVshl 3 1 2 17) ∧
    decodeVe 3 0b110010_0001_0010_0000_00000_000001000 = some (.veVconj 3 1 2) ∧
    decodeVe 3 0b110010_0001_0010_0011_00000_000000110 = none ∧
    decodeVe 3 0b110010_0001_0010_0000_00001_000001000 = none ∧
    decodeVe 3 0b110011_00101_0001_0000_00000_00000001 = some (.veVsplat 3 1 5) ∧
    decodeVe 3 0b110011_00101_0001_1001_00000_00000010 = some (.veVget 3 5 1 9) ∧
    decodeVe 3 0b110011_00101_0001_1001_00000_00000011 = some (.veVput 3 5 1 9) ∧
    decodeVe 3 0b110011_00101_0000_0000_11111_00010000 = some (.veAgeti 3 5 0 31) ∧
    decodeVe 3 0b110100_0001_0010_0011_00000_000000001 = some (.veVdot 3 1 2 3) ∧
    decodeVe 3 0b110100_0001_0010_0011_00000_000000010 = some (.veVdotc 3 1 2 3) ∧
    decodeVe 3 0b110100_0001_0000_0000_00000_000000011 = some (.veAclr 3 1) ∧
    decodeVe 3 0b110100_0010_0010_0011_00000_000000001 = none ∧
    decodeVe 3 0b111111_00000_00000_0000000000_000000 = some (.veNop 3) ∧
    decodeVe 3 0b111111_00000_00000_0000000000_000001 = some (.veFenceW 3) ∧
    decodeVe 3 0b111111_00000_00111_0000000000_000010 = some (.veCinv 3 7) ∧
    decodeVe 3 0b111111_00000_00000_0000000000_000011 = some (.veWfe 3) ∧
    decodeVe 3 0b111111_00000_00000_0000000000_000100 = some (.veSleep 3) ∧
    decodeVe 3 0b111111_00000_00000_0000000000_000101 = some (.veHalt 3) ∧
    decodeVe 3 0b111111_00001_00000_0000000000_000000 = none := by decide +kernel

/-! ## Values of the tables and examples of the spec -/

/-- The check values over "123456789" (R68, Table 11.2). -/
theorem test_check_values :
    let b : List Byte := [0x31, 0x32, 0x33, 0x34, 0x35, 0x36, 0x37, 0x38, 0x39]
    crcOf 0 b = 0xE3069283 ∧ crcOf 1 b = 0xCBF43926 ∧ crcOf 2 b = 0x21CF02 ∧ crcOf 3 b = 0x29B1 := by decide +kernel

/-- The COMMIT header of the example of chapter 3. -/
theorem test_commit_header :
    (commandBytes 0x0201 { tag := 0x17, target := 0, group := 5, btable := 2, bnd := 3, cg := true, rr := true, bts := 0, path := .vc0 } 0 []).take 16 =
      [0x01, 0x02, 0x17, 0x0F, 0, 0, 0x25, 0, 0, 0, 0, 0, 0, 0, 0, 0] := by decide +kernel

/-- Frame 1,000, tick 4,915,200 is 0x0007_D04B_0000 (chapter 2). -/
theorem test_timestamp :
    tsOfLin (1000 * 19660800 + 4915200) = 0x0007D04B0000 ∧ linOfTs 0x0007D04B0000 = 1000 * 19660800 + 4915200 := by decide +kernel

/-- The command of the examples of chapter 3, at frame 1,000, tick 4,915,200. -/
def ch3 : Dev := { run with now := 4915200, tb := { st := .run, frame0 := 1000 } }

/-- The example's entries of table 2 and its BT_CTRL word. -/
def ch3Entries : List Word := (List.range 14).map fun e => BitVec.ofNat 32 <|
  if e = 0 then 0x80000000
  else if e < 8 then 0x40000000 + 141312 + (e - 1) * 140288
  else 0x40000000 + 1124352 + (e - 8) * 140288

/-- The two writes of the example, then its COMMIT. -/
def ch3Writes : Dev :=
  after (.regWrite { hdr 0 with tag := 2, rr := true } [0x00020108, 0x0000300E])
    (after (.regWrite { hdr 0 with tag := 1 } (0x00029000 :: ch3Entries)) ch3)
def ch3Commit : Dev := after (.commit { hdr 0 with btable := 2, bnd := 3 } []) ch3Writes

/-- 30 fields are staged, and table 2 keeps its live pair (Table 3.12). -/
theorem test_ch3_writes :
    ch3Writes.fieldsIn 5 = 30 ∧ ch3Writes.peek (.cmd .vc0) 0x00010014 = 0x001E0001 ∧ ch3Writes.f (.btCtrl 2) 9 0 = 1 ∧
    ch3Writes.f (.btCtrl 2) 14 12 = 5 := by decide +kernel

/-- The COMMIT is accepted, and CG_BND shows frame 1,001, tick 0 (Table 3.12). -/
theorem test_ch3_commit :
    (ch3Commit.grp 5).st = .accepted ∧ (ch3Commit.peek (.cmd .vc0) 0x00010128) = 0xD2000000 ∧
    (ch3Commit.peek (.cmd .vc0) 0x0001012C) = 0x0007 := by decide +kernel

/-- Application makes the new table live and empties the group (Table 3.12). -/
theorem test_ch3_application :
    let d := after (.application 5) ch3Commit
    (d.grp 5).st = .empty ∧ d.f (.btCtrl 2) 9 0 = 14 ∧ d.f (.btCtrl 2) 14 12 = 3 ∧ d.ts = 0x0007D2000000 := by decide +kernel

/-- The least n = 7 chain has TX_LEAD 16,910, a single chip 5,899, a pair 7,472 (chapter 2). -/
theorem test_tx_lead :
    run.txLead = 5899 ∧ (run.setReg .latCfg 0x101).txLead = 7472 ∧ (run.setReg .latCfg 0x701).txLead = 16910 := by decide +kernel

/-- LEVEL −48 and PAPR 32 give 20,675 (R192); at 0 dB the threshold stays 32,767. -/
theorem test_cfr_threshold :
    cfrThreshold (-16) = 20675 ∧ cfrThreshold 0 = 32767 := by decide +kernel

/-- 20,675 with 9-bit mantissas takes E = 7 and 162, read back as 20,736 (R283). -/
theorem test_block_float :
    compress 9 [(20675, 0), (-5, 64)] = (7, [(162, 0), (0, 1)]) ∧ 162 * 2 ^ 7 = 20736 := by decide +kernel

/-- RXGP of RX37 at 61 °C (chapter 9). -/
theorem test_interpolation :
    interpElem 488 200 1000 680 1600 = 1360 := by decide +kernel

/-- Table 4.10: an Extended Register Write of 4 bytes takes 61 periods, a Register 0 Write 16. -/
theorem test_rffe_periods :
    txPeriods 0x40000030 = 61 ∧ txPeriods 0x10000000 = 16 ∧ txPeriods 0x700000F0 = 35 + 9 * 16 := by decide +kernel

/-- Table 6.2: D_1 and D_4. -/
theorem test_group_delay :
    groupDelay 1 = 23 ∧ groupDelay 4 = 219 := by decide +kernel

/-- R383: the identification code is captured after Test-Logic-Reset. -/
theorem test_idcode :
    idcodeValue = 0x16464FFF ∧ (run.jtag).ir = 2 := by decide +kernel

/-- REG.MODIFY: new = (old AND NOT mask) OR (value AND mask) (R84). -/
theorem test_modify :
    modified 0xFFFF0000 0x00FFFF00 0x12345678 = 0xFF345600 := by decide +kernel

/-- R171: rounding to nearest with ties away from zero, and saturation. -/
theorem test_rounding :
    rndDiv 5 2 = 3 ∧ rndDiv (-5) 2 = -3 ∧ rndDiv 4 3 = 1 ∧ satTo 16 40000 = 32767 ∧ satTo 16 (-40000) = -32768 := by decide +kernel

/-- R249: word 4 of a superblock over lanes 0, 1 and 3 travels in block 2 of lane 1; R244: the pair 0b10 is level +3. -/
theorem test_stripe :
    stripe 0xB 4 = some (1, 2) ∧ pam4Symbols [false, false, false, true, true, true, true, false] = [-3, -1, 1, 3] := by decide +kernel

/-- R247, R248: the seed, and that scrambling twice gives the word back; a comma of the block is a good comma. -/
theorem test_lane_coding :
    scrambleSeed 5 3 = 0x7FFFFF53 ∧ scramble 5 3 2 (scramble 5 3 2 0x123456789ABCDEF0) = 0x123456789ABCDEF0 ∧
    ((lg { st := .run, txmask := 0xFF }).commaSent 0 3).map commaGood = some true ∧
    ((lg { st := .run, txmask := 0xFF }).commaSent 0 3).map (fun w => w.toNat % 2 ^ 32) = some 0x00FF0003 := by decide +kernel

end Sys2Proof.Tests
end

/-! Writes of registers by ports, and of ARM: lemmas about `Dev.writeLive`, `Dev.stageReg` and `Dev.stopTb`, and the
statement RegisterRows that they settle. -/

namespace Sys2Proof.Machine

/-! ## A register word after a write of some of its bits -/

/-- A stored register after a write of one: what was written at its address, what stood there before at any other. -/
theorem Dev.reg_setReg (d : Dev) (r q : Reg) (w : Word) :
    (d.setReg r w).reg q = if q.addr = r.addr then w else d.reg q := Tbl.get_set _ _ _ _ _

/-- The word that `Dev.setBits` stores. -/
def mergedBits (old : Word) (mask val : Nat) : Word :=
  mkw ((old.toNat &&& (0xFFFFFFFF ^^^ mask)) ||| (val &&& mask))

theorem Dev.setBits_eq_setReg (d : Dev) (r : Reg) (mask val : Nat) :
    d.setBits r mask val = d.setReg r (mergedBits (d.reg r) mask val) := rfl

theorem testBit_wordMask (i : Nat) : (0xFFFFFFFF : Nat).testBit i = decide (i < 32) :=
  Nat.testBit_two_pow_sub_one 32 i

/-- Under the mask the bits of the written word, elsewhere the bits that stood there. -/
theorem getLsbD_mergedBits (old v : Word) (mask i : Nat) :
    (mergedBits old mask v.toNat).getLsbD i = if mask.testBit i then v.getLsbD i else old.getLsbD i := by
  have hold : 32 ≤ i → old.getLsbD i = false := BitVec.getLsbD_of_ge old i
  have hv : 32 ≤ i → v.getLsbD i = false := BitVec.getLsbD_of_ge v i
  simp only [mergedBits, mkw, BitVec.getLsbD_ofNat, Nat.testBit_or, Nat.testBit_and, Nat.testBit_xor, testBit_wordMask,
    BitVec.testBit_toNat]
  rcases Nat.lt_or_ge i 32 with hi | hi
  · cases hm : mask.testBit i <;> simp [hi]
  · simp [hold hi, hv hi]

theorem mergedBits_zero (old v : Word) : mergedBits old 0 v.toNat = old :=
  BitVec.eq_of_getLsbD_eq fun i _ => by simp [getLsbD_mergedBits]

theorem onlyReg_setBits (d : Dev) (r : Reg) (mask val : Nat) :
    OnlyReg d (d.setBits r mask val) r (mergedBits (d.reg r) mask val) := by
  rw [Dev.setBits_eq_setReg]
  refine ⟨?_, fun q hq => ?_, rfl⟩
  · rw [Dev.reg_setReg, if_pos rfl]
  · rw [Dev.reg_setReg, if_neg hq]

/-! ## Staging of fields -/

/-- The staged copy that a write of word `v` makes of field `f` of the register at address `a` in group `g`. -/
def stagedCopy (g a : Nat) (f : FieldD) (v : Word) : SField :=
  { addr := a, lo := f.lo, width := f.width, grp := g, val := v.toNat / 2 ^ f.lo % 2 ^ f.width }

theorem Dev.regroup_staged (d : Dev) (g : Nat) : (d.regroup g).cmd.staged = d.cmd.staged := by
  simp only [Dev.regroup]; (repeat' split) <;> rfl

theorem Dev.regroup_regs (d : Dev) (g : Nat) : (d.regroup g).regs = d.regs := by
  simp only [Dev.regroup]; (repeat' split) <;> rfl

theorem Dev.stageField_staged (d : Dev) (g a : Nat) (f : FieldD) (v : Word) :
    (d.stageField g a f v).cmd.staged =
      d.cmd.staged.filter (fun x => !(x.addr == a && x.lo == f.lo)) ++ [stagedCopy g a f v] := by
  simp only [Dev.stageField]
  (repeat' split) <;> simp only [Dev.regroup_staged] <;> rfl

theorem Dev.stageField_regs (d : Dev) (g a : Nat) (f : FieldD) (v : Word) :
    (d.stageField g a f v).regs = d.regs := by
  simp only [Dev.stageField]
  (repeat' split) <;> simp only [Dev.regroup_regs] <;> rfl

/-- Staging a field replaces its own copy and leaves those of the register's other fields (R86). -/
theorem Dev.stagedOf_stageField (d : Dev) (g a lo : Nat) (f : FieldD) (v : Word) :
    (d.stageField g a f v).stagedOf a lo = if lo = f.lo then some (stagedCopy g a f v) else d.stagedOf a lo := by
  simp only [Dev.stagedOf, Dev.stageField_staged, List.find?_append]
  by_cases h : lo = f.lo
  · have hgone : (d.cmd.staged.filter fun x => !(x.addr == a && x.lo == f.lo)).find?
        (fun x => x.addr == a && x.lo == lo) = none := by
      simp only [List.find?_eq_none, List.mem_filter]
      grind
    rw [hgone]
    simp [h, stagedCopy]
  · have hkept : (d.cmd.staged.filter fun x => !(x.addr == a && x.lo == f.lo)).find?
        (fun x => x.addr == a && x.lo == lo) = d.cmd.staged.find? fun x => x.addr == a && x.lo == lo := by
      rw [List.find?_filter]
      congr 1
      grind
    rw [hkept]
    simp [h, stagedCopy, Ne.symm h]

theorem stagedOf_foldl_of_notMem (g a lo : Nat) (v : Word) (l : List FieldD) (d : Dev) (h : lo ∉ l.map FieldD.lo) :
    (l.foldl (fun d f => d.stageField g a f v) d).stagedOf a lo = d.stagedOf a lo := by
  induction l generalizing d with
  | nil => rfl
  | cons x l ih =>
    rw [List.map_cons, List.mem_cons, not_or] at h
    rw [List.foldl_cons, ih _ h.2, Dev.stagedOf_stageField, if_neg h.1]

/-- Fields at different places of one register are all staged, each with its own part of the word. -/
theorem stagedOf_foldl_of_mem (g a : Nat) (v : Word) (l : List FieldD) (d : Dev) (hl : (l.map FieldD.lo).Nodup)
    (f : FieldD) (hf : f ∈ l) :
    (l.foldl (fun d f => d.stageField g a f v) d).stagedOf a f.lo = some (stagedCopy g a f v) := by
  induction l generalizing d with
  | nil => cases hf
  | cons x l ih =>
    rw [List.map_cons, List.nodup_cons] at hl
    rcases List.mem_cons.mp hf with rfl | hf
    · rw [List.foldl_cons, stagedOf_foldl_of_notMem _ _ _ _ _ _ hl.1, Dev.stagedOf_stageField, if_pos rfl]
    · exact ih _ hl.2 hf

/-- No two fields of a register begin at the same bit. -/
theorem Reg.fields_lo_nodup (r : Reg) : (r.fields.map FieldD.lo).Nodup := by
  cases r <;> simp only [Reg.fields] <;> (repeat' split) <;> simp

theorem Reg.stFields_lo_nodup (r : Reg) : (r.stFields.map FieldD.lo).Nodup :=
  r.fields_lo_nodup.sublist (List.filter_sublist.map _)

theorem Dev.stageReg_regs (d : Dev) (g : Nat) (r : Reg) (v : Word) : (d.stageReg g r v).regs = d.regs := by
  unfold Dev.stageReg
  split
  · rfl
  · exact foldl_keep Dev.regs _ (fun d f => d.stageField_regs g r.addr f v) _ d

theorem Dev.stageReg_of_stFields_nil (d : Dev) (g : Nat) (r : Reg) (v : Word) (h : r.stFields = []) :
    d.stageReg g r v = d := by
  unfold Dev.stageReg
  split
  · rfl
  · rw [h]; rfl

theorem Dev.stagedOf_stageReg (d : Dev) (g : Nat) (r : Reg) (v : Word) (hg : (d.grp g).st ≠ .accepted)
    (hr : d.frozen r = false) (f : FieldD) (hf : f ∈ r.stFields) :
    (d.stageReg g r v).stagedOf r.addr f.lo = some (stagedCopy g r.addr f v) := by
  unfold Dev.stageReg
  rw [if_neg (by simp [hg, hr])]
  exact stagedOf_foldl_of_mem _ _ _ _ _ r.stFields_lo_nodup f hf

/-! ## A write by a port -/

/-- A plain register takes its RW and LV bits, and its unit does nothing more (R2). -/
theorem Dev.writeLive_plain (d : Dev) (r : Reg) (v : Word) (h : plainReg r = true) :
    d.writeLive r v = d.setBits r (liveBits r) v.toNat := by
  unfold Dev.writeLive
  split <;> simp_all [plainReg, liveBits]

theorem Dev.portWrite_bulk (d : Dev) (a : Nat) (v : Word) : d.portWrite .bulk a v = d := if_pos rfl

/-- A port whose ST writes go to no group, or one that meets no ST field, only acts on the live fields. -/
theorem Dev.portWrite_live (d : Dev) (p : Port) (a : Nat) (v : Word) (r : Reg) (hp : p ≠ .bulk)
    (ha : placeAt a = .reg r) (hr : portGroup p = none ∨ r.stFields = []) :
    d.portWrite p a v = d.writeLive r v := by
  rw [Dev.portWrite, if_neg hp, Dev.writeWord, ha]
  cases hg : portGroup p with
  | none => rfl
  | some g =>
    have hst : r.stFields = [] := hr.resolve_left (by simp [hg])
    simp only [d.stageReg_of_stFields_nil g r v hst]

/-- An engine or channel stages the ST fields in group 15 and acts on the live ones (R93). -/
theorem Dev.portWrite_staged (d : Dev) (p : Port) (a : Nat) (v : Word) (r : Reg)
    (hp : (∃ e, p = .engine e) ∨ (∃ c, p = .dma c)) (ha : placeAt a = .reg r) :
    d.portWrite p a v = (d.stageReg 15 r v).writeLive r v := by
  obtain ⟨e, rfl⟩ | ⟨c, rfl⟩ := hp
  · rw [Dev.portWrite, if_neg (by simp), Dev.writeWord, ha]; rfl
  · rw [Dev.portWrite, if_neg (by simp), Dev.writeWord, ha]; rfl

/-! ## The timebase stops -/

/-- The part of the block that an update of cells and blocks leaves: the timebase and the synthesisers. -/
def Dev.tbSyn (d : Dev) : Tb × Tbl Syn := (d.tb, d.rf.syn)

theorem Dev.of_tbSyn {e d : Dev} (h : e.tbSyn = d.tbSyn) : e.tb = d.tb ∧ ∀ n, e.syn n = d.syn n := by
  obtain ⟨htb, hsyn⟩ := Prod.mk.inj h
  exact ⟨htb, fun n => by rw [Dev.syn, hsyn]; rfl⟩

theorem Dev.darken_tbSyn (d : Dev) (p : Nat) : (d.darken p).tbSyn = d.tbSyn := by
  simp only [Dev.darken]; split <;> rfl

theorem Dev.markLo_tbSyn (d : Dev) (p : Nat) : (d.markLo p).tbSyn = d.tbSyn := by
  simp only [Dev.markLo]; split <;> rfl

theorem Dev.loLeft_tbSyn (d : Dev) (n : Nat) : (d.loLeft n).tbSyn = d.tbSyn := by
  have hcells : ((d.txOf n).foldl Dev.darken d).tbSyn = d.tbSyn := foldl_keep Dev.tbSyn _ Dev.darken_tbSyn _ d
  rw [Dev.loLeft, Dev.markLos, foldl_keep Dev.tbSyn _ (fun d i => d.markLo_tbSyn _), hcells]

theorem Dev.dropRunning_tb (d : Dev) (n : Nat) : (d.dropRunning n).tb = d.tb := by
  unfold Dev.dropRunning; split <;> rfl

theorem Dev.dropRunning_syn_st (d : Dev) (n m : Nat) : ((d.dropRunning n).syn m).st = (d.syn m).st := by
  unfold Dev.dropRunning
  split
  · rw [Dev.setSyn_syn]; split <;> simp_all
  · rfl

theorem Dev.synStop_tb (d : Dev) (n : Nat) : (d.synStop n).tb = d.tb := by
  simp only [Dev.synStop]
  split
  case h_3 => rfl
  all_goals
    rw [(Dev.of_tbSyn (Dev.loLeft_tbSyn _ n)).1]
    exact (d.withdrawOps n).dropRunning_tb n

/-- A synthesiser that stops with the timebase leaves READY for PHASE; the others stay as they are (R44). -/
theorem Dev.synStop_syn_st (d : Dev) (n m : Nat) :
    ((d.synStop n).syn m).st = if m = n ∧ (d.syn n).st = .ready then .phase else (d.syn m).st := by
  simp only [Dev.synStop]
  split
  case h_3 hphase hready => rw [if_neg fun h => hready h.2]
  all_goals
    rename_i hst
    have hdrop := Dev.dropRunning_syn_st (d.withdrawOps n) n m
    rw [(Dev.of_tbSyn (Dev.loLeft_tbSyn _ n)).2, Dev.setSyn_syn]
    split <;> simp_all [Dev.withdrawOps]

/-- Of the synthesisers that stop none is READY afterwards. -/
theorem foldl_synStop_not_ready (l : List Nat) (d : Dev) (n : Nat) (h : n ∈ l) :
    ((l.foldl Dev.synStop d).syn n).st ≠ .ready := by
  have hkeep : ∀ (d : Dev) (m : Nat), (d.syn n).st ≠ .ready → ((d.synStop m).syn n).st ≠ .ready := fun d m hd => by
    rw [Dev.synStop_syn_st]; split <;> simp_all
  induction l generalizing d with
  | nil => cases h
  | cons x l ih =>
    rcases List.mem_cons.mp h with rfl | h
    · refine foldl_inv (fun d => (d.syn n).st ≠ .ready) _ hkeep l _ ?_
      rw [Dev.synStop_syn_st]; split <;> simp_all
    · exact ih _ h

theorem Dev.setRegions_tb (d : Dev) (b first count v : Nat) : (d.setRegions b first count v).tb = d.tb :=
  foldl_keep Dev.tb (fun d i => d.setRegion b (first + i) v) (fun _ _ => rfl) _ d

theorem Dev.capFail_tb (d : Dev) (b s n : Nat) : (d.capFail b s n).tb = d.tb := by
  simp only [Dev.capFail]; split <;> simp [Dev.setSlot, Dev.setRegions_tb]

theorem Dev.slotReply_tb (d : Dev) (b s : Nat) (r : Res) : (d.slotReply b s r).tb = d.tb := by
  unfold Dev.slotReply; (repeat' split) <;> simp

theorem Dev.orxRefuse_tb (d : Dev) (b : Nat) (j : OrxJob) : (d.orxRefuse b j).tb = d.tb := by
  unfold Dev.orxRefuse
  split
  · rw [Dev.slotReply_tb, Dev.capFail_tb]
  · split <;> simp
  · rfl

theorem Dev.orxRelease_tb (d : Dev) (b : Nat) : (d.orxRelease b).tb = d.tb := by
  simp only [Dev.orxRelease]
  split
  · exact foldl_keep Dev.tb _ (fun d j => d.orxRefuse_tb b j) _ _
  · rfl

theorem Dev.calDropJob_tb (d : Dev) (y : CalStep) : (d.calDropJob y).tb = d.tb := by
  simp only [Dev.calDropJob]; (repeat' split) <;> simp [Dev.orxRelease_tb]

theorem Dev.calRelease_tb (d : Dev) (u : CalUnit) : (d.calRelease u).tb = d.tb := by
  simp only [Dev.calRelease]; (repeat' split) <;> rfl

theorem Dev.calTake_tb (d : Dev) (q : Nat) (p : CalStep → Bool) : (d.calTake q p).tb = d.tb := by
  refine foldl_keep Dev.tb _ (fun d y => ?_) _ _
  (repeat' split) <;> simp [Dev.calDropJob_tb, Dev.calRelease_tb]

theorem Dev.bgEnd_tb (d : Dev) (q : Nat) (u : CalUnit) (k : Nat) : (d.bgEnd q u k).tb = d.tb :=
  d.calTake_tb q _

theorem Dev.bgAbandon_tb (d : Dev) (q : Nat) (p : CalTask → Bool) : (d.bgAbandon q p).tb = d.tb :=
  foldl_keep Dev.tb (fun d (b : BgUpd) => d.bgEnd q b.task.unit b.task.kind)
    (fun d b => d.bgEnd_tb q b.task.unit b.task.kind) _ d

theorem Dev.stopTb_tb (d : Dev) : d.stopTb.tb = { d.tb with st := .armed, tick0At := none, syncOut := false } := by
  rw [Dev.stopTb, foldl_keep Dev.tb _ Dev.synStop_tb, foldl_keep Dev.tb _ (fun d q => d.bgAbandon_tb q _)]
  rfl

theorem Dev.stopTb_not_ready (d : Dev) (n : Fin 8) : (d.stopTb.syn n).st ≠ .ready :=
  foldl_synStop_not_ready _ _ _ (List.mem_range.mpr n.isLt)

/-! ## A write of 1 to ARM -/

theorem placeAt_tbCtrl : placeAt Reg.tbCtrl.addr = .reg .tbCtrl := by decide

theorem Dev.portWrite_arm (d : Dev) (p : Port) (hp : p ≠ .bulk) : d.portWrite p Reg.tbCtrl.addr 1 = d.armWrite :=
  d.portWrite_live p _ 1 .tbCtrl hp placeAt_tbCtrl (.inr rfl)

theorem Dev.armWrite_idle (d : Dev) (h : d.tb.st = .idle) :
    d.armWrite = { d with tb := { d.tb with st := .armed, tick0At := none } } := by
  simp [Dev.armWrite, Dev.armRefused, h, Dev.setTb]

theorem Dev.armWrite_stays (d : Dev) (h : d.tb.st = .noRef ∨ d.tb.st = .armed ∨ d.tb.st = .run ∧ d.placed = true) :
    d.armWrite = d := by
  rcases h with h | h | ⟨h, hp⟩ <;> simp [Dev.armWrite, Dev.armRefused, *]

theorem Dev.armWrite_run (d : Dev) (h : d.tb.st = .run) (hp : d.placed = false) : d.armWrite = d.stopTb := by
  simp [Dev.armWrite, Dev.armRefused, h, hp]

/-! ## The rows -/

theorem registerWrite_gives (s : State) (p : Port) (a v : Word) (h : s.dev.powered = true) :
    Gives (.registerWrite p a v) s (s.dev.portWrite p a.toNat v) := by
  change execRegisterWrite p a v s = _
  rw [execRegisterWrite, act, whenUp, if_pos h]

theorem arm_gives (s : State) (p : Port) (h : s.dev.powered = true) (hp : p ≠ .bulk) :
    Gives (.arm p) s s.dev.armWrite := by
  change execArm p s = _
  rw [execArm, act, whenUp, if_pos h, Dev.portWrite_arm _ _ hp]

/-- A write of a plain register that stages nothing sets its RW and LV bits and nothing else (R2). -/
theorem registerWrite_plain (s : State) (p : Port) (a v : Word) (r : Reg) (h : s.dev.powered = true)
    (ha : placeAt a.toNat = .reg r) (hr : plainReg r = true) (hp : p ≠ .bulk)
    (hst : portGroup p = none ∨ r.stFields = []) :
    Reaches (.registerWrite p a v) s fun d => OnlyReg s.dev d r (mergedBits (s.dev.reg r) (liveBits r) v.toNat) := by
  have hgives := registerWrite_gives s p a v h
  rw [Dev.portWrite_live _ _ _ _ r hp ha hst, Dev.writeLive_plain _ _ _ hr] at hgives
  exact ⟨_, hgives, onlyReg_setBits ..⟩

/-- A write by an engine or channel of a plain register without RW and LV fields stages its ST fields in group 15 (R93). -/
theorem registerWrite_stages (s : State) (p : Port) (a v : Word) (r : Reg) (h : s.dev.powered = true)
    (ha : placeAt a.toNat = .reg r) (hr : plainReg r = true) (hp : (∃ e, p = .engine e) ∨ (∃ c, p = .dma c))
    (hg : (s.dev.grp 15).st ≠ .accepted) (hfrozen : s.dev.frozen r = false) (hlive : liveBits r = 0) :
    Reaches (.registerWrite p a v) s fun d => d.reg r = s.dev.reg r ∧
      ∀ f ∈ r.stFields, d.stagedOf r.addr f.lo = some (stagedCopy 15 r.addr f v) := by
  have hgives := registerWrite_gives s p a v h
  rw [Dev.portWrite_staged _ _ _ _ r hp ha, Dev.writeLive_plain _ _ _ hr, hlive] at hgives
  refine ⟨_, hgives, ?_, fun f hf => s.dev.stagedOf_stageReg 15 r v hg hfrozen f hf⟩
  rw [(onlyReg_setBits _ r 0 v.toNat).1, mergedBits_zero, Dev.reg, Dev.stageReg_regs, Dev.reg]

/-- Settles O18: a write by a port is its staging followed by `Dev.writeLive`, and `Dev.armWrite` is split by the state of
the timebase. -/
theorem registerRows : Obligations.RegisterRows := by
  constructor
  · intro s port a v r hup ha hr
    refine ⟨fun hport hst => ?_, ?_, registerWrite_stages s port a v r hup ha hr, ?_⟩
    · exact ⟨_, registerWrite_plain s port a v r hup ha hr hport (.inr hst), getLsbD_mergedBits _ v _⟩
    · rintro p rfl hlive
      have hwrite := registerWrite_plain s (.cmd p) a v r hup ha hr (by simp) (.inl rfl)
      rwa [hlive, mergedBits_zero] at hwrite
    · rintro rfl
      exact s.dev.portWrite_bulk a.toNat v ▸ registerWrite_gives s .bulk a v hup
  · intro s port hup hport
    have hgives := arm_gives s port hup hport
    refine ⟨fun hidle => ?_, fun hstays => ?_, fun hrun hplaced => ?_⟩
    · rwa [Dev.armWrite_idle _ hidle] at hgives
    · rwa [Dev.armWrite_stays _ hstays] at hgives
    · rw [Dev.armWrite_run _ hrun hplaced] at hgives
      have htb := s.dev.stopTb_tb
      exact ⟨_, hgives, by rw [htb], by rw [htb], by rw [htb], s.dev.stopTb_not_ready⟩

end Sys2Proof.Machine

/-! The converters: the DAC pair of a TX cell through its active interval, what an over-range conversion does to the RX paths
of its block, and the statement ConverterRows that these settle. -/

namespace Sys2Proof.Machine

/-! ## The rows -/

/-- A row in which a unit acts gives what the unit makes of the block, while the units work. -/
theorem act_whenUp (f : Dev → Dev) (s : State) (h : s.dev.powered = true) :
    act (whenUp f) s = .next { s with dev := f s.dev } := by
  rw [act, whenUp, if_pos h]

section
variable (s : State) (p : Fin 64) (h : s.dev.powered = true)
include h

theorem dacPowerUp_gives : Gives (.dacPowerUp p) s (s.dev.dacUp p) := act_whenUp _ s h
theorem dacStarted_gives : Gives (.dacStarted p) s (s.dev.dacStarted p) := act_whenUp _ s h
theorem dacPowerDown_gives : Gives (.dacPowerDown p) s (s.dev.dacDown p) := act_whenUp _ s h
theorem adcOvr_gives : Gives (.adcOvr p) s ((s.dev.adcOvr p).calAdcOvr p) := act_whenUp _ s h
theorem ovrRecoveryEnd_gives : Gives (.ovrRecoveryEnd p) s (s.dev.ovrEnd p) := act_whenUp _ s h
theorem nbrRecoveryEnd_gives : Gives (.nbrRecoveryEnd p) s (s.dev.nbrEnd p) := act_whenUp _ s h

end

/-! ## DAC pairs (R140) -/

/-- The DAC pair of a TX cell powers up at the first of the start of its active interval and START - 1,024. -/
theorem Dev.dacUpAt_tx (d : Dev) (p : Fin 64) (w : Win) :
    d.dacUpAt p w = min (w.start - (d.paLead + d.trLead)) (w.start - 1024) := by
  rw [Dev.dacUpAt, Dev.leadOf, if_pos p.isLt]

theorem Dev.dacWin_eq_some (d : Dev) (p : Nat) (w : Win) :
    d.dacWin p = some w ↔
      (d.tx p).cur = some w ∨ ((d.tx p).cur = none ∧ d.txSelected p = true ∧ d.nextWin p d.now = some w) := by
  unfold Dev.dacWin
  split <;> simp_all

theorem Dev.dacWin_eq_none (d : Dev) (p : Nat) :
    d.dacWin p = none ↔ (d.tx p).cur = none ∧ (d.txSelected p = false ∨ d.nextWin p d.now = none) := by
  unfold Dev.dacWin
  split
  · simp_all
  · cases d.txSelected p <;> simp_all

theorem Dev.dacUp_of_off (d : Dev) (p : Nat) (w : Win) (hdac : (d.tx p).dac = .off) (hdom : d.domDown p = false)
    (hwin : d.dacWin p = some w) :
    d.dacUp p = (d.goTo (d.dacUpAt p w)).setTx p
      { d.tx p with dac := .starting, dacAt := max d.now (d.dacUpAt p w) } := by
  simp only [Dev.dacUp, hdac, hwin, hdom]
  rfl

theorem Dev.dacUp_idle (d : Dev) (p : Nat) (h : (d.tx p).dac ≠ .off ∨ d.domDown p = true ∨ d.dacWin p = none) :
    d.dacUp p = d := by
  unfold Dev.dacUp
  split
  · simp_all
  · rfl

theorem Dev.dacStarted_of_starting (d : Dev) (p : Nat) (h : (d.tx p).dac = .starting) :
    d.dacStarted p = (d.goTo ((d.tx p).dacAt + 787)).setTx p { d.tx p with dac := .powered } := if_pos h

theorem Dev.dacStarted_idle (d : Dev) (p : Nat) (h : (d.tx p).dac ≠ .starting) : d.dacStarted p = d := if_neg h

/-- At the end of the active interval of a powered pair, the next power-up decides (R140). -/
theorem Dev.dacDown_at_end (d : Dev) (p : Nat) (hseq : (d.tx p).seq = .tail ∨ (d.tx p).seq = .gap)
    (hdac : (d.tx p).dac = .powered) (hnow : d.now ≤ (d.tx p).paFell + d.trLag) :
    d.dacDown p =
      if d.dacSoon p ((d.tx p).paFell + d.trLag) then { d with now := (d.tx p).paFell + d.trLag }
      else (d.goTo ((d.tx p).paFell + d.trLag)).setTx p { d.tx p with dac := .off } := by
  have hgo : d.goTo ((d.tx p).paFell + d.trLag) = { d with now := (d.tx p).paFell + d.trLag } := by
    rw [Dev.goTo, Nat.max_eq_right hnow]
  simp only [Dev.dacDown, hseq, hdac, hnow, hgo, and_self, if_true]
  rfl

theorem Dev.dacDown_idle (d : Dev) (p : Nat)
    (h : ((d.tx p).seq ≠ .tail ∧ (d.tx p).seq ≠ .gap) ∨ (d.tx p).dac ≠ .powered ∨
      (d.tx p).paFell + d.trLag < d.now) : d.dacDown p = d := by
  refine if_neg fun hend => ?_
  obtain ⟨hseq, hdac, hnow⟩ := hend
  rcases h with ⟨htail, hgap⟩ | hdac' | hlate
  · exact hseq.elim htail hgap
  · exact hdac' hdac
  · omega

/-! ## What a report leaves in the queue of its source (R333) -/

theorem Dev.reline_src (d : Dev) (t s : Nat) : (d.reline t).src s = d.src s := by
  simp only [Dev.reline]; (repeat' split) <;> simp

theorem Dev.relines_src (d : Dev) (s : Nat) : d.relines.src s = d.src s :=
  foldl_keep (fun d => d.src s) Dev.reline (fun d t => d.reline_src t s) _ d

/-- A source that is enabled and not full takes the record. -/
theorem Dev.fire_queues (d : Dev) (s : Nat) (r : Rec) (hs : isSource s = true) (hen : (d.src s).en = true)
    (hq : (d.src s).q.length < 8) : ((d.fire s r).src s).q = (d.src s).q ++ [r] := by
  simp [Dev.fire, hs, Dev.relines_src, Dev.enter, Src.append, hen, hq]

theorem Dev.reportOvr_queues (d : Dev) (p : Fin 64) (hen : (d.src (49 + 8 * (p.val / 16))).en = true)
    (hq : (d.src (49 + 8 * (p.val / 16))).q.length < 8) :
    ((d.reportOvr p).src (49 + 8 * (p.val / 16))).q = (d.src (49 + 8 * (p.val / 16))).q ++
      [{ cause := 0x0102, loc := d.locOf 3 (64 + p), detail := 0, ts := d.ts }] := by
  have hs : isSource (49 + 8 * (p.val / 16)) = true := by
    simp only [isSource, Bool.and_eq_true, decide_eq_true_eq]
    omega
  exact d.fire_queues _ _ hs hen hq

/-! ## Over-range (R134, R135, R137) -/

/-- Everything but the RX cells. -/
def Dev.exceptRx (d : Dev) : Dev := { d with rf := { d.rf with rx := [] } }

/-- The over-range conversion of path `p` marks `p` itself. -/
def Dev.markSelf (d : Dev) (p : Nat) : Dev :=
  d.setRx p { d.rx p with ovr := true, ovrLast := d.now, tail := d.now + 9,
                          dirty := prune d.now ((d.rx p).dirty ++ [(d.now, d.now + 24)]) }

/-- It marks a neighbour `n`. -/
def Dev.markNeighbour (d : Dev) (n : Nat) : Dev :=
  d.setRx n { d.rx n with nbr := true, nbrLast := d.now,
                          dirty := prune d.now ((d.rx n).dirty ++ [(d.now, d.now + 8)]) }

/-- It marks `p` and the neighbours that convert. -/
def Dev.markBlock (d : Dev) (p : Nat) : Dev := ((d.markSelf p).neighbours p).foldl Dev.markNeighbour (d.markSelf p)

/-- Inside a window of `p`, the first over-range conversion is reported. -/
def Dev.tellOvr (d : Dev) (p : Nat) : Dev := (d.setRx p { d.rx p with ovrTold := true }).reportOvr p

/-- Outside the windows of `p`, it is reported once for the window of a neighbour `n` that it disturbs. -/
def Dev.tellStray (d : Dev) (p n : Nat) : Dev :=
  if (d.rx n).on ∧ ¬ (d.rx p).nbrTold.contains n then
    (d.setRx p { d.rx p with nbrTold := (d.rx p).nbrTold ++ [n] }).reportOvr p
  else d

theorem Dev.self_notMem_neighbours (d : Dev) (p : Nat) : p ∉ d.neighbours p := by simp [Dev.neighbours]

theorem Dev.markSelf_neighbours (d : Dev) (p : Nat) : (d.markSelf p).neighbours p = d.neighbours p := by
  refine List.filter_congr fun n _ => ?_
  by_cases hn : n = p
  · simp [hn]
  · rw [Dev.markSelf, Dev.setRx_rx, if_neg hn]

/-- An over-range conversion marks the block of a pair that converts, and then reports by the state of that pair. -/
theorem Dev.adcOvr_eq (d : Dev) (p : Nat) :
    d.adcOvr p =
      if (d.rx p).adc = .run ∨ (d.rx p).adc = .cal then
        if (d.rx p).adc = .cal then d.markBlock p
        else if (d.rx p).on then (if (d.rx p).ovrTold then d.markBlock p else (d.markBlock p).tellOvr p)
        else ((d.markSelf p).neighbours p).foldl (Dev.tellStray · p) (d.markBlock p)
      else d := rfl

section
variable (d : Dev) (p : Nat)

theorem Dev.adcOvr_cal (h : (d.rx p).adc = .cal) : d.adcOvr p = d.markBlock p := by
  rw [Dev.adcOvr_eq, if_pos (.inr h), if_pos h]

theorem Dev.adcOvr_run_on (h : (d.rx p).adc = .run) (hon : (d.rx p).on = true) :
    d.adcOvr p = if (d.rx p).ovrTold then d.markBlock p else (d.markBlock p).tellOvr p := by
  rw [Dev.adcOvr_eq, if_pos (.inl h), if_neg (by simp [h]), if_pos hon]

theorem Dev.adcOvr_run_out (h : (d.rx p).adc = .run) (hon : (d.rx p).on = false) :
    d.adcOvr p = ((d.markSelf p).neighbours p).foldl (Dev.tellStray · p) (d.markBlock p) := by
  rw [Dev.adcOvr_eq, if_pos (.inl h), if_neg (by simp [h]), if_neg (by simp [hon])]

theorem Dev.adcOvr_idle (h : (d.rx p).adc = .off ∨ (d.rx p).adc = .starting) : d.adcOvr p = d := by
  rw [Dev.adcOvr_eq, if_neg]
  rcases h with h | h <;> simp [h]

end

theorem Dev.of_exceptRx {e d : Dev} (h : e.exceptRx = d.exceptRx) :
    e.regs = d.regs ∧ e.hub = d.hub ∧ e.ts = d.ts ∧ (∀ q, e.calq q = d.calq q) ∧ (∀ i, e.src i = d.src i) ∧
      ∀ level index, e.locOf level index = d.locOf level index :=
  ⟨(congrArg Dev.regs h :), (congrArg Dev.hub h :), (congrArg Dev.ts h :), fun q => (congrArg (Dev.calq · q) h :),
    fun i => (congrArg (Dev.src · i) h :), fun level index => (congrArg (Dev.locOf · level index) h :)⟩

theorem Dev.markBlock_exceptRx (d : Dev) (p : Nat) : (d.markBlock p).exceptRx = d.exceptRx :=
  foldl_keep Dev.exceptRx Dev.markNeighbour (fun _ _ => rfl) _ (d.markSelf p)

theorem Dev.markBlock_hub (d : Dev) (p : Nat) : (d.markBlock p).hub = d.hub :=
  (congrArg Dev.hub (d.markBlock_exceptRx p) :)

theorem foldl_markNeighbour_rx_of_notMem (l : List Nat) (d : Dev) (n : Nat) (h : n ∉ l) :
    (l.foldl Dev.markNeighbour d).rx n = d.rx n := by
  induction l generalizing d with
  | nil => rfl
  | cons m l ih =>
    rw [List.mem_cons, not_or] at h
    rw [List.foldl_cons, ih _ h.2, Dev.markNeighbour, Dev.setRx_rx, if_neg h.1]

/-- Every path of the list is disturbed at the present tick. -/
theorem foldl_markNeighbour_nbr (l : List Nat) (d : Dev) (n : Nat) (h : n ∈ l) :
    ((l.foldl Dev.markNeighbour d).rx n).nbr = true ∧ ((l.foldl Dev.markNeighbour d).rx n).nbrLast = d.now := by
  induction l generalizing d with
  | nil => cases h
  | cons m l ih =>
    by_cases hl : n ∈ l
    · exact ih _ hl
    · obtain rfl := (List.mem_cons.mp h).resolve_right hl
      rw [List.foldl_cons, foldl_markNeighbour_rx_of_notMem _ _ _ hl, Dev.markNeighbour, Dev.setRx_rx, if_pos rfl]
      exact ⟨rfl, rfl⟩

/-- Path `p` itself is marked as by its own over-range alone. -/
theorem Dev.markBlock_rx_self (d : Dev) (p : Nat) : (d.markBlock p).rx p = (d.markSelf p).rx p :=
  foldl_markNeighbour_rx_of_notMem _ _ _ ((d.markSelf p).self_notMem_neighbours p)

theorem Dev.markSelf_rx_self (d : Dev) (p : Nat) :
    (d.markSelf p).rx p = { d.rx p with ovr := true, ovrLast := d.now, tail := d.now + 9,
                                        dirty := prune d.now ((d.rx p).dirty ++ [(d.now, d.now + 24)]) } := by
  rw [Dev.markSelf, Dev.setRx_rx, if_pos rfl]

theorem mem_prune_append_of_le (now e : Nat) (l : List (Nat × Nat)) (h : now ≤ e) :
    (now, e) ∈ prune now (l ++ [(now, e)]) := by
  simp only [prune, List.mem_filter, List.mem_append, List.mem_singleton, or_true, decide_eq_true_eq, true_and]
  omega

/-- Block `e` is `d` after an over-range conversion of path `p` has marked it: the path and its neighbours are marked, and
the registers, the calibration engines and the state of the path's pair are those of `d`. -/
structure OvrMarked (d e : Dev) (p : Nat) : Prop where
  ovr : (e.rx p).ovr = true
  last : (e.rx p).ovrLast = d.now
  dirty : (d.now, d.now + 24) ∈ (e.rx p).dirty
  nbrs : ∀ n ∈ d.neighbours p, (e.rx n).nbr = true ∧ (e.rx n).nbrLast = d.now
  regs : e.regs = d.regs
  calq : ∀ q, e.calq q = d.calq q
  adc : (e.rx p).adc = (d.rx p).adc

theorem ovrMarked_markBlock (d : Dev) (p : Nat) : OvrMarked d (d.markBlock p) p := by
  have hself : (d.markBlock p).rx p = _ := (d.markBlock_rx_self p).trans (d.markSelf_rx_self p)
  obtain ⟨hregs, -, -, hcalq, -⟩ := Dev.of_exceptRx (d.markBlock_exceptRx p)
  exact {
    ovr := by rw [hself]
    last := by rw [hself]
    dirty := by rw [hself]; exact mem_prune_append_of_le _ _ _ (Nat.le_add_right ..)
    nbrs := d.markSelf_neighbours p ▸ foldl_markNeighbour_nbr _ (d.markSelf p)
    regs := hregs
    calq := hcalq
    adc := by rw [hself] }

/-- The marks in the order in which the statement lists them. -/
theorem OvrMarked.clauses {d e : Dev} {p : Nat} (h : OvrMarked d e p) :
    (e.rx p).ovr = true ∧ (e.rx p).ovrLast = d.now ∧ (d.now, d.now + 24) ∈ (e.rx p).dirty ∧
      (∀ n ∈ d.neighbours p, (e.rx n).nbr = true ∧ (e.rx n).nbrLast = d.now) ∧ e.regs = d.regs :=
  ⟨h.ovr, h.last, h.dirty, h.nbrs, h.regs⟩

/-- A report leaves every RX cell. -/
theorem Dev.reportOvr_rx (d : Dev) (p n : Nat) : (d.reportOvr p).rx n = d.rx n := by
  simp [Dev.rx, Dev.reportOvr]

/-- A report, with a note of it in the path, leaves the marks. -/
theorem OvrMarked.report {d e : Dev} {p : Nat} (h : OvrMarked d e p) (told : Bool) (stray : List Nat) :
    OvrMarked d ((e.setRx p { e.rx p with ovrTold := told, nbrTold := stray }).reportOvr p) p := by
  have hself : ((e.setRx p { e.rx p with ovrTold := told, nbrTold := stray }).reportOvr p).rx p =
      { e.rx p with ovrTold := told, nbrTold := stray } := by
    rw [Dev.reportOvr_rx, Dev.setRx_rx, if_pos rfl]
  exact {
    ovr := by rw [hself]; exact h.ovr
    last := by rw [hself]; exact h.last
    dirty := by rw [hself]; exact h.dirty
    nbrs := fun n hn => by
      have hne : n ≠ p := fun hp => d.self_notMem_neighbours p (hp ▸ hn)
      rw [Dev.reportOvr_rx, Dev.setRx_rx, if_neg hne]
      exact h.nbrs n hn
    regs := by simpa [Dev.reportOvr] using h.regs
    calq := fun q => by simpa [Dev.calq, Dev.reportOvr] using h.calq q
    adc := by rw [hself]; exact h.adc }

theorem OvrMarked.tellOvr {d e : Dev} {p : Nat} (h : OvrMarked d e p) : OvrMarked d (e.tellOvr p) p :=
  h.report true _

theorem OvrMarked.tellStray {d e : Dev} {p : Nat} (h : OvrMarked d e p) (n : Nat) :
    OvrMarked d (e.tellStray p n) p := by
  unfold Dev.tellStray
  split
  · exact h.report _ _
  · exact h

section
variable (d : Dev) (p : Nat)

/-- An over-range conversion of a pair that converts marks the path and its neighbours, whatever it reports. -/
theorem ovrMarked_adcOvr (h : (d.rx p).adc = .run ∨ (d.rx p).adc = .cal) : OvrMarked d (d.adcOvr p) p := by
  have hmark := ovrMarked_markBlock d p
  rcases h with hrun | hcal
  · cases hon : (d.rx p).on with
    | false =>
      rw [d.adcOvr_run_out p hrun hon]
      exact foldl_inv (OvrMarked d · p) _ (fun _ n he => he.tellStray n) _ _ hmark
    | true =>
      rw [d.adcOvr_run_on p hrun hon]
      split
      · exact hmark
      · exact hmark.tellOvr
  · rwa [d.adcOvr_cal p hcal]

/-- In its window an over-range cell has reported ADC_OVR. -/
theorem Dev.adcOvr_ovrTold (h : (d.rx p).adc = .run) (hon : (d.rx p).on = true) : ((d.adcOvr p).rx p).ovrTold = true := by
  rw [d.adcOvr_run_on p h hon]
  split
  · rw [d.markBlock_rx_self p, d.markSelf_rx_self p]; assumption
  · rw [Dev.tellOvr, Dev.reportOvr_rx, Dev.setRx_rx, if_pos rfl]

/-- A second over-range in one window is not reported (R137). -/
theorem Dev.adcOvr_hub_of_told (h : (d.rx p).adc = .run) (hon : (d.rx p).on = true) (ht : (d.rx p).ovrTold = true) :
    (d.adcOvr p).hub = d.hub := by
  rw [d.adcOvr_run_on p h hon, if_pos ht, d.markBlock_hub]

/-- An over-range conversion for a calibration step is reported by no cell (R138). -/
theorem Dev.adcOvr_hub_of_cal (h : (d.rx p).adc = .cal) : (d.adcOvr p).hub = d.hub := by
  rw [d.adcOvr_cal p h, d.markBlock_hub]

end

/-- The first over-range of a window queues ADC_OVR at the source of the quadrant (R137). -/
theorem Dev.adcOvr_queues (d : Dev) (p : Fin 64) (h : (d.rx p).adc = .run) (hon : (d.rx p).on = true)
    (ht : (d.rx p).ovrTold = false) (hen : (d.src (49 + 8 * (p.val / 16))).en = true)
    (hq : (d.src (49 + 8 * (p.val / 16))).q.length < 8) :
    ((d.adcOvr p).src (49 + 8 * (p.val / 16))).q = (d.src (49 + 8 * (p.val / 16))).q ++
      [{ cause := 0x0102, loc := d.locOf 3 (64 + p), detail := 0, ts := d.ts }] := by
  have hrest : ((d.markBlock p).setRx p { (d.markBlock p).rx p with ovrTold := true }).exceptRx = d.exceptRx :=
    d.markBlock_exceptRx p
  obtain ⟨-, -, hts, -, hsrc, hloc⟩ := Dev.of_exceptRx hrest
  rw [d.adcOvr_run_on p h hon, if_neg (by simp [ht]), Dev.tellOvr,
    Dev.reportOvr_queues _ p (by rwa [hsrc]) (by rwa [hsrc]), hts, hsrc, hloc]

/-! ## Over-range during a calibration step (R138) -/

/-- Calibration step `z` runs and holds the ADC pair of RX path `p`. -/
def holdsAdc (p : Nat) (z : CalStep) : Bool := z.running && calIndex z.unit == 64 + p && !calOrx z.kind

theorem Dev.calAdcOvr_of_free (d : Dev) (p : Nat)
    (h : (d.rx p).adc ≠ .cal ∨ (d.calq (p / 16)).steps.find? (holdsAdc p) = none) : d.calAdcOvr p = d := by
  unfold Dev.calAdcOvr
  split
  case h_1 z hz => exact if_neg (h.resolve_right fun hnone => nomatch hnone.symm.trans hz)
  case h_2 => rfl

theorem Dev.calAdcOvr_of_held (d : Dev) (p : Nat) (z : CalStep) (h : (d.rx p).adc = .cal)
    (hz : (d.calq (p / 16)).steps.find? (holdsAdc p) = some z) : d.calAdcOvr p = d.calOverRange z := by
  unfold Dev.calAdcOvr
  split
  case h_1 y hy =>
    obtain rfl := Option.some.inj (hz.symm.trans hy)
    exact if_pos h
  case h_2 hnone => nomatch hz.symm.trans hnone

/-! ## Recovery (R134, R135) -/

section
variable (d : Dev) (p : Nat)

theorem Dev.ovrEnd_of_ovr (h : (d.rx p).ovr = true) :
    d.ovrEnd p = (d.goTo ((d.rx p).ovrLast + 25)).setRx p { d.rx p with ovr := false } := if_pos h

theorem Dev.ovrEnd_idle (h : (d.rx p).ovr = false) : d.ovrEnd p = d := if_neg (by simp [h])

theorem Dev.nbrEnd_of_nbr (h : (d.rx p).nbr = true) :
    d.nbrEnd p = (d.goTo ((d.rx p).nbrLast + 9)).setRx p { d.rx p with nbr := false } := if_pos h

theorem Dev.nbrEnd_idle (h : (d.rx p).nbr = false) : d.nbrEnd p = d := if_neg (by simp [h])

end

/-! ## The statement -/

/-- Settles O31: each row is its unit's own function, of which the lemmas above give one equation per case; an over-range
conversion marks its block in every case of a pair that converts (`ovrMarked_adcOvr`). -/
theorem converterRows : Obligations.ConverterRows := by
  constructor
  · intro s p w hup
    have hPowerUp := dacPowerUp_gives s p hup
    have hStarted := dacStarted_gives s p hup
    have hPowerDown := dacPowerDown_gives s p hup
    refine ⟨fun hoff hdom hwin => ?_, fun hidle => ?_, fun hst => ?_, fun hst => ?_, fun hseq hdac hnow hsoon => ?_,
      fun hseq hdac hnow hsoon => ?_, fun hidle => ?_⟩
    · rwa [Dev.dacUp_of_off _ _ w hoff hdom ((Dev.dacWin_eq_some ..).mpr hwin), Dev.dacUpAt_tx] at hPowerUp
    · rwa [Dev.dacUp_idle _ _ (hidle.imp_right (.imp_right (Dev.dacWin_eq_none ..).mpr))] at hPowerUp
    · rwa [Dev.dacStarted_of_starting _ _ hst] at hStarted
    · rwa [Dev.dacStarted_idle _ _ hst] at hStarted
    · rwa [Dev.dacDown_at_end _ _ hseq hdac hnow, if_neg (by simp [hsoon])] at hPowerDown
    · rwa [Dev.dacDown_at_end _ _ hseq hdac hnow, if_pos hsoon] at hPowerDown
    · rwa [Dev.dacDown_idle _ _ hidle] at hPowerDown
  · intro s p hup
    have hOvr := adcOvr_gives s p hup
    have hOvrEnd := ovrRecoveryEnd_gives s p hup
    have hNbrEnd := nbrRecoveryEnd_gives s p hup
    refine ⟨fun hrun => ?_, fun hcal hfree => ?_, fun z hcal hz => ?_, fun hidle => ?_, fun hovr => ?_, fun hnbr => ?_,
      fun hovr => ?_, fun hnbr => ?_⟩
    · have hmark := ovrMarked_adcOvr s.dev p (.inl hrun)
      rw [Dev.calAdcOvr_of_free _ _ (.inl (by simp [hmark.adc, hrun]))] at hOvr
      exact ⟨_, hOvr, hmark.clauses, fun hon => ⟨s.dev.adcOvr_ovrTold p hrun hon, s.dev.adcOvr_hub_of_told p hrun hon,
        s.dev.adcOvr_queues p hrun hon⟩⟩
    · have hmark := ovrMarked_adcOvr s.dev p (.inr hcal)
      rw [Dev.calAdcOvr_of_free _ _ (.inr (by rw [hmark.calq]; exact hfree))] at hOvr
      exact ⟨_, hOvr, hmark.clauses, s.dev.adcOvr_hub_of_cal p hcal⟩
    · have hmark := ovrMarked_adcOvr s.dev p (.inr hcal)
      rw [Dev.calAdcOvr_of_held _ _ z (hmark.adc.trans hcal) (by rw [hmark.calq]; exact hz)] at hOvr
      exact ⟨hOvr, hmark.clauses⟩
    · have hnocal : (s.dev.rx p).adc ≠ .cal := by rcases hidle with h | h <;> simp [h]
      rwa [Dev.adcOvr_idle _ _ hidle, Dev.calAdcOvr_of_free _ _ (.inl hnocal)] at hOvr
    · rwa [Dev.ovrEnd_of_ovr _ _ hovr] at hOvrEnd
    · rwa [Dev.nbrEnd_of_nbr _ _ hnbr] at hNbrEnd
    · rwa [Dev.ovrEnd_idle _ _ hovr] at hOvrEnd
    · rwa [Dev.nbrEnd_idle _ _ hnbr] at hNbrEnd

end Sys2Proof.Machine

/-! Receive blocks: what the end of a carrier block and a missing partial sum do to the contexts of the beam engine, and the
statement ReceiveBlocks that these settle. -/

namespace Sys2Proof.Machine

/-! ## What the beam engine may touch -/

/-- From `d` to `e` the clock, the registers, memory, the carriers and every context outside `l` stay as they were, and no block
that waits for its packet is lost. -/
structure OnlyCtxs (l : List Nat) (d e : Dev) : Prop where
  now : e.now = d.now
  regs : e.regs = d.regs
  mem : e.mem = d.mem
  carr : e.carr = d.carr
  others : ∀ y, y ∉ l → e.ctx y = d.ctx y
  outs : ∀ y, (d.ctx y).out <+: (e.ctx y).out

theorem OnlyCtxs.refl (l : List Nat) (d : Dev) : OnlyCtxs l d d :=
  ⟨rfl, rfl, rfl, rfl, fun _ _ => rfl, fun _ => List.prefix_refl _⟩

theorem OnlyCtxs.trans {l : List Nat} {d e f : Dev} (h : OnlyCtxs l d e) (g : OnlyCtxs l e f) : OnlyCtxs l d f where
  now := g.now.trans h.now
  regs := g.regs.trans h.regs
  mem := g.mem.trans h.mem
  carr := g.carr.trans h.carr
  others y hy := (g.others y hy).trans (h.others y hy)
  outs y := (h.outs y).trans (g.outs y)

theorem OnlyCtxs.mono {l m : List Nat} {d e : Dev} (h : OnlyCtxs l d e) (hlm : l ⊆ m) : OnlyCtxs m d e :=
  { h with others := fun y hy => h.others y fun hl => hy (hlm hl) }

theorem OnlyCtxs.carrOf {l : List Nat} {d e : Dev} (h : OnlyCtxs l d e) (c k : Nat) : e.carrOf c k = d.carrOf c k := by
  simp only [Dev.carrOf, Dev.carrier, h.carr]

theorem onlyCtxs_setCtx (d : Dev) (x : Nat) (v : Ctx) (h : (d.ctx x).out <+: v.out) :
    OnlyCtxs [x] d (d.setCtx x v) where
  now := rfl
  regs := rfl
  mem := rfl
  carr := rfl
  others y hy := by rw [Dev.setCtx_ctx, if_neg (by simpa using hy)]
  outs y := by
    rw [Dev.setCtx_ctx]
    split
    case isTrue hy => exact hy ▸ h
    case isFalse => exact List.prefix_refl _

/-! ## Settings while contexts change -/

section
variable (x : Nat) (v : Ctx)

theorem Dev.overlay_setCtx (l : List SField) (d : Dev) : (d.setCtx x v).overlay l = (d.overlay l).setCtx x v :=
  List.foldl_hom (fun e : Dev => e.setCtx x v) fun _ _ => rfl

/-- Groups of staged fields applied one after another. -/
def Dev.overlays (d : Dev) (fields : Nat → List SField) (l : List (Nat × Grp)) : Dev :=
  l.foldl (fun p e => p.overlay (fields e.1)) d

theorem Dev.overlays_setCtx (fields : Nat → List SField) (l : List (Nat × Grp)) (d : Dev) :
    (d.setCtx x v).overlays fields l = (d.overlays fields l).setCtx x v :=
  List.foldl_hom (fun e : Dev => e.setCtx x v) fun e g => e.overlay_setCtx x v (fields g.1)

theorem Dev.projectAt_eq (d : Dev) (t : Nat) :
    d.projectAt t [] t =
      let l := d.acceptedGroups.filter fun e => decide (e.2.bnd ≤ t)
      (d.overlays d.fieldsOf (l.filter fun e => decide (e.2.bnd ≤ t))).overlays d.fieldsOf
        (l.filter fun e => decide (t < e.2.bnd)) := by
  simp only [Dev.projectAt, Dev.overlays, Dev.overlay, List.foldl_nil, ite_self]

theorem Dev.projectAt_setCtx (d : Dev) (t : Nat) :
    (d.setCtx x v).projectAt t [] t = (d.projectAt t [] t).setCtx x v := by
  simp only [Dev.projectAt_eq]
  rw [← Dev.overlays_setCtx, ← Dev.overlays_setCtx]
  rfl

/-- The settings of an instant do not depend on the contexts. -/
theorem Dev.cfgAt_setCtx (d : Dev) (t : Nat) : (d.setCtx x v).cfgAt t = (d.cfgAt t).setCtx x v := by
  have hpast : (d.past.foldl (fun d e => if t < e.1 then d.setAddr e.2.1 e.2.2 else d) (d.setCtx x v)) =
      (d.past.foldl (fun d e => if t < e.1 then d.setAddr e.2.1 e.2.2 else d) d).setCtx x v :=
    List.foldl_hom (fun e : Dev => e.setCtx x v) fun e p => by split <;> rfl
  change (if d.now < t then _ else _) = (if d.now < t then _ else _ : Dev).setCtx x v
  split
  · exact d.projectAt_setCtx x v t
  · exact hpast

theorem Dev.cfgAt_setCtx_ctxChord (d : Dev) (t y : Nat) :
    ((d.setCtx x v).cfgAt t).ctxChord y = (d.cfgAt t).ctxChord y := by
  rw [Dev.cfgAt_setCtx]
  rfl

end

theorem Dev.role_of_regs {d e : Dev} (h : e.regs = d.regs) : e.role = d.role := by
  simp only [Dev.role, Dev.f, Dev.reg, h]

theorem Dev.ctx_of_beam {d e : Dev} (h : e.beam = d.beam) (x : Nat) : e.ctx x = d.ctx x := by
  simp only [Dev.ctx, h]

/-! ## A block leaves (R171, R184) -/

section
variable (d : Dev) (x : Nat) (b : SBlk)

/-- Scaled or as an exact sum, a block goes behind those that wait for their packet, with its own start and code, and KIND
takes its code. -/
theorem Dev.blockOut_eq : ∃ (sat : Bool) (y : SBlk),
    d.blockOut x b = d.setCtx x { d.ctx x with kind := b.code, sat := sat, out := (d.ctx x).out ++ [y] } ∧
      y.at_ = b.at_ ∧ y.code = b.code := by
  simp only [Dev.blockOut]
  split
  · exact ⟨false, b, rfl, rfl, rfl⟩
  · exact ⟨_, _, rfl, rfl, rfl⟩

theorem Dev.blockOut_kind : ((d.blockOut x b).ctx x).kind = b.code := by
  obtain ⟨_, _, h, -, -⟩ := d.blockOut_eq x b
  simp [h]

theorem Dev.blockOut_own : ((d.blockOut x b).ctx x).own = (d.ctx x).own := by
  obtain ⟨_, _, h, -, -⟩ := d.blockOut_eq x b
  simp [h]

theorem Dev.blockOut_doneTo : ((d.blockOut x b).ctx x).doneTo = (d.ctx x).doneTo := by
  obtain ⟨_, _, h, -, -⟩ := d.blockOut_eq x b
  simp [h]

theorem Dev.blockOut_out :
    ∃ y, ((d.blockOut x b).ctx x).out = (d.ctx x).out ++ [y] ∧ y.at_ = b.at_ ∧ y.code = b.code := by
  obtain ⟨_, y, h, hy⟩ := d.blockOut_eq x b
  exact ⟨y, by simp [h], hy⟩

theorem Dev.blockOut_psum : (d.blockOut x b).beam.psum = d.beam.psum := by
  obtain ⟨_, _, h, -, -⟩ := d.blockOut_eq x b
  rw [h]
  rfl

theorem onlyCtxs_blockOut : OnlyCtxs [x] d (d.blockOut x b) := by
  obtain ⟨_, _, h, -, -⟩ := d.blockOut_eq x b
  rw [h]
  exact onlyCtxs_setCtx d x _ (List.prefix_append ..)

end

/-! ## Partial sums join (R184, R185) -/

section
variable (d : Dev) (x : Nat)

/-- The oldest own block of a context is taken out of its queue and leaves as block `b`. -/
def Dev.sendOwn (b : SBlk) (rest : List SBlk) : Dev := (d.setCtx x { d.ctx x with own := rest }).blockOut x b

theorem onlyCtxs_sendOwn (b : SBlk) (rest : List SBlk) : OnlyCtxs [x] d (d.sendOwn x b rest) :=
  (onlyCtxs_setCtx d x { d.ctx x with own := rest } (List.prefix_refl _)).trans (onlyCtxs_blockOut _ x b)

theorem Dev.sendOwn_kind (b : SBlk) (rest : List SBlk) : ((d.sendOwn x b rest).ctx x).kind = b.code :=
  Dev.blockOut_kind ..

theorem Dev.sendOwn_own (b : SBlk) (rest : List SBlk) : ((d.sendOwn x b rest).ctx x).own = rest := by
  rw [Dev.sendOwn, Dev.blockOut_own, Dev.setCtx_ctx, if_pos rfl]

theorem Dev.sendOwn_doneTo (b : SBlk) (rest : List SBlk) :
    ((d.sendOwn x b rest).ctx x).doneTo = (d.ctx x).doneTo := by
  rw [Dev.sendOwn, Dev.blockOut_doneTo, Dev.setCtx_ctx, if_pos rfl]

theorem Dev.sendOwn_out (b : SBlk) (rest : List SBlk) :
    ∃ y, ((d.sendOwn x b rest).ctx x).out = (d.ctx x).out ++ [y] ∧ y.at_ = b.at_ ∧ y.code = b.code := by
  have hout := Dev.blockOut_out (d.setCtx x { d.ctx x with own := rest }) x b
  rwa [Dev.setCtx_ctx, if_pos rfl] at hout

theorem Dev.sendOwn_psum (b : SBlk) (rest : List SBlk) : (d.sendOwn x b rest).beam.psum = d.beam.psum :=
  Dev.blockOut_psum ..

theorem Dev.joinPartial_none (h : (d.ctx x).own = []) : d.joinPartial x = d := by
  simp only [Dev.joinPartial, h]

/-- The tail adds to 0. -/
theorem Dev.joinPartial_tail (b : SBlk) (rest : List SBlk) (h : (d.ctx x).own = b :: rest) (hrole : d.role = 3) :
    d.joinPartial x = d.sendOwn x b rest := by
  simp only [Dev.joinPartial, h, if_pos hrole, Dev.sendOwn]

/-- A block whose sum has not come waits. -/
theorem Dev.joinPartial_waits (hrole : d.role ≠ 3)
    (hsum : ∀ b rest, (d.ctx x).own = b :: rest → ∀ y ∈ d.beam.psum, y.ctx ≠ x ∨ y.at_ ≠ b.at_) :
    d.joinPartial x = d := by
  cases h : (d.ctx x).own with
  | nil => exact d.joinPartial_none x h
  | cons b rest =>
    have hnone : (d.beam.psum.find? fun s => s.ctx == x && s.at_ == b.at_) = none := by
      refine List.find?_eq_none.mpr fun y hy hmatch => ?_
      rw [Bool.and_eq_true, beq_iff_eq, beq_iff_eq] at hmatch
      exact (hsum b rest h y hy).elim (· hmatch.1) (· hmatch.2)
    simp only [Dev.joinPartial, h, if_neg hrole, hnone]

/-- The partial sums that have arrived become `l`. -/
def Dev.setSums (l : List PSum) : Dev := { d with beam := { d.beam with psum := l } }

theorem onlyCtxs_setSums (l : List PSum) : OnlyCtxs [x] d (d.setSums l) :=
  { OnlyCtxs.refl [x] d with }

theorem onlyCtxs_joinPartial : OnlyCtxs [x] d (d.joinPartial x) := by
  unfold Dev.joinPartial
  split
  case h_1 b rest _ =>
    split
    · exact onlyCtxs_sendOwn d x b rest
    · split
      · exact (onlyCtxs_setSums d x _).trans (onlyCtxs_sendOwn (d.setSums _) x _ rest)
      · exact .refl _ _
  case h_2 => exact .refl _ _

theorem onlyCtxs_joinAll : OnlyCtxs [x] d (d.joinAll x) :=
  foldl_inv (OnlyCtxs [x] d) _ (fun e _ he => he.trans (onlyCtxs_joinPartial e x)) _ d (.refl _ _)

theorem Dev.joinAll_waits (hrole : d.role ≠ 3) (hsum : ∀ y ∈ d.beam.psum, y.ctx ≠ x) : d.joinAll x = d :=
  foldl_inv (fun e => e = d) _ (fun _ _ he => he ▸ d.joinPartial_waits x hrole fun _ _ _ y hy => .inl (hsum y hy)) _ d rfl

end

/-! ## A missing partial sum (R185) -/

section
variable (d : Dev) (x : Nat)

/-- At its deadline the oldest own block leaves without its sum, marked 0b11. -/
def Dev.sendUnjoined (b : SBlk) (rest : List SBlk) : Dev :=
  (d.goTo (b.at_ + d.partialLead)).sendOwn x { b with code := 3 } rest

theorem onlyCtxs_sendUnjoined (b : SBlk) (rest : List SBlk) :
    OnlyCtxs [x] (d.goTo (b.at_ + d.partialLead)) (d.sendUnjoined x b rest) := onlyCtxs_sendOwn ..

theorem Dev.sendUnjoined_out (b : SBlk) (rest : List SBlk) :
    ∃ y, ((d.sendUnjoined x b rest).ctx x).out = (d.ctx x).out ++ [y] ∧ y.at_ = b.at_ ∧ y.code = 3 :=
  Dev.sendOwn_out ..

theorem Dev.partialMissing_of_own (b : SBlk) (rest : List SBlk) (h : (d.ctx x).own = b :: rest) :
    d.partialMissing x = (d.sendUnjoined x b rest).joinAll x := by
  simp only [Dev.partialMissing, h]
  rfl

theorem Dev.sendUnjoined_joinAll_waits (b : SBlk) (rest : List SBlk) (hrole : d.role ≠ 3)
    (hsum : ∀ y ∈ d.beam.psum, y.ctx ≠ x) : (d.sendUnjoined x b rest).joinAll x = d.sendUnjoined x b rest :=
  Dev.joinAll_waits _ x (by rwa [Dev.role_of_regs (onlyCtxs_sendUnjoined d x b rest).regs])
    (by rwa [Dev.sendUnjoined, Dev.sendOwn_psum])

theorem Dev.partialMissing_idle (h : (d.ctx x).own = []) : d.partialMissing x = d := by
  simp only [Dev.partialMissing, h]

end

/-! ## A stream block is complete (R171) -/

section
variable (d : Dev) (x b : Nat)

/-- The stream block that context `x` makes of the carrier blocks from `b`. -/
def Dev.streamBlk : SBlk := { at_ := b, code := d.streamCode x b, vals := d.streamSums x b }

/-- Context `x` has handled the block from `b`. -/
def Dev.takeBlock : Dev := d.setCtx x { d.ctx x with doneTo := b + 1 }

/-- Context `x` has put its stream block from `b` behind the own blocks that wait for a partial sum. -/
def Dev.queueBlock : Dev :=
  (d.takeBlock x b).setCtx x
    { (d.takeBlock x b).ctx x with own := ((d.takeBlock x b).ctx x).own ++ [d.streamBlk x b] }

theorem Dev.takeBlock_ctx : (d.takeBlock x b).ctx x = { d.ctx x with doneTo := b + 1 } := by
  rw [Dev.takeBlock, Dev.setCtx_ctx, if_pos rfl]

theorem Dev.queueBlock_ctx :
    (d.queueBlock x b).ctx x = { d.ctx x with doneTo := b + 1, own := (d.ctx x).own ++ [d.streamBlk x b] } := by
  rw [Dev.queueBlock, Dev.setCtx_ctx, if_pos rfl, Dev.takeBlock_ctx]

theorem onlyCtxs_takeBlock : OnlyCtxs [x] d (d.takeBlock x b) := onlyCtxs_setCtx d x _ (List.prefix_refl _)

theorem onlyCtxs_queueBlock : OnlyCtxs [x] d (d.queueBlock x b) :=
  (onlyCtxs_takeBlock d x b).trans (onlyCtxs_setCtx _ x _ (List.prefix_refl _))

/-- A context that has not handled a block of which every path has delivered takes it: on the chord it joins its partial sum,
off the chord it leaves. -/
theorem Dev.streamBlock_eq :
    d.streamBlock x b =
      if d.streamReady x b = true ∧ (d.ctx x).doneTo ≤ b then
        if (d.cfgAt b).ctxChord x = true then (d.queueBlock x b).joinPartial x
        else (d.takeBlock x b).blockOut x (d.streamBlk x b)
      else d := by
  rw [← d.cfgAt_setCtx_ctxChord x { d.ctx x with doneTo := b + 1 } b x]
  rfl

theorem onlyCtxs_streamBlock : OnlyCtxs [x] d (d.streamBlock x b) := by
  rw [Dev.streamBlock_eq]
  split
  · split
    · exact (onlyCtxs_queueBlock d x b).trans (onlyCtxs_joinPartial _ x)
    · exact (onlyCtxs_takeBlock d x b).trans (onlyCtxs_blockOut _ x _)
  · exact .refl _ _

theorem onlyCtxs_foldl_streamBlock (l : List Nat) : OnlyCtxs l d (l.foldl (fun d x => d.streamBlock x b) d) := by
  induction l generalizing d with
  | nil => exact .refl _ _
  | cons x l ih =>
    have hhead : OnlyCtxs (x :: l) d (d.streamBlock x b) := (onlyCtxs_streamBlock d x b).mono (by simp)
    exact hhead.trans ((ih _).mono (List.subset_cons_self x l))

section
variable (hready : d.streamReady x b = true) (hnew : (d.ctx x).doneTo ≤ b)
include hready hnew

/-- Off the chord the stream block is ready for its packet. -/
theorem Dev.streamBlock_offChord (hchord : (d.cfgAt b).ctxChord x = false) :
    ((d.streamBlock x b).ctx x).kind = d.streamCode x b ∧ ((d.streamBlock x b).ctx x).doneTo = b + 1 ∧
      ∃ y, ((d.streamBlock x b).ctx x).out = (d.ctx x).out ++ [y] ∧ y.at_ = b ∧ y.code = d.streamCode x b := by
  have hout := (d.takeBlock x b).blockOut_out x (d.streamBlk x b)
  rw [Dev.takeBlock_ctx] at hout
  rw [Dev.streamBlock_eq, if_pos ⟨hready, hnew⟩, if_neg (by simp [hchord])]
  exact ⟨Dev.blockOut_kind .., by rw [Dev.blockOut_doneTo, Dev.takeBlock_ctx], hout⟩

section
variable (hchord : (d.cfgAt b).ctxChord x = true) (hown : (d.ctx x).own = [])
include hchord hown

/-- At the tail the stream block leaves at once. -/
theorem Dev.streamBlock_tail (hrole : d.role = 3) :
    ((d.streamBlock x b).ctx x).kind = d.streamCode x b ∧ ((d.streamBlock x b).ctx x).doneTo = b + 1 ∧
      ((d.streamBlock x b).ctx x).own = [] ∧
      ∃ y, ((d.streamBlock x b).ctx x).out = (d.ctx x).out ++ [y] ∧ y.at_ = b ∧ y.code = d.streamCode x b := by
  have hqueue : ((d.queueBlock x b).ctx x).own = [d.streamBlk x b] := by rw [Dev.queueBlock_ctx, hown]; rfl
  have hout := (d.queueBlock x b).sendOwn_out x (d.streamBlk x b) []
  rw [Dev.queueBlock_ctx] at hout
  rw [Dev.streamBlock_eq, if_pos ⟨hready, hnew⟩, if_pos hchord, Dev.joinPartial_tail _ x _ _ hqueue hrole]
  exact ⟨Dev.sendOwn_kind .., by rw [Dev.sendOwn_doneTo, Dev.queueBlock_ctx], Dev.sendOwn_own .., hout⟩

/-- Elsewhere on the chord it waits for the partial sum from below. -/
theorem Dev.streamBlock_waits (hrole : d.role ≠ 3) (hsum : ∀ y ∈ d.beam.psum, y.ctx ≠ x ∨ y.at_ ≠ b) :
    (d.streamBlock x b).ctx x = { d.ctx x with doneTo := b + 1, own := [d.streamBlk x b] } := by
  have hqueue : ((d.queueBlock x b).ctx x).own = [d.streamBlk x b] := by rw [Dev.queueBlock_ctx, hown]; rfl
  have hwaits : (d.queueBlock x b).joinPartial x = d.queueBlock x b := by
    refine Dev.joinPartial_waits _ x hrole fun blk rest hblk => ?_
    obtain ⟨rfl, -⟩ := List.cons.inj (hqueue.symm.trans hblk)
    exact hsum
  rw [Dev.streamBlock_eq, if_pos ⟨hready, hnew⟩, if_pos hchord, hwaits, Dev.queueBlock_ctx, hown, List.nil_append]

end

end

end

/-! ## A carrier block is complete (R162) -/

section
variable (d : Dev) (p k : Nat)

/-- The next block of a carrier completes at its own tick. -/
theorem Dev.carrierBlock_of_next (b : Nat) (h : d.nextBlock p k = some b) :
    (d.carrierBlock p k).now = max d.now (d.blockReadyAt p k b) ∧ (d.carrierBlock p k).regs = d.regs ∧
      (d.carrierBlock p k).mem = d.mem ∧ (d.carrierBlock p k).beam = d.beam := by
  simp only [Dev.carrierBlock, h]
  exact ⟨rfl, rfl, rfl, rfl⟩

/-- CARR_STAT takes its start and code. -/
theorem Dev.carrierBlock_last (b : Nat) (h : d.nextBlock p k = some b) :
    ((d.carrierBlock p k).carrOf (64 + p) k).last = some (b, (d.goTo (d.blockReadyAt p k b)).blockCode p k b) := by
  simp only [Dev.carrierBlock, h]
  rw [Dev.carrOf, Dev.setCarrier_carrier, if_pos rfl]

theorem Dev.carrierBlockRow_of_next (b : Nat) (h : d.nextBlock p k = some b) :
    d.carrierBlockRow p k =
      ((d.cfgAt b).rxUsers ((d.cfgAt b).tableCell p) k).foldl (fun d x => d.streamBlock x b) (d.carrierBlock p k) := by
  simp only [Dev.carrierBlockRow, h]

theorem Dev.carrierBlockRow_idle (h : d.nextBlock p k = none) : d.carrierBlockRow p k = d := by
  simp only [Dev.carrierBlockRow, h]

end

/-! ## The rows -/

section
variable (s : State) (hup : s.dev.powered = true)
include hup

theorem carrierBlockComplete_gives_tx (cell : Fin 128) (k : Fin 8) (h : cell.val < 64) :
    Gives (.carrierBlockComplete cell k) s s.dev :=
  (act_whenUp _ s hup).trans (by rw [if_pos h])

theorem carrierBlockComplete_gives (cell : Fin 128) (k : Fin 8) (h : 64 ≤ cell.val) :
    Gives (.carrierBlockComplete cell k) s (s.dev.carrierBlockRow (cell.val - 64) k) :=
  (act_whenUp _ s hup).trans (by rw [if_neg (by omega)])

theorem partialSumMissing_gives (x : Fin 128) : Gives (.partialSumMissing x) s (s.dev.partialMissing x) :=
  act_whenUp _ s hup

end

/-! ## The statement -/

/-- Settles O40: the row of a carrier block folds `Dev.streamBlock` over the contexts that use it, which touches those contexts
alone (`onlyCtxs_foldl_streamBlock`); that of a missing sum sends the oldest own block and joins those behind it. -/
theorem receiveBlocks : Obligations.ReceiveBlocks := by
  intro s cell k x hup p c
  refine ⟨fun hidle => ?_, fun b hcell hb => ?_, fun b rest hown => ?_, fun hown => ?_⟩
  · by_cases hcell : cell.val < 64
    · exact carrierBlockComplete_gives_tx s hup cell k hcell
    · have hrow := carrierBlockComplete_gives s hup cell k (by omega)
      rwa [Dev.carrierBlockRow_idle _ _ _ (hidle.resolve_left hcell)] at hrow
  · intro m users takes g
    have hrow := carrierBlockComplete_gives s hup cell k hcell
    rw [Dev.carrierBlockRow_of_next _ _ _ b hb] at hrow
    have hrest : OnlyCtxs users m _ := onlyCtxs_foldl_streamBlock m b users
    obtain ⟨hnow, hregs, hmem, hbeam⟩ := s.dev.carrierBlock_of_next p k b hb
    have hctx : m.ctx x = c := Dev.ctx_of_beam hbeam x
    have hrole : m.role = s.dev.role := Dev.role_of_regs hregs
    have hlast := s.dev.carrierBlock_last p k b hb
    rw [show 64 + p = cell.val by omega] at hlast
    have hone (husers : users = [x.val]) : users.foldl (fun d x => d.streamBlock x b) m = m.streamBlock x b := by
      rw [husers]; rfl
    refine ⟨_, hrow, hrest.now.trans hnow, by rw [hrest.carrOf, hlast], hrest.regs.trans hregs, hrest.mem.trans hmem,
      fun hx => (hrest.others x hx).trans hctx, fun ⟨husers, hready, hnew⟩ hchord => ?_,
      fun ⟨husers, hready, hnew⟩ hchord hown htail => ?_,
      fun ⟨husers, hready, hnew⟩ hchord hown hnotTail hsum => ?_⟩
    · rw [hone husers, ← hctx]
      exact m.streamBlock_offChord x b hready (hctx ▸ hnew) hchord
    · rw [hone husers, ← hctx]
      exact m.streamBlock_tail x b hready (hctx ▸ hnew) hchord (hctx ▸ hown) (hrole.trans htail)
    · rw [hone husers, ← hctx, m.streamBlock_waits x b hready (hctx ▸ hnew) hchord (hctx ▸ hown)
        (by rwa [hrole]) (hbeam ▸ hsum)]
      exact ⟨rfl, rfl, _, rfl, rfl, rfl, rfl⟩
  · have hrow := partialSumMissing_gives s hup x
    rw [Dev.partialMissing_of_own _ _ b rest hown] at hrow
    have hjoined := onlyCtxs_joinAll (s.dev.sendUnjoined x b rest) x
    have hrest := (onlyCtxs_sendUnjoined s.dev x b rest).trans hjoined
    obtain ⟨y, hout, hat, hcode⟩ := s.dev.sendUnjoined_out x b rest
    refine ⟨_, hrow, hrest.now, ?_, fun hrole hsum => ?_, fun y hy => hrest.others y (by simpa using hy), hrest.regs⟩
    · obtain ⟨l, hl⟩ := hjoined.outs x
      exact ⟨y, l, by rw [← hl, hout], hat, hcode⟩
    · rw [s.dev.sendUnjoined_joinAll_waits x b rest hrole hsum]
      exact ⟨Dev.sendOwn_own .., Dev.sendOwn_kind .., y, hout⟩
  · have hrow := partialSumMissing_gives s hup x
    rwa [Dev.partialMissing_idle _ _ hown] at hrow

end Sys2Proof.Machine

/-! Beams: the rows of swaps, fades, fetches and schedule points of a stream context, and the statement Beams that they
settle. -/

namespace Sys2Proof.Machine

/-! ## What the schedule may touch -/

/-- Everything but the clock, the beam engine, the event hub and the engines. -/
def Dev.exceptBeam (d : Dev) : Dev := { d with now := 0, beam := {}, hub := {}, ve := [] }

section
variable {d e : Dev} (h : e.exceptBeam = d.exceptBeam)
include h

theorem Dev.of_exceptBeam : e.regs = d.regs ∧ e.mem = d.mem ∧ e.tb = d.tb :=
  ⟨(congrArg Dev.regs h :), (congrArg Dev.mem h :), (congrArg Dev.tb h :)⟩

theorem Dev.ctxOn_of_exceptBeam (x : Nat) : e.ctxOn x = d.ctxOn x := (congrArg (Dev.ctxOn · x) h :)

theorem Dev.stampAt_of_exceptBeam (x t : Nat) : e.stampAt x t = d.stampAt x t := (congrArg (Dev.stampAt · x t) h :)

end

/-- A context without the entry in force and what prepares its change. -/
def Ctx.sansWeights (c : Ctx) : Ctx := { c with entry := 0, hist := [], fetch := [], ready := [], changed := 0 }

/-- From `d` to `e` context `x` keeps its swaps and its fade, every other context stays as it was, and so do the clock and all
that lies outside the beam engine, the hub and the engines. -/
structure OnlyWeights (x : Nat) (d e : Dev) : Prop where
  now : e.now = d.now
  rest : e.exceptBeam = d.exceptBeam
  others : ∀ y, y ≠ x → e.ctx y = d.ctx y
  swap : (e.ctx x).sansWeights = (d.ctx x).sansWeights

theorem OnlyWeights.refl (x : Nat) (d : Dev) : OnlyWeights x d d := ⟨rfl, rfl, fun _ _ => rfl, rfl⟩

theorem OnlyWeights.trans {x : Nat} {d e f : Dev} (h : OnlyWeights x d e) (g : OnlyWeights x e f) :
    OnlyWeights x d f where
  now := g.now.trans h.now
  rest := g.rest.trans h.rest
  others y hy := (g.others y hy).trans (h.others y hy)
  swap := g.swap.trans h.swap

theorem OnlyWeights.ts {x : Nat} {d e : Dev} (h : OnlyWeights x d e) : e.ts = d.ts := by
  obtain ⟨-, -, htb⟩ := Dev.of_exceptBeam h.rest
  have hrun : e.running = d.running := (congrArg Dev.running h.rest :)
  simp only [Dev.ts, Dev.tsAt, Dev.lin, hrun, htb, h.now]

theorem onlyWeights_setCtx (d : Dev) (x : Nat) (v : Ctx) (h : v.sansWeights = (d.ctx x).sansWeights) :
    OnlyWeights x d (d.setCtx x v) where
  now := rfl
  rest := rfl
  others y hy := by rw [Dev.setCtx_ctx, if_neg hy]
  swap := by rw [Dev.setCtx_ctx, if_pos rfl, h]

theorem onlyWeights_of_exceptHub (x : Nat) {d e : Dev} (h : e.exceptHub = d.exceptHub) : OnlyWeights x d e where
  now := (congrArg Dev.now h :)
  rest := (congrArg Dev.exceptBeam h :)
  others y _ := (congrArg (Dev.ctx · y) h :)
  swap := (congrArg (fun d => (d.ctx x).sansWeights) h :)

theorem Dev.ctx_of_exceptHub {d e : Dev} (h : e.exceptHub = d.exceptHub) (x : Nat) : e.ctx x = d.ctx x :=
  Dev.ctx_of_beam (congrArg Dev.beam h :) x

theorem Dev.setCtx_ctx_same (d : Dev) (x : Nat) (v : Ctx) : (d.setCtx x v).ctx x = v := by
  rw [Dev.setCtx_ctx, if_pos rfl]

/-! ## Faults that several quadrants report (R34, Table 14.1) -/

theorem Dev.fire_src_of_ne (d : Dev) (s i : Nat) (r : Rec) (h : i ≠ s) : (d.fire s r).src i = d.src i := by
  unfold Dev.fire
  split
  · rw [Dev.relines_src, Dev.enter, Dev.setSrc_src, if_neg h]
  · rfl

/-- Each quadrant `q` of `l` reports fault `cause` of the unit of level `level` with number `index q`. -/
def Dev.quadFaults (d : Dev) (cause level : Nat) (index : Nat → Nat) (l : List Nat) : Dev :=
  l.foldl (fun d q => d.fault cause q (d.locOf level (index q)) 0) d

theorem Dev.quadFaults_exceptHub (d : Dev) (cause level : Nat) (index : Nat → Nat) (l : List Nat) :
    (d.quadFaults cause level index l).exceptHub = d.exceptHub :=
  foldl_keep Dev.exceptHub _ (fun d _ => d.fault_keep ..) l d

/-- Causes 0x0301 to 0x0307 have a source of their own in each quadrant (Table 14.1). -/
theorem faultSource_quad (cause q : Nat) (h : 0x0301 ≤ cause ∧ cause ≤ 0x0307) :
    faultSource cause q = 16 + 8 * q + (cause - 0x0301) := by
  unfold faultSource
  rw [if_neg (by omega), if_neg (by omega), if_neg (by omega), if_neg (by omega), if_neg (by omega), if_pos h]

theorem Dev.quadFaults_src_of_notMem (d : Dev) (cause level : Nat) (index : Nat → Nat) (l : List Nat) (q : Nat)
    (hcause : 0x0301 ≤ cause ∧ cause ≤ 0x0307) (hq : q ∉ l) :
    (d.quadFaults cause level index l).src (faultSource cause q) = d.src (faultSource cause q) := by
  induction l generalizing d with
  | nil => rfl
  | cons k l ih =>
    obtain ⟨hne, hl⟩ := not_or.mp (mt List.mem_cons.mpr hq)
    refine (ih _ hl).trans (d.fire_src_of_ne _ _ _ ?_)
    rw [faultSource_quad _ _ hcause, faultSource_quad _ _ hcause]
    omega

/-- A quadrant that reports queues its record at its own source, whatever the quadrants before and after it report. -/
theorem Dev.quadFaults_queues (d : Dev) (cause level : Nat) (index : Nat → Nat) (l : List Nat) (q : Nat)
    (hcause : 0x0301 ≤ cause ∧ cause ≤ 0x0307) (hl : l.Nodup) (hq : q ∈ l) (hquad : q < 4)
    (hen : (d.src (faultSource cause q)).en = true) (hroom : (d.src (faultSource cause q)).q.length < 8) :
    ((d.quadFaults cause level index l).src (faultSource cause q)).q = (d.src (faultSource cause q)).q ++
      [{ cause := BitVec.ofNat 16 cause, loc := d.locOf level (index q), detail := 0, ts := d.ts }] := by
  induction l generalizing d with
  | nil => cases hq
  | cons k l ih =>
    obtain ⟨hk, hl⟩ := List.nodup_cons.mp hl
    by_cases hqk : q = k
    · subst hqk
      have hs : isSource (faultSource cause q) = true := by
        rw [faultSource_quad _ _ hcause, isSource, Bool.and_eq_true, decide_eq_true_eq, decide_eq_true_eq]
        omega
      have hown := d.fire_queues _ ⟨BitVec.ofNat 16 cause, d.locOf level (index q), 0, d.ts⟩ hs hen hroom
      exact (congrArg Src.q (Dev.quadFaults_src_of_notMem _ cause level index l q hcause hk)).trans hown
    · have hkept : (d.fault cause k (d.locOf level (index k)) 0).src (faultSource cause q) = d.src (faultSource cause q) :=
        d.fire_src_of_ne _ _ _ (by rw [faultSource_quad _ _ hcause, faultSource_quad _ _ hcause]; omega)
      have hrest := d.fault_keep cause k (d.locOf level (index k)) 0
      have hts : (d.fault cause k (d.locOf level (index k)) 0).ts = d.ts := (congrArg Dev.ts hrest :)
      have hloc : (d.fault cause k (d.locOf level (index k)) 0).locOf level (index q) = d.locOf level (index q) :=
        (congrArg (Dev.locOf · level (index q)) hrest :)
      have hlater := ih (d.fault cause k (d.locOf level (index k)) 0) hl ((List.mem_cons.mp hq).resolve_left hqk)
        (by rwa [hkept]) (by rwa [hkept])
      rwa [hkept, hts, hloc] at hlater

section
variable (d : Dev) (x : Nat)

theorem Dev.ctxQuads_nodup : (d.ctxQuads x).Nodup := List.nodup_range.filter _

theorem Dev.lt_of_mem_ctxQuads (q : Nat) (h : q ∈ d.ctxQuads x) : q < 4 :=
  List.mem_range.mp (List.mem_filter.mp h).1

/-! ## A change tick comes (R174, R175) -/

/-- Ready entry `r` is put in force from stamp `t`. -/
def Dev.forceEntry (t e : Nat) (r : Ready) : Dev :=
  d.setCtx x { d.ctx x with
    entry := e
    hist := ((t, r.over (d.heldWeights x t)) :: (d.ctx x).hist).take 64
    ready := (d.ctx x).ready.eraseP fun r => r.change == t && r.entry == e }

/-- The fetches of entry `e` for change tick `t` that have not completed are dropped. -/
def Dev.dropFetch (t e : Nat) : Dev :=
  d.setCtx x { d.ctx x with fetch := (d.ctx x).fetch.filter fun f => !(f.change == t && f.entry == e) }

theorem Dev.dropFetch_ctx (t e : Nat) : (d.dropFetch x t e).ctx x =
    { d.ctx x with fetch := (d.ctx x).fetch.filter fun f => !(f.change == t && f.entry == e) } := d.setCtx_ctx_same x _

/-- A fetched entry that some slice has read without an error, or that no slice serves, is in force from its stamp. -/
theorem Dev.entryChange_of_ready (t e : Nat) (r : Ready)
    (h : ((d.ctx x).ready.find? fun r => r.change == t && r.entry == e) = some r)
    (hgood : d.ctxQuads x = [] ∨ ∃ q ∈ d.ctxQuads x, q ∉ r.bad) :
    d.entryChange x t e = d.forceEntry x t e r := by
  simp only [Dev.entryChange, h]
  refine if_neg fun hall => ?_
  rw [Bool.and_eq_true, Bool.not_eq_true', List.isEmpty_eq_false_iff, List.all_eq_true] at hall
  obtain ⟨hne, hbad⟩ := hall
  obtain hnil | ⟨q, hq, hok⟩ := hgood
  · exact hne hnil
  · exact hok (List.contains_iff_mem.mp (hbad q hq))

/-- An entry whose fetch has not completed leaves the context with the one before, and its slices report WEIGHT_LATE. -/
theorem Dev.entryChange_of_late (t e : Nat)
    (h : ((d.ctx x).ready.find? fun r => r.change == t && r.entry == e) = none) :
    d.entryChange x t e = (d.dropFetch x t e).weightLate x := by
  simp only [Dev.entryChange, h, Dev.dropFetch]

theorem Dev.weightLate_exceptHub : (d.weightLate x).exceptHub = d.exceptHub :=
  d.quadFaults_exceptHub 0x0303 4 (fun _ => x) (d.ctxQuads x)

/-- A slice that serves the context queues WEIGHT_LATE at the source of its quadrant. -/
theorem Dev.weightLate_queues (q : Nat) (hq : q ∈ d.ctxQuads x) (hen : (d.src (18 + 8 * q)).en = true)
    (hroom : (d.src (18 + 8 * q)).q.length < 8) :
    ((d.weightLate x).src (18 + 8 * q)).q = (d.src (18 + 8 * q)).q ++
      [{ cause := 0x0303, loc := d.locOf 4 x, detail := 0, ts := d.ts }] := by
  have hs : 18 + 8 * q = faultSource 0x0303 q := by rw [faultSource_quad _ _ (by decide)]; omega
  rw [hs] at hen hroom ⊢
  exact d.quadFaults_queues 0x0303 4 (fun _ => x) _ q (by decide) (d.ctxQuads_nodup x) hq (d.lt_of_mem_ctxQuads x q hq)
    hen hroom

theorem onlyWeights_weightLate : OnlyWeights x d (d.weightLate x) :=
  onlyWeights_of_exceptHub x (d.weightLate_exceptHub x)

theorem onlyWeights_dropFetch (t e : Nat) : OnlyWeights x d (d.dropFetch x t e) := onlyWeights_setCtx d x _ rfl

theorem onlyWeights_entryChange (t e : Nat) : OnlyWeights x d (d.entryChange x t e) := by
  simp only [Dev.entryChange]
  split
  · split
    · exact onlyWeights_setCtx d x _ rfl
    · exact onlyWeights_setCtx d x _ rfl
  · exact (onlyWeights_dropFetch d x t e).trans (onlyWeights_weightLate _ x)

theorem Dev.entryChange_changed (t e : Nat) : ((d.entryChange x t e).ctx x).changed = (d.ctx x).changed := by
  simp only [Dev.entryChange]
  split
  · split <;> rw [Dev.setCtx_ctx_same]
  · rw [Dev.ctx_of_exceptHub (Dev.weightLate_exceptHub _ x), Dev.setCtx_ctx_same]

/-! ## A point is carried out (R176) -/

/-- The point at boundary `b` is noted as carried out. -/
def Dev.notePoint (b : Nat) : Dev := d.setCtx x { d.ctx x with changed := b + 1 }

theorem Dev.pointAct_eq (b e : Nat) : d.pointAct x b e = (d.notePoint x b).entryChange x (d.stampAt x b) e := rfl

theorem Dev.notePoint_ctx (b : Nat) : (d.notePoint x b).ctx x = { d.ctx x with changed := b + 1 } :=
  d.setCtx_ctx_same x _

/-- The weights held do not depend on which points have been carried out. -/
theorem Dev.notePoint_heldWeights (b t : Nat) : (d.notePoint x b).heldWeights x t = d.heldWeights x t := by
  simp only [Dev.heldWeights, Dev.notePoint_ctx]
  rfl

theorem onlyWeights_pointAct (b e : Nat) : OnlyWeights x d (d.pointAct x b e) :=
  have hnote : OnlyWeights x d (d.notePoint x b) := onlyWeights_setCtx d x _ rfl
  hnote.trans (onlyWeights_entryChange _ x _ e)

theorem Dev.pointAct_changed (b e : Nat) : ((d.pointAct x b e).ctx x).changed = b + 1 := by
  rw [Dev.pointAct_eq, Dev.entryChange_changed, Dev.notePoint_ctx]

/-- A point whose entry has been fetched puts it in force, and no report is made. -/
theorem Dev.pointAct_of_ready (b e : Nat) (r : Ready)
    (h : ((d.ctx x).ready.find? fun r => r.change == d.stampAt x b && r.entry == e) = some r)
    (hgood : d.ctxQuads x = [] ∨ ∃ q ∈ d.ctxQuads x, q ∉ r.bad) :
    ((d.pointAct x b e).ctx x).entry = e ∧
      ((d.pointAct x b e).ctx x).hist.head? = some (d.stampAt x b, r.over (d.heldWeights x (d.stampAt x b))) ∧
      (d.pointAct x b e).hub = d.hub := by
  rw [Dev.pointAct_eq, Dev.entryChange_of_ready (d.notePoint x b) x _ e r (by rwa [Dev.notePoint_ctx]) hgood,
    Dev.forceEntry, Dev.setCtx_ctx_same, Dev.notePoint_heldWeights]
  exact ⟨rfl, rfl, rfl⟩

/-- A point whose fetch has not completed leaves the entry, and every slice that serves the context reports WEIGHT_LATE. -/
theorem Dev.pointAct_of_late (b e : Nat) (h : ∀ r ∈ (d.ctx x).ready, r.change ≠ d.stampAt x b ∨ r.entry ≠ e) :
    ((d.pointAct x b e).ctx x).entry = (d.ctx x).entry ∧ ((d.pointAct x b e).ctx x).hist = (d.ctx x).hist ∧
      ∀ q ∈ d.ctxQuads x, (d.src (18 + 8 * q)).en = true → (d.src (18 + 8 * q)).q.length < 8 →
        ((d.pointAct x b e).src (18 + 8 * q)).q = (d.src (18 + 8 * q)).q ++
          [{ cause := 0x0303, loc := d.locOf 4 x, detail := 0, ts := d.ts }] := by
  have hnone : ((d.ctx x).ready.find? fun r => r.change == d.stampAt x b && r.entry == e) = none := by
    refine List.find?_eq_none.mpr fun r hr hmatch => ?_
    rw [Bool.and_eq_true, beq_iff_eq, beq_iff_eq] at hmatch
    exact (h r hr).elim (· hmatch.1) (· hmatch.2)
  rw [Dev.pointAct_eq, Dev.entryChange_of_late _ x _ e (by rwa [Dev.notePoint_ctx]),
    Dev.ctx_of_exceptHub (Dev.weightLate_exceptHub _ x), Dev.dropFetch_ctx, Dev.notePoint_ctx]
  exact ⟨rfl, rfl, ((d.notePoint x b).dropFetch x (d.stampAt x b) e).weightLate_queues x⟩

/-! ## Points that a swap finds at its start -/

theorem onlyWeights_pointsBy (t n : Nat) : OnlyWeights x d (d.pointsBy x t n) := by
  induction n generalizing d with
  | zero => exact .refl x d
  | succ n ih =>
    unfold Dev.pointsBy
    split
    · split
      · split
        · exact (onlyWeights_pointAct d x _ _).trans (ih _)
        · exact .refl x d
      · exact .refl x d
    · exact .refl x d

theorem Dev.pointsBy_idle (t n : Nat) (h : d.running = false ∨ d.ctxOn x = false) : d.pointsBy x t n = d := by
  cases n with
  | zero => rfl
  | succ n =>
    refine if_neg fun hactive => ?_
    obtain ⟨hrun, hon, -⟩ := hactive
    exact h.elim (fun hstop => by simp [hstop] at hrun) (fun hoff => by simp [hoff] at hon)

end

/-! ## Rows of the schedule (R174, R176) -/

section
variable (d : Dev) (x b e : Nat)

theorem Dev.fetchIssue_ctx (t : Nat) :
    (d.fetchIssue x t e).ctx x = { d.ctx x with fetch := (d.ctx x).fetch ++ [{ change := t, entry := e }] } :=
  Dev.setCtx_ctx_same ..

theorem onlyWeights_fetchIssue (t : Nat) : OnlyWeights x d (d.fetchIssue x t e) := onlyWeights_setCtx d x _ rfl

/-- The clock moves to 2,048 ticks before the stamp of the point at boundary `b`, whose fetch counts as issued. -/
def Dev.noteIssue : Dev := (d.goTo (d.stampAt x b - 2048)).setCtx x { d.ctx x with issued := b + 1 }

theorem Dev.noteIssue_ctx : (d.noteIssue x b).ctx x = { d.ctx x with issued := b + 1 } := Dev.setCtx_ctx_same ..

theorem Dev.noteIssue_others (y : Nat) (hy : y ≠ x) : (d.noteIssue x b).ctx y = d.ctx y :=
  (Dev.setCtx_ctx ..).trans (if_neg hy)

theorem Dev.fetchIssueRow_of_active (hactive : d.running = true ∧ d.ctxOn x = true)
    (h : d.pointAhead x (max (d.ctx x).issued (max (d.ctx x).changed (d.now + 1 - d.ctxPeriod x))) = some (b, e)) :
    d.fetchIssueRow x = (d.noteIssue x b).fetchIssue x (d.stampAt x b) e := by
  simp only [Dev.fetchIssueRow, if_pos hactive, h]
  rfl

theorem Dev.fetchIssueRow_none
    (h : d.pointAhead x (max (d.ctx x).issued (max (d.ctx x).changed (d.now + 1 - d.ctxPeriod x))) = none) :
    d.fetchIssueRow x = d := by
  simp only [Dev.fetchIssueRow, h, ite_self]

theorem Dev.fetchIssueRow_idle (h : ¬ (d.running = true ∧ d.ctxOn x = true)) : d.fetchIssueRow x = d := if_neg h

theorem Dev.pointChange_of_active (hactive : d.running = true ∧ d.ctxOn x = true)
    (h : d.nextPoint (d.ctxTable x 0) (d.ctx x).live (max (d.now + 1 - d.ctxPeriod x) (d.ctx x).changed) = some (b, e)) :
    d.pointChange x = (d.goTo (d.stampAt x b)).pointAct x b e := by
  simp only [Dev.pointChange, if_pos hactive, h]

theorem Dev.pointChange_none
    (h : d.nextPoint (d.ctxTable x 0) (d.ctx x).live (max (d.now + 1 - d.ctxPeriod x) (d.ctx x).changed) = none) :
    d.pointChange x = d := by
  simp only [Dev.pointChange, h, ite_self]

theorem Dev.pointChange_idle (h : ¬ (d.running = true ∧ d.ctxOn x = true)) : d.pointChange x = d := if_neg h

end

/-! ## A fetch completes (R174, R175) -/

section
variable (d : Dev) (x : Nat) (f : Fetch) (rest : List Fetch)

/-- What the fetch of `f` has read: the words of its entry, and the quadrants whose line holds an error. -/
def Dev.fetched : Ready :=
  { change := f.change, entry := f.entry, words := d.entryWords (d.ctxTx x) f.entry, bad := d.entryBad x f.entry }

/-- Fetch `f`, with `rest` behind it, has completed: its words are ready, or dropped when they come late. -/
def Dev.takeFetch : Dev :=
  d.setCtx x { d.ctx x with
    fetch := rest
    ready := if d.now ≤ f.change then (d.ctx x).ready ++ [d.fetched x f] else (d.ctx x).ready }

theorem Dev.fetchDone_of_fetch (h : (d.ctx x).fetch = f :: rest) :
    d.fetchDone x = (d.takeFetch x f rest).quadFaults 0x0302 1 id (d.entryBad x f.entry) := by
  simp only [Dev.fetchDone, h]
  rfl

theorem Dev.takeFetch_ctx : (d.takeFetch x f rest).ctx x = { d.ctx x with
    fetch := rest
    ready := if d.now ≤ f.change then (d.ctx x).ready ++ [d.fetched x f] else (d.ctx x).ready } := Dev.setCtx_ctx_same ..

theorem Dev.fetchDone_exceptHub (h : (d.ctx x).fetch = f :: rest) :
    (d.fetchDone x).exceptHub = (d.takeFetch x f rest).exceptHub := by
  rw [d.fetchDone_of_fetch x f rest h, Dev.quadFaults_exceptHub]

theorem Dev.fetchDone_idle (h : (d.ctx x).fetch = []) : d.fetchDone x = d := by
  simp only [Dev.fetchDone, h]

/-- A quadrant whose line holds an error queues MEM_UNCORRECTABLE at its source. -/
theorem Dev.fetchDone_queues (h : (d.ctx x).fetch = f :: rest) (q : Nat) (hq : q ∈ d.entryBad x f.entry)
    (hen : (d.src (17 + 8 * q)).en = true) (hroom : (d.src (17 + 8 * q)).q.length < 8) :
    ((d.fetchDone x).src (17 + 8 * q)).q = (d.src (17 + 8 * q)).q ++
      [{ cause := 0x0302, loc := d.locOf 1 q, detail := 0, ts := d.ts }] := by
  have hs : 17 + 8 * q = faultSource 0x0302 q := by rw [faultSource_quad _ _ (by decide)]; omega
  rw [hs] at hen hroom ⊢
  rw [d.fetchDone_of_fetch x f rest h]
  exact (d.takeFetch x f rest).quadFaults_queues 0x0302 1 id _ q (by decide) ((d.ctxQuads_nodup x).filter _) hq
    (d.lt_of_mem_ctxQuads x q (List.mem_filter.mp hq).1) hen hroom

end

/-! ## Swaps (R178, R181) -/

section
variable (d : Dev) (x : Nat) (w : Swap)

/-- The swap leaves BOUND, its context becomes `c`, and its final OK is sent. -/
def Dev.closeSwap (c : Ctx) : Dev := (d.setCtx x c).finishPart w.tag ((d.setCtx x c).ctxUnit x) (plain sOk)

theorem Dev.closeSwap_now (c : Ctx) : (d.closeSwap x w c).now = d.now := (Dev.finishPart_frame ..).1

theorem Dev.closeSwap_regs (c : Ctx) : (d.closeSwap x w c).regs = d.regs := by simp [Dev.closeSwap]

theorem Dev.closeSwap_ctx (c : Ctx) : (d.closeSwap x w c).ctx x = c := by
  have hbeam : (d.closeSwap x w c).beam = (d.setCtx x c).beam := by simp [Dev.closeSwap]
  rw [Dev.ctx_of_beam hbeam, Dev.setCtx_ctx_same]

/-- The swap moves from the SLOT to BOUND 2,048 ticks before its start. -/
def Dev.bindSlot : Dev :=
  (d.goTo (w.start - 2048)).setCtx x { d.ctx x with slot := none, bound := some w }

theorem Dev.bindSlot_ctx : (d.bindSlot x w).ctx x = { d.ctx x with slot := none, bound := some w } :=
  Dev.setCtx_ctx_same ..

theorem Dev.bindSlot_others (y : Nat) (hy : y ≠ x) : (d.bindSlot x w).ctx y = d.ctx y :=
  (Dev.setCtx_ctx ..).trans (if_neg hy)

/-- The fetch of the swap's first entry is issued for the first stamp; a schedule no point of which takes effect has none. -/
def Dev.fetchFirst : Dev :=
  match d.entryAt (d.ctxTable x w.btable) w.points w.start with
  | some e => d.fetchIssue x (d.stampAt x w.start) e
  | none => d

theorem Dev.fetchFirst_of_some (e : Nat) (h : d.entryAt (d.ctxTable x w.btable) w.points w.start = some e) :
    d.fetchFirst x w = d.fetchIssue x (d.stampAt x w.start) e := by
  simp only [Dev.fetchFirst, h]

theorem Dev.fetchFirst_of_none (h : d.entryAt (d.ctxTable x w.btable) w.points w.start = none) :
    d.fetchFirst x w = d := by
  simp only [Dev.fetchFirst, h]

theorem onlyWeights_fetchFirst : OnlyWeights x d (d.fetchFirst x w) := by
  unfold Dev.fetchFirst
  split
  · exact onlyWeights_fetchIssue d x _ _
  · exact .refl x d

theorem Dev.swapBind_of_slot (hslot : (d.ctx x).slot = some w) (hbound : (d.ctx x).bound = none) :
    d.swapBind x = (d.bindSlot x w).fetchFirst x w := by
  simp only [Dev.swapBind, hslot, hbound]
  rfl

theorem Dev.swapBind_idle (h : (d.ctx x).slot = none ∨ (d.ctx x).bound.isSome = true) : d.swapBind x = d := by
  simp only [Dev.swapBind]
  split
  · simp_all
  · rfl

theorem Dev.fadeEnd_of_started (hbound : (d.ctx x).bound = some w) (hstarted : w.started = true) :
    d.fadeEnd x = (d.goTo ((d.ctx x).s0 + (d.ctx x).fadeN * d.ctxPeriod x)).closeSwap x w
      { d.ctx x with bound := none, fading := false, from_ := (d.ctx x).entry } := by
  simp only [Dev.fadeEnd, hbound, if_pos hstarted]
  rfl

theorem Dev.fadeEnd_idle (h : ∀ w, (d.ctx x).bound = some w → w.started = false) : d.fadeEnd x = d := by
  unfold Dev.fadeEnd
  split
  · rename_i w hw
    exact if_neg (by simp [h w hw])
  · rfl

theorem Dev.swapStart_idle (h : ∀ w, (d.ctx x).bound = some w → w.started = true) : d.swapStart x = d := by
  unfold Dev.swapStart
  split
  · rename_i w hw
    exact if_pos (h w hw)
  · rfl

/-- The start tick comes, and the points of the schedule before the swap that fall by then are carried out. -/
def Dev.atStart : Dev := (d.goTo w.start).pointsBy x w.start 2

/-- The samples of the swap's fade; a disabled context has none. -/
def Dev.fadeLen : Nat := if d.ctxOn x then w.fade else 0

/-- The context when the swap's schedule has become LIVE and its fade begins. -/
def Dev.startedCtx : Ctx :=
  { d.ctx x with
    live := w.points
    bound := some { w with started := true }
    from_ := (d.ctx x).entry
    s0 := d.stampAt x w.start
    fadeN := d.fadeLen x w
    fades := ({ words := d.fadeFrom x w, s0 := d.stampAt x w.start, len := d.fadeLen x w, shape := w.shape,
                stop := d.stampAt x w.start + d.fadeLen x w * d.ctxPeriod x } :: (d.ctx x).fades).take 8
    changed := w.start + 1
    fading := decide (d.fadeLen x w ≠ 0) }

/-- The swap's first entry comes into force at the first stamp. -/
def Dev.startLive : Dev :=
  match d.entryAt (d.ctxTable x w.btable) w.points w.start with
  | some e => (d.setCtx x (d.startedCtx x w)).entryChange x (d.stampAt x w.start) e
  | none => d.setCtx x (d.startedCtx x w)

theorem onlyWeights_startLive : OnlyWeights x (d.setCtx x (d.startedCtx x w)) (d.startLive x w) := by
  unfold Dev.startLive
  split
  · exact onlyWeights_entryChange _ x _ _
  · exact .refl x _

/-- The fetched first entry, read without an error, is in force when the swap has started. -/
theorem Dev.startLive_entry (e : Nat) (r : Ready) (hfirst : d.entryAt (d.ctxTable x w.btable) w.points w.start = some e)
    (h : ((d.ctx x).ready.find? fun r => r.change == d.stampAt x w.start && r.entry == e) = some r) (hbad : r.bad = []) :
    ((d.startLive x w).ctx x).entry = e ∧
      ((d.startLive x w).ctx x).hist.head? = some (d.stampAt x w.start, r.words) := by
  have hgood : d.ctxQuads x = [] ∨ ∃ q ∈ d.ctxQuads x, q ∉ r.bad := by
    rw [hbad]
    cases d.ctxQuads x with
    | nil => exact .inl rfl
    | cons q l => exact .inr ⟨q, List.mem_cons_self, List.not_mem_nil⟩
  have hwords : ∀ old, r.over old = r.words := fun old => by rw [Ready.over, hbad]; rfl
  simp only [Dev.startLive, hfirst]
  rw [Dev.entryChange_of_ready (d.setCtx x (d.startedCtx x w)) x _ e r (by rw [Dev.setCtx_ctx_same]; exact h) hgood,
    Dev.forceEntry, Dev.setCtx_ctx_same, hwords]
  exact ⟨rfl, rfl⟩

/-- The block when the swap has started, before a disabled context ends it. -/
def Dev.started : Dev := (d.atStart x w).startLive x w

theorem Dev.swapStart_of_bound (hbound : (d.ctx x).bound = some w) (hstarted : w.started = false) :
    d.swapStart x =
      if (d.started x w).ctxOn x = true then d.started x w
      else (d.started x w).closeSwap x w
        { (d.started x w).ctx x with bound := none, from_ := ((d.started x w).ctx x).entry } := by
  simp only [Dev.swapStart, hbound, hstarted]
  rfl

theorem Dev.atStart_idle (h : d.running = false ∨ d.ctxOn x = false) : d.atStart x w = d.goTo w.start :=
  Dev.pointsBy_idle (d.goTo w.start) x w.start 2 h

theorem onlyWeights_atStart : OnlyWeights x (d.goTo w.start) (d.atStart x w) := onlyWeights_pointsBy _ x _ _

theorem Dev.started_now : (d.started x w).now = max d.now w.start :=
  (onlyWeights_startLive (d.atStart x w) x w).now.trans (onlyWeights_atStart d x w).now

theorem Dev.started_exceptBeam : (d.started x w).exceptBeam = d.exceptBeam :=
  (onlyWeights_startLive (d.atStart x w) x w).rest.trans (onlyWeights_atStart d x w).rest

/-- The schedule of the swap is LIVE and its fade runs from the first stamp. -/
theorem Dev.started_ctx :
    ((d.started x w).ctx x).live = w.points ∧ ((d.started x w).ctx x).bound = some { w with started := true } ∧
      ((d.started x w).ctx x).s0 = d.stampAt x w.start ∧ ((d.started x w).ctx x).fadeN = d.fadeLen x w ∧
      ((d.started x w).ctx x).fading = decide (d.fadeLen x w ≠ 0) ∧
      ((d.started x w).ctx x).from_ = ((d.atStart x w).ctx x).entry := by
  have hctx : ((d.started x w).ctx x).sansWeights = _ := (onlyWeights_startLive (d.atStart x w) x w).swap
  rw [Dev.setCtx_ctx_same] at hctx
  have hrest : (d.atStart x w).exceptBeam = d.exceptBeam := (onlyWeights_atStart d x w).rest
  have hlen : (d.atStart x w).fadeLen x w = d.fadeLen x w := (congrArg (Dev.fadeLen · x w) hrest :)
  rw [← hlen, ← Dev.stampAt_of_exceptBeam hrest]
  exact ⟨(congrArg Ctx.live hctx :), (congrArg Ctx.bound hctx :), (congrArg Ctx.s0 hctx :), (congrArg Ctx.fadeN hctx :),
    (congrArg Ctx.fading hctx :), (congrArg Ctx.from_ hctx :)⟩

end

/-! ## The rows -/

section
variable (s : State) (x : Fin 128) (hup : s.dev.powered = true)
include hup

theorem swapBind_gives : Gives (.swapBind x) s (s.dev.swapBind x) := act_whenUp _ s hup
theorem swapStart_gives : Gives (.swapStart x) s (s.dev.swapStart x) := act_whenUp _ s hup
theorem fadeEnd_gives : Gives (.fadeEnd x) s (s.dev.fadeEnd x) := act_whenUp _ s hup
theorem weightFetchIssue_gives : Gives (.weightFetchIssue x) s (s.dev.fetchIssueRow x) := act_whenUp _ s hup
theorem weightFetchDone_gives : Gives (.weightFetchDone x) s (s.dev.fetchDone x) := act_whenUp _ s hup
theorem schedulePointChange_gives : Gives (.schedulePointChange x) s (s.dev.pointChange x) := act_whenUp _ s hup

end

/-! ## The statement -/

/-- Settles O39: each row is its unit's own function, of which the lemmas above give one equation per case; what a change of the
entry in force may touch is `OnlyWeights`, which the points that a swap finds at its start keep too. -/
theorem beams : Obligations.Beams := by
  constructor
  · intro s x w hup c first s0
    have hBind := swapBind_gives s x hup
    have hStart := swapStart_gives s x hup
    have hEnd := fadeEnd_gives s x hup
    refine ⟨fun hslot hbound => ?_, fun hidle => ?_, fun hbound hnew => ?_, fun hbound hst => ?_, fun hbound hst => ?_,
      fun hbound hnew => ?_, fun hbound => ?_⟩
    · rw [Dev.swapBind_of_slot _ _ w hslot hbound] at hBind
      have hkeep := onlyWeights_fetchFirst (s.dev.bindSlot x w) x w
      obtain ⟨hregs, -, -⟩ := Dev.of_exceptBeam hkeep.rest
      have hctx := hkeep.swap
      rw [Dev.bindSlot_ctx] at hctx
      refine ⟨_, hBind, hkeep.now, (congrArg Ctx.slot hctx :), (congrArg Ctx.bound hctx :), (congrArg Ctx.live hctx :),
        fun y hy => (hkeep.others y hy).trans (s.dev.bindSlot_others x w y hy), hregs, fun e hfirst => ?_, fun hfirst => ?_⟩
      · rw [Dev.fetchFirst_of_some (s.dev.bindSlot x w) x w e hfirst, Dev.fetchIssue_ctx, Dev.bindSlot_ctx]
        rfl
      · rw [Dev.fetchFirst_of_none (s.dev.bindSlot x w) x w hfirst, Dev.bindSlot_ctx]
    · rwa [Dev.swapBind_idle _ _ hidle] at hBind
    · have hon : (s.dev.started x w).ctxOn x = s.dev.ctxOn x := Dev.ctxOn_of_exceptBeam (s.dev.started_exceptBeam x w) x
      have hnow := s.dev.started_now x w
      obtain ⟨hregs, -, -⟩ := Dev.of_exceptBeam (s.dev.started_exceptBeam x w)
      obtain ⟨hlive, hstarted, hs0, hlen, hfading, hfrom⟩ := s.dev.started_ctx x w
      rw [Dev.swapStart_of_bound _ _ w hbound hnew, hon] at hStart
      refine ⟨_, hStart, ?_⟩
      cases hx : s.dev.ctxOn x with
      | true =>
        rw [Dev.fadeLen, if_pos hx] at hlen hfading
        rw [if_pos rfl]
        refine ⟨hnow, hlive, hs0, hregs, fun _ => ⟨hstarted, hlen, hfading, fun hrun => ?_⟩, nofun, nofun⟩
        rw [hfrom, s.dev.atStart_idle x w (.inl hrun)]
        rfl
      | false =>
        rw [Dev.fadeLen, if_neg (by simp [hx])] at hfading
        rw [if_neg Bool.false_ne_true, Dev.closeSwap_now, Dev.closeSwap_regs, Dev.closeSwap_ctx]
        refine ⟨hnow, hlive, hs0, hregs, nofun, fun _ => ⟨rfl, hfading⟩, fun _ e r hfirst hr hbad => ?_⟩
        rw [Dev.started, s.dev.atStart_idle x w (.inr hx)]
        exact (s.dev.goTo w.start).startLive_entry x w e r hfirst hr hbad
    · rw [Dev.fadeEnd_of_started _ _ w hbound hst] at hEnd
      refine ⟨_, hEnd, Dev.closeSwap_now .., ?_⟩
      rw [Dev.closeSwap_ctx, Dev.closeSwap_regs]
      exact ⟨rfl, rfl, rfl, rfl, rfl, rfl⟩
    · rwa [Dev.swapStart_idle _ _ fun v hv => Option.some.inj (hbound.symm.trans hv) ▸ hst] at hStart
    · rwa [Dev.fadeEnd_idle _ _ fun v hv => Option.some.inj (hbound.symm.trans hv) ▸ hnew] at hEnd
    · have hnone : ∀ v, (s.dev.ctx x).bound ≠ some v := fun v hv => nomatch hbound.symm.trans hv
      rw [Dev.swapStart_idle _ _ fun v hv => (hnone v hv).elim] at hStart
      rw [Dev.fadeEnd_idle _ _ fun v hv => (hnone v hv).elim] at hEnd
      exact ⟨hStart, hEnd⟩
  · intro s x b e hup c active stamp unissued due
    have hIssue := weightFetchIssue_gives s x hup
    have hDone := weightFetchDone_gives s x hup
    have hChange := schedulePointChange_gives s x hup
    refine ⟨fun hactive hnext => ?_, fun _ hnext => ?_, fun f rest hfetch => ?_, fun hfetch => ?_,
      fun hactive hdue => ?_, fun _ hdue => ?_, fun hidle => ?_⟩
    · rw [Dev.fetchIssueRow_of_active _ _ b e hactive hnext] at hIssue
      refine ⟨_, hIssue, rfl, rfl, rfl, ?_, fun y hy => ?_⟩
      · rw [Dev.fetchIssue_ctx, Dev.noteIssue_ctx]
      · exact ((onlyWeights_fetchIssue _ _ _ _).others y hy).trans (s.dev.noteIssue_others x b y hy)
    · rwa [Dev.fetchIssueRow_none _ _ hnext] at hIssue
    · intro bad r after
      refine ⟨fun hbad => ?_, _, hDone, ?_⟩
      · rwa [s.dev.fetchDone_of_fetch x f rest hfetch, show s.dev.entryBad x f.entry = [] from hbad] at hDone
      · have hkeep := s.dev.fetchDone_exceptHub x f rest hfetch
        exact ⟨(congrArg Dev.now hkeep :), (Dev.ctx_of_exceptHub hkeep x).trans (s.dev.takeFetch_ctx x f rest),
          (congrArg Dev.regs hkeep :), (congrArg Dev.mem hkeep :), s.dev.fetchDone_queues x f rest hfetch⟩
    · rwa [Dev.fetchDone_idle _ _ hfetch] at hDone
    · rw [Dev.pointChange_of_active _ _ b e hactive hdue] at hChange
      have hkeep := onlyWeights_pointAct (s.dev.goTo stamp) x b e
      obtain ⟨hregs, hmem, -⟩ := Dev.of_exceptBeam hkeep.rest
      refine ⟨_, hChange, hkeep.now, Dev.pointAct_changed .., hregs, hmem, hkeep.others, ?_, ?_⟩
      · exact (s.dev.goTo stamp).pointAct_of_ready x b e
      · rw [hkeep.ts]
        exact (s.dev.goTo stamp).pointAct_of_late x b e
    · rwa [Dev.pointChange_none _ _ hdue] at hChange
    · rw [Dev.fetchIssueRow_idle _ _ hidle] at hIssue
      rw [Dev.pointChange_idle _ _ hidle] at hChange
      exact ⟨hIssue, hChange⟩

end Sys2Proof.Machine
